-- ==== Sys2Proof/Word.lean ====
section
/-! DEFINITION. The word types of the Y5: bytes, 32-bit and 64-bit registers, 256-bit digests. -/

namespace Sys2Proof

/-- One byte. -/
abbrev Byte := BitVec 8
/-- A 64-bit register (32-bit registers use its low half). -/
abbrev Word := BitVec 64
/-- A string of bytes in the order in which they are stored or sent. -/
abbrev Bytes := List Byte

end Sys2Proof
end

