-- ==== Sys2Proof/Syntax.lean ====
section
/-! DEFINITION. The commands of the block: one constructor of Instr for each row of the opcode table, with the operands
the row's rule gives it. -/

namespace Sys2Proof

/-- An issue slot of a bundle (R194). -/
inductive Slot where
  | a | b | m | c
  deriving DecidableEq, Repr

/-- Where one operation issues: core, slot, and the EXT byte of its bundle (R194). -/
structure IssueAt where
  core : Fin 512
  slot : Slot
  ext : BitVec 8 := 0
  deriving DecidableEq, Repr

/-- Format V (R198). -/
structure VForm where
  vd : BitVec 6
  va : BitVec 6
  vb : BitVec 6
  pm : BitVec 3
  fn : BitVec 5
  deriving DecidableEq, Repr

/-- Format D. -/
structure DForm where
  vd : BitVec 6
  va : BitVec 6
  vb : BitVec 6
  pair : BitVec 4
  nb2 : BitVec 1
  acc : BitVec 1
  scaled : BitVec 1
  rsvd : BitVec 1 := 0
  deriving DecidableEq, Repr

/-- Format M. -/
structure MForm where
  r : BitVec 6
  a : BitVec 4
  size : BitVec 4
  x : BitVec 1
  ofs : BitVec 11
  deriving DecidableEq, Repr

/-- Format S of SSTART. -/
structure StartForm where
  k : BitVec 2
  a : BitVec 4
  x : BitVec 1
  ofs : BitVec 11
  rsvdHi : BitVec 4 := 0
  rsvdLo : BitVec 4 := 0
  deriving DecidableEq, Repr

/-- Format S of SWAIT and SREL. -/
structure WaitForm where
  k : BitVec 2
  sb : BitVec 5
  i : BitVec 1
  x : BitVec 1
  imm : BitVec 13
  rsvd : BitVec 4 := 0
  deriving DecidableEq, Repr

/-- Format R; `low` is RB and nine reserved bits with I = 0, IMM with I = 1. -/
structure RForm where
  rd : BitVec 5
  ra : BitVec 5
  i : BitVec 1
  x : BitVec 1
  low : BitVec 14
  deriving DecidableEq, Repr

/-- Format J. -/
structure JForm where
  rd : BitVec 5
  x : BitVec 1
  imm : BitVec 20
  deriving DecidableEq, Repr

/-- Format B. -/
structure BForm where
  ra : BitVec 5
  cond : BitVec 3
  target : BitVec 16
  rsvd : BitVec 2 := 0
  deriving DecidableEq, Repr

/-- Format Z. -/
structure ZForm where
  rsvd : BitVec 26 := 0
  deriving DecidableEq, Repr

/-- Bits [25:0] of an operation word of each format (R198). -/
def VForm.bits (f : VForm) : Nat :=
  f.vd.toNat * 2 ^ 20 + f.va.toNat * 2 ^ 14 + f.vb.toNat * 2 ^ 8 + f.pm.toNat * 2 ^ 5 + f.fn.toNat
def DForm.bits (f : DForm) : Nat :=
  f.vd.toNat * 2 ^ 20 + f.va.toNat * 2 ^ 14 + f.vb.toNat * 2 ^ 8 + f.pair.toNat * 2 ^ 4 + f.nb2.toNat * 2 ^ 3
    + f.acc.toNat * 2 ^ 2 + f.scaled.toNat * 2 + f.rsvd.toNat
def MForm.bits (f : MForm) : Nat :=
  f.r.toNat * 2 ^ 20 + f.a.toNat * 2 ^ 16 + f.size.toNat * 2 ^ 12 + f.x.toNat * 2 ^ 11 + f.ofs.toNat
def StartForm.bits (f : StartForm) : Nat :=
  f.rsvdHi.toNat * 2 ^ 22 + f.k.toNat * 2 ^ 20 + f.a.toNat * 2 ^ 16 + f.rsvdLo.toNat * 2 ^ 12 + f.x.toNat * 2 ^ 11 + f.ofs.toNat
def WaitForm.bits (f : WaitForm) : Nat :=
  f.rsvd.toNat * 2 ^ 22 + f.k.toNat * 2 ^ 20 + f.sb.toNat * 2 ^ 15 + f.i.toNat * 2 ^ 14 + f.x.toNat * 2 ^ 13 + f.imm.toNat
def RForm.bits (f : RForm) : Nat :=
  f.rd.toNat * 2 ^ 21 + f.ra.toNat * 2 ^ 16 + f.i.toNat * 2 ^ 15 + f.x.toNat * 2 ^ 14 + f.low.toNat
def JForm.bits (f : JForm) : Nat := f.rd.toNat * 2 ^ 21 + f.x.toNat * 2 ^ 20 + f.imm.toNat
def BForm.bits (f : BForm) : Nat :=
  f.ra.toNat * 2 ^ 21 + f.cond.toNat * 2 ^ 18 + f.rsvd.toNat * 2 ^ 16 + f.target.toNat
def ZForm.bits (f : ZForm) : Nat := f.rsvd.toNat

/-- What a poll of a laser module answers (R291, R292): whether the transaction succeeded, whether a module is present, its
CMIS module state code, the outputs whose monitored power lies within the warning thresholds, and those with an alarm. -/
structure LaserPoll where
  ok : Bool
  present : Bool
  mstate : BitVec 3
  powerOk : BitVec 8
  alarms : BitVec 8
  deriving DecidableEq, Repr

/-- A codeword as it arrives on a lane (R294, R295, R300, R302): the bit offset of its header, the header, its 640
payload bytes as corrected and still scrambled (R296), the symbols
corrected, whether it was uncorrectable; and, for the test loops of R318, whether the PRBS checker is synchronised and the
payload bit errors it finds. -/
structure Codeword where
  offset : Nat
  header : BitVec 20
  payload : List (BitVec 8)
  corrected : Nat
  bad : Bool
  sync : Bool
  errors : Nat
  deriving DecidableEq, Repr

/-- The bits of one context's SCH_CTX_CMD and SCH_CTX_COMMIT that all the writes of a tick set together (R118). -/
structure CtxBits where
  arm : Bool := false
  cancel : Bool := false
  abort : Bool := false
  unbind : Bool := false
  go : Bool := false
  launches : BitVec 16 := 0
  deriving DecidableEq, Repr

/-- A raise of a checker of the part itself, by source ID and instance code (R407, R409). -/
structure RaiseOp where
  src : BitVec 6
  inst : BitVec 16
  deriving DecidableEq, Repr

/-- A bit error arising in a 64-bit word of a core's SRAM, or one that SECDED does not correct (R167). -/
structure UpsetOp where
  core : Fin 512
  word : BitVec 16
  both : Bool
  deriving DecidableEq, Repr

/-- What FAULT_RAISE brings: a raise of a checker (none: the oldest report under way is delivered), and a bit error (R167,
R407). -/
structure FaultOp where
  raise : Option RaiseOp := none
  upset : Option UpsetOp := none
  deriving DecidableEq, Repr

/-- A measurement of VIN_12V (PWR_VIN): mV, 10 mA, the 1 ms average in 0.1 W. -/
structure VinOp where
  volt : BitVec 16
  curr : BitVec 16
  power : BitVec 16
  deriving DecidableEq, Repr

/-- A measurement of a rail (PWR_RAILr_STAT): mV, 10 mA. -/
structure RailOp where
  mv : BitVec 16
  curr : BitVec 16
  deriving DecidableEq, Repr

/-- The commands: one constructor per row of the opcode table, in its order. -/
inductive Instr where
  /-- REGISTER_WRITE (R8): A write to a register field that has no row of its own takes effect under its access code. -/
  | registerWrite (off : BitVec 30) (value : BitVec 64)
  /-- COUNTER_END (R25): The 64-bit schedule counter reaches its maximum; it holds there, launches stop and SCHED_COUNT_END is raised. -/
  | counterEnd
  /-- FMASK_SLICE_WRITE (R32): A write of 1 to GLB_FMASK_SLICE masks a slice; the slice is reset, taken to S3 and marked disabled. -/
  | fmaskSliceWrite (value : BitVec 32)
  /-- FMASK_PORT_WRITE (R32): A write of 1 to GLB_FMASK_PORTk masks a port, which goes to DISABLED and is marked disabled. -/
  | fmaskPortWrite (k : Fin 8) (value : BitVec 32)
  /-- FMASK_CORE_WRITE (R32): A write of 1 to GLB_FMASK_COREk masks a core, which goes to OFF; its running context is aborted with reason 0x6. -/
  | fmaskCoreWrite (k : Fin 16) (value : BitVec 32)
  /-- MG_WINDOW_END (R43): At the last tick of a record window, the Marigold engine appends the window's CONTRACT, COMPLETION and CHECKPOINT entries to each running chain. -/
  | mgWindowEnd
  /-- MG_DRAIN (R53): The Y5 sends queued Marigold entries in a class 6 drain frame to the collector. -/
  | mgDrain (part : Fin 16)
  /-- MG_DRAIN_RESEND (R54): GLB_MG_DRAIN_TMO expires for an unacknowledged drain frame, which is resent with the same serial and content. -/
  | mgDrainResend (part : Fin 16) (serial : Nat)
  /-- MG_ACK_RX (R54): An MG_ACK frame from the collector arrives, and the entries of the named drain serial leave the queue. -/
  | mgAckRx (src : Fin 131072) (payload : List (BitVec 8))
  /-- MG_READ (R371): The command returns the oldest unacknowledged Marigold entries in the drain layout, under a new drain serial. -/
  | mgRead
  /-- MG_ACK (R55): The command acknowledges a drain serial read by MG_READ and removes its entries from the queue. -/
  | mgAck
  /-- MG_CHECKPOINT (R56): The command submits a checkpoint with a nonce; the Y5 accepts it or refuses it with MG_BUSY or STATE. -/
  | mgCheckpoint
  /-- CHECKPOINT_SIGNED (R56): The signing of the checkpoint message completes, and the response carrying the message and both signatures is returned. -/
  | checkpointSigned (part : Fin 16)
  /-- CTX_ALLOC (R110): The command moves the lowest Unbound context of a partition and template to Reserved, or fails with CTX_EXHAUSTED. -/
  | ctxAlloc
  /-- GROUP_ALLOC (R111): The command allocates a named group ID or the lowest free one in a partition. -/
  | groupAlloc
  /-- GROUP_FREE (R111): The command releases a group ID unless it is in use or not allocated. -/
  | groupFree
  /-- CTX_COMMIT_GO (R113): A write of SCH_CTX_COMMIT.GO binds the context under its shadowed group, members, presence and epoch, or refuses with BIND_RSN. -/
  | ctxCommitGo (ctx : Fin 4096) (w : CtxBits)
  /-- CTX_ARM (R117): A write of SCH_CTX_CMD.ARM arms LAUNCHES launches of a Bound or Completed context. -/
  | ctxArm (ctx : Fin 4096) (w : CtxBits)
  /-- CTX_CANCEL (R118): A write of SCH_CTX_CMD.CANCEL moves an Armed context, or a context given ARM in the same tick, to Aborted without sending any frame. -/
  | ctxCancel (ctx : Fin 4096) (w : CtxBits)
  /-- CTX_ABORT (R119): A write of SCH_CTX_CMD.ABORT aborts the context unless completion wins in that tick. -/
  | ctxAbort (ctx : Fin 4096) (w : CtxBits)
  /-- CTX_UNBIND (R116): A write of SCH_CTX_CMD.UNBIND returns the context to Unbound, records the epoch end and frees its buffers and core state. -/
  | ctxUnbind (ctx : Fin 4096) (w : CtxBits)
  /-- LAUNCH_START (R117): A launch begins at its start count or after the previous launch, marking starts pending on bound cores; a late launch is deferred. -/
  | launchStart (ctx : Fin 4096)
  /-- ABORT_FRAME_RX (R119): An abort frame for a context and epoch arrives from a neighbour Y5 and acts as an ABORT with reason 0x3. -/
  | abortFrameRx (ctx : Fin 4096) (part : Fin 16) (epoch : Fin 16) (src : Fin 131072)
  /-- CTX_TIMEOUT (R138): SCH_CTX_TMO expires before the launch completes; CTX_TIMEOUT is raised once per launch. -/
  | ctxTimeout (ctx : Fin 4096)
  /-- RESULT_REORDER_RELEASE (R133): A result frame held in the reorder reserve reaches its turn and is committed to its output queue. -/
  | resultReorderRelease (port : Fin 256)
  /-- EPOCH_CORRECTION (R141): At the last count of an epoch, a pending forward or backward correction of the schedule counter is applied. -/
  | epochCorrection
  /-- SYNC_IN_PULSE (R146): A SCHED_SYNC_IN pulse arrives; it may load the counter, measure phi or lock the counter, and an early pulse is ignored. -/
  | syncInPulse (frac : Fin 16)
  /-- SCH_LOAD_ARM (R147): A write of SCH_LOAD_CMD.ARM arms a load of SCH_LOAD at the next pulse on a ROOT or PULSE Y5 in FREE. -/
  | schLoadArm
  /-- TIME_REQ_SEND (R148): At count k x 2^20 + 2^19, a LINK Y5 sends TIME_REQ on its active time parent port. -/
  | timeReqSend
  /-- TIME_REQ_RX (R148): A TIME_REQ arrives at the parent, which answers with a timestamped TIME_RSP. -/
  | timeReqRx (port : Fin 256) (payload : List (BitVec 8)) (time : Nat)
  /-- TIME_RSP_RX (R149): A TIME_RSP arrives; the child computes theta and the path delay and steps its counter state machine. -/
  | timeRspRx (port : Fin 256) (payload : List (BitVec 8)) (time : Nat)
  /-- EXCHANGE_MISSED (R148): The deadline of an exchange passes without a valid TIME_RSP, and the missed count advances, possibly losing the parent. -/
  | exchangeMissed
  /-- SYNC_IN_LOST (R151): No SCHED_SYNC_IN pulse arrives within 2^21 tk of the previous one, and the source is lost. -/
  | syncInLost
  /-- SYNC_DRIFT (R150): The Y5 has been in HOLDOVER for HOLD_EPOCHS epochs, and SYNC_DRIFT is raised. -/
  | syncDrift
  /-- SLOT_START (R161): A class 7 slot reaches its first tick at the current lag and sends its ready frames, or pauses the slice's slot clock. -/
  | slotStart (port : Fin 256) (entry : Fin 128)
  /-- SLOT_SPAN_END (R161): The slot span of a round ends, and the next round starts with the lag reduced by the guard band. -/
  | slotSpanEnd (slice : Fin 16)
  /-- SCHED_SLIP (R162): The running lag exceeds G x (C - RUN); SCHED_SLIP is raised and the late contexts are released or aborted. -/
  | schedSlip (slice : Fin 16)
  /-- CORE_START (R183): An IDLE core takes the earliest pending start, initialises its registers over 4 cycles and issues at ENTRY. -/
  | coreStart (core : Fin 512)
  /-- BUNDLE_ISSUE (R194): A bundle is fetched and issued, with faults at issue, breakpoints and idle cycles. -/
  | bundleIssue (core : Fin 512)
  /-- DRAIN_POINT_ISSUE (R176): A waiting SWAIT or END issues once earlier operations and its stream condition are complete. -/
  | drainPointIssue (core : Fin 512)
  /-- FADD (R205): The operation adds elements with one rounding to nearest even in the named format. -/
  | fadd (at_ : IssueAt) (f : VForm)
  /-- FSUB (R205): The operation subtracts elements with one rounding to nearest even. -/
  | fsub (at_ : IssueAt) (f : VForm)
  /-- FMUL (R205): The operation is the FP32 product step. -/
  | fmul (at_ : IssueAt) (f : VForm)
  /-- FMIN (R205): The operation takes the minimum by the MIN rules. -/
  | fmin (at_ : IssueAt) (f : VForm)
  /-- FMAX (R205): The operation takes the maximum by the MAX rules. -/
  | fmax (at_ : IssueAt) (f : VForm)
  /-- FDIV (R205): The operation performs a correctly rounded FP32 divide in the divide unit. -/
  | fdiv (at_ : IssueAt) (f : VForm)
  /-- FSQRT (R205): The operation performs a correctly rounded FP32 square root in the divide unit. -/
  | fsqrt (at_ : IssueAt) (f : VForm)
  /-- FCVT (R209): The operation converts elements between formats along the paths of R72 under MODE.RND. -/
  | fcvt (at_ : IssueAt) (f : VForm)
  /-- UNPK (R211): The operation converts FP6 or FP4 elements exactly to E4M3. -/
  | unpk (at_ : IssueAt) (f : VForm)
  /-- IADD (R206): The operation adds integers modulo the element width. -/
  | iadd (at_ : IssueAt) (f : VForm)
  /-- ISUB (R206): The operation subtracts integers modulo the element width. -/
  | isub (at_ : IssueAt) (f : VForm)
  /-- IMIN (R206): The operation takes the integer minimum, signed or unsigned. -/
  | imin (at_ : IssueAt) (f : VForm)
  /-- IMAX (R206): The operation takes the integer maximum, signed or unsigned. -/
  | imax (at_ : IssueAt) (f : VForm)
  /-- AND (R206): The operation forms the vector bitwise and. -/
  | vand (at_ : IssueAt) (f : VForm)
  /-- OR (R206): The operation forms the vector bitwise or. -/
  | vor (at_ : IssueAt) (f : VForm)
  /-- XOR (R206): The operation forms the vector bitwise exclusive or. -/
  | vxor (at_ : IssueAt) (f : VForm)
  /-- MOV (R206): The operation copies a vector register. -/
  | mov (at_ : IssueAt) (f : VForm)
  /-- BCAST (R206): The operation writes a scalar to every written lane. -/
  | bcast (at_ : IssueAt) (f : VForm)
  /-- PADD (R214): The operation adds Phlox integers with hold bits and saturation. -/
  | padd (at_ : IssueAt) (f : VForm)
  /-- PHLOX_EXP (R212): The operation writes the contribution exponents of each span to a scalar register. -/
  | phloxExp (at_ : IssueAt) (f : VForm)
  /-- PHLOX_CVT (R213): The operation converts spans to Phlox, writing one register every 8 cycles. -/
  | phloxCvt (at_ : IssueAt) (f : VForm)
  /-- PHLOX_NORM (R215): The operation rounds a Phlox block once to the result format, with an optional result scale. -/
  | phloxNorm (at_ : IssueAt) (f : VForm)
  /-- DOT_BLK16 (R218): The operation computes 64 dot products over 16-element blocks into FP32. -/
  | dotBlk16 (at_ : IssueAt) (f : DForm)
  /-- DOT_BLK32 (R218): The operation computes 64 dot products over 32-element blocks into FP32. -/
  | dotBlk32 (at_ : IssueAt) (f : DForm)
  /-- DOTP_BLK16 (R218): The operation computes 64 dot products over 16-element blocks into Phlox. -/
  | dotpBlk16 (at_ : IssueAt) (f : DForm)
  /-- DOTP_BLK32 (R218): The operation computes 64 dot products over 32-element blocks into Phlox. -/
  | dotpBlk32 (at_ : IssueAt) (f : DForm)
  /-- LD_V (R219): The operation loads bytes from the data region into a vector register. -/
  | ldV (at_ : IssueAt) (f : MForm)
  /-- ST_V (R219): The operation stores bytes of a vector register to the data region. -/
  | stV (at_ : IssueAt) (f : MForm)
  /-- LD_S (R219): The operation loads and zero-extends bytes into a scalar register. -/
  | ldS (at_ : IssueAt) (f : MForm)
  /-- ST_S (R219): The operation stores the low bytes of a scalar register. -/
  | stS (at_ : IssueAt) (f : MForm)
  /-- SSTART (R220): The operation checks a stream descriptor and starts an engine. -/
  | sstart (at_ : IssueAt) (f : StartForm)
  /-- SWAIT (R221): The operation waits at a drain point for an engine's COUNT to reach N. -/
  | swait (at_ : IssueAt) (f : WaitForm)
  /-- SREL (R222): The operation raises an engine's REL to release or ready tiles. -/
  | srel (at_ : IssueAt) (f : WaitForm)
  /-- END (R223): The operation ends the program once earlier work and outbound engines are finished. -/
  | endOp (at_ : IssueAt) (f : ZForm)
  /-- ADD (R224): The operation performs a scalar add modulo 2^64. -/
  | sadd (at_ : IssueAt) (f : RForm)
  /-- SUB (R224): The operation performs a scalar subtract modulo 2^64. -/
  | ssub (at_ : IssueAt) (f : RForm)
  /-- MUL (R224): The operation forms the low 64 bits of a scalar multiply. -/
  | smul (at_ : IssueAt) (f : RForm)
  /-- AND_S (R224): The operation forms the scalar bitwise and. -/
  | sand (at_ : IssueAt) (f : RForm)
  /-- OR_S (R224): The operation forms the scalar bitwise or. -/
  | sor (at_ : IssueAt) (f : RForm)
  /-- XOR_S (R224): The operation forms the scalar bitwise exclusive or. -/
  | sxor (at_ : IssueAt) (f : RForm)
  /-- SHL (R224): The operation shifts a scalar left. -/
  | shl (at_ : IssueAt) (f : RForm)
  /-- SHR (R224): The operation shifts a scalar right logically. -/
  | shr (at_ : IssueAt) (f : RForm)
  /-- SRA (R224): The operation shifts a scalar right arithmetically. -/
  | sra (at_ : IssueAt) (f : RForm)
  /-- MOVI (R224): The operation writes a signed immediate to a scalar register. -/
  | movi (at_ : IssueAt) (f : JForm)
  /-- AADD (R224): The operation adds to an address register modulo 2^32. -/
  | aadd (at_ : IssueAt) (f : RForm)
  /-- MOVA (R224): The operation copies a scalar to an address register. -/
  | mova (at_ : IssueAt) (f : RForm)
  /-- MOVS (R224): The operation copies an address register to a scalar register. -/
  | movs (at_ : IssueAt) (f : RForm)
  /-- PSET (R224): The operation writes a scalar to a predicate register. -/
  | pset (at_ : IssueAt) (f : RForm)
  /-- BR (R225): The operation branches on a condition of a scalar. -/
  | br (at_ : IssueAt) (f : BForm)
  /-- LOOP (R225): The operation decrements a scalar and branches while it is not 0. -/
  | loop (at_ : IssueAt) (f : BForm)
  /-- SE_TILE_WRITE (R180): An inbound stream engine writes a waiting tile into its ring slot once room exists, and frees the frame after its last tile. -/
  | seTileWrite (n : Fin 512) (k : Fin 4)
  /-- SE_FRAME_QUEUE (R179): An outbound stream engine packs ready tiles into a frame and queues it once the launch, buffers and rate tokens allow. -/
  | seFrameQueue (n : Fin 512) (k : Fin 4)
  /-- HALT_REQ (R187): A write of RCn_CTRL.HALT_REQ requests a halt at the next bundle boundary. -/
  | haltReq (core : Fin 512)
  /-- CORE_HALT (R226): A core enters HALTED once every issued operation has written, and records the halt report. -/
  | coreHalt (core : Fin 512)
  /-- RESUME (R189): A write of RCn_CTRL.RESUME restarts a core halted for a cause other than FAULT. -/
  | resume (core : Fin 512)
  /-- STEP (R189): A write of RCn_CTRL.STEP issues one bundle from HALTED and halts again. -/
  | stepCore (core : Fin 512)
  /-- RC_REGFILE_WRITE (R191): A write to a core register through the RCn block takes effect only in HALTED under the debug state. -/
  | rcRegfileWrite (n : Fin 512) (off : BitVec 16) (value : BitVec 64)
  /-- SRAM_WINDOW_WRITE (R168): A chip-window write to core SRAM takes effect in the data region, or is ignored in the code region or the live parameter block. -/
  | sramWindowWrite (n : Fin 512) (addr : BitVec 19) (words : List (BitVec 32))
  /-- FRAME_RX (R229): A frame received whole on a port is checked in order, metered, routed and admitted to its output copies, or discarded. -/
  | frameRx (port : Fin 256) (raw : List (BitVec 8)) (errored : Bool) (time : Nat)
  /-- ORIG_ADMIT (R238): A waiting request for buffers by an originated frame is admitted once ORIG_RSV and FREE allow. -/
  | origAdmit (slice : Fin 16)
  /-- POINTER_HANDOVER (R243): The pool manager hands over up to 4 pointers in the fixed service order, and copies start on the write port. -/
  | pointerHandover (slice : Fin 16)
  /-- COPY_COMMIT (R230): A copy's last byte is written and its descriptor appended to the output queue, with marking and digest hashing. -/
  | copyCommit (slice : Fin 16) (second : Bool)
  /-- CACHE_REFILL (R242): Pointers read from the free ring arrive in the pool cache and serve waiting requests. -/
  | cacheRefill (slice : Fin 16) (pool : Fin 17)
  /-- AUDIT (R246): At each audit count, the auditor takes an atomic snapshot of every pool's buffers. -/
  | audit (slice : Fin 16)
  /-- AUDIT_WRITE (R246): 64 tk after the snapshot, DEFICIT is written and BUF_LEAK is raised if it is not 0. -/
  | auditWrite (slice : Fin 16)
  /-- RECLAIM (R247): A write of SLCn_POOLi_CMD.RECLAIM rebuilds an empty pool or is refused. -/
  | reclaim (slice : Fin 16) (pool : Fin 17)
  /-- SLICE_EMPTY (R250): A DRAINING slice becomes empty and goes DOWN early, entering its sleep state. -/
  | sliceEmpty (n : Fin 16)
  /-- DRAIN_DEADLINE (R251): The drain timer expires; for S2 and S3 every frame left in the slice is dropped, cores are forced to halt, and the slice goes DOWN. -/
  | drainDeadline (n : Fin 16)
  /-- ECHO_Y5_RX (R270): An ECHO_Y5 frame for a context and its current epoch lowers the context's rate limiter. -/
  | echoY5Rx (n : Fin 16) (part : Fin 16) (payload : List (BitVec 8))
  /-- ECHO_WINDOW_END (R268): At the end of each 1,024 tk window, the Y5 sends the coalesced echoes it owes. -/
  | echoWindowEnd
  /-- RATE_RECOVERY (R270): At each multiple of 8,192 tk with no echo taken since the last, each context limiter rate is raised. -/
  | rateRecovery
  /-- NBR_MASK_WRITE (R271): A write of SLCn_NBRMd_v.MASK is copied to every slice within 64 tk. -/
  | nbrMaskWrite (dim : Fin 3) (coord : Fin 16) (mask : Fin 256)
  /-- FLUSH (R273): A write of SLCn_RT_CMD.FLUSH invalidates every flowlet table and sets FLUSH_BUSY. -/
  | flush (slice : Fin 16)
  /-- FLUSH_DONE (R273): No copy committed before the FLUSH remains on a masked port, and FLUSH_BUSY returns to 0. -/
  | flushDone
  /-- TAG_TIMEOUT (R340): Twice the fabric lifetime after a REQ was accepted, its tag is released. -/
  | tagTimeout (port : Fin 256) (tag : Fin 4096)
  /-- FRAME_TX_START (R275): A free port starts a retransmission, a class 7 slot frame, a link-local frame or the scheduler's choice, charging shapers. -/
  | frameTxStart (port : Fin 256)
  /-- TOKEN_REFILL (R281): At every multiple of 64 tk, shapers and policers refill, and committed shaper shadows take effect. -/
  | tokenRefill
  /-- SHP_COMMIT (R282): A write of SLCn_SHP_COMMIT.GO commits the slice's shaper shadows for the next refill. -/
  | shpCommit (slice : Fin 16)
  /-- QUEUE_SAMPLE (R287): At every multiple of 1,024 tk, every queue's depth and head-of-line delay are sampled. -/
  | queueSample
  /-- CLEAR_MAX (R287): A write of SLCn_QSAMP_CMD.CLEAR_MAX clears every SLCn_QMAXq of the slice. -/
  | clearMax (slice : Fin 16)
  /-- LASER_POLL (R292): Every 10 ms the Y5 polls each laser module and updates output readiness and lane light. -/
  | laserPoll (slice : Fin 16) (poll : LaserPoll)
  /-- CODEWORD_RX (R302): A codeword header and payload arrive on a lane, driving lane lock, FEC correction, alignment markers and mode switches. -/
  | codewordRx (lane : Fin 512) (codeword : Codeword)
  /-- ALIGN_TIMEOUT (R305): ALIGN_TMO expires, and the port goes to HELLO with its locked lanes or to DOWN_HOLD. -/
  | alignTimeout (port : Fin 256)
  /-- HELLO_TIMEOUT (R305): No valid hello arrives within 1 ms in HELLO, and the port goes to DOWN_HOLD. -/
  | helloTimeout (port : Fin 256)
  /-- KEEPALIVE_LOSS (R305): Four keepalive hellos are missed in UP, and the port goes to DOWN_HOLD. -/
  | keepaliveLoss (port : Fin 256)
  /-- RETRAIN_TIMEOUT (R305): RETRAIN_TMO expires before the retrain completes, and the port goes to DOWN_HOLD. -/
  | retrainTimeout (port : Fin 256)
  /-- HOLD_EXPIRY (R305): The DOWN_HOLD time expires, and the port re-enters ALIGN. -/
  | holdExpiry (port : Fin 256)
  /-- HELLO_SEND (R307): The hello interval expires or a flag changes, and the port sends a hello. -/
  | helloSend (port : Fin 256)
  /-- HELLO_RX (R311): A valid hello is received; the port checks identity, measures RTT and advances bring-up, FEC, width or loop negotiation. -/
  | helloRx (port : Fin 256) (payload : List (BitVec 8)) (time : Nat)
  /-- PORT_EN_WRITE (R305): A write of SLCn_PORTj_CTRL.EN disables or enables a port. -/
  | portEnWrite (slice : Fin 16) (j : Fin 16) (en : Bool)
  /-- PORT_RETRAIN (R314): A write of SLCn_PORTj_CTRL.RETRAIN starts a retrain, or sends a QUARANTINED port to DOWN_HOLD. -/
  | portRetrain (slice : Fin 16) (j : Fin 16)
  /-- PORT_LOCATE (R324): A write of SLCn_PORTj_CTRL.LOCATE sets or clears the LOCATE indication of a port. -/
  | portLocate (slice : Fin 16) (j : Fin 16) (on : Bool)
  /-- PORT_TEST_WRITE (R318): A write of SLCn_PORTj_TEST.MODE enters or leaves a test loop. -/
  | portTestWrite (slice : Fin 16) (j : Fin 16) (mode : Fin 4)
  /-- LOOP_REFUSED (R319): A far-end loop request is not accepted within 1 ms, and LOOP_REFUSED is reported. -/
  | loopRefused (port : Fin 256)
  /-- FREQ_WINDOW (R321): At the end of each 1 ms window, a fabric port reports the partner's frequency offset and may raise REF_MISMATCH. -/
  | freqWindow (port : Fin 256) (ppb : BitVec 24)
  /-- LSR_CTRL_WRITE (R291): A write of SLCn_LSR_CTRL drives the laser module enable and output enables. -/
  | lsrCtrlWrite (slice : Fin 16) (en : Bool) (outEn : BitVec 8)
  /-- LED_FRAME (R323): Every 10 ms the Y5 shifts out a 528-bit LED frame and latches it. -/
  | ledFrame
  /-- SERVICE_PRESS (R475): A debounced SERVICE_N press ends; a short press sets LOCATE on every port. -/
  | servicePress (ms : Nat)
  /-- LOCATE_EXPIRY (R324): 60 s after a short SERVICE_N press, LOCATE on every port ends. -/
  | locateExpiry
  /-- ACK_RX (R338): An ACK or any header's ACKSEQ frees the buffers of every acknowledged frame. -/
  | ackRx (port : Fin 256) (ackseq : BitVec 16)
  /-- ACK_SEND (R338): ACK_INT passes with an unacknowledged frame and nothing sent, and the receiver sends an ACK. -/
  | ackSend (port : Fin 256)
  /-- NACK_RX (R339): A NACK arrives, and the transmitter frees up to ACKSEQ and retransmits from ACKSEQ + 1. -/
  | nackRx (port : Fin 256) (ackseq : BitVec 16) (frame : Bool)
  /-- RETRY_TIMEOUT (R339): No ACKSEQ advance arrives for RTT + 2 x t_frame + 64 tk, and the transmitter retransmits from the oldest frame. -/
  | retryTimeout (port : Fin 256)
  /-- RETRY_EPISODE_EXPIRY (R339): A retry episode lasts beyond T_retry, and the receiver requests a retrain. -/
  | retryEpisodeExpiry (port : Fin 256)
  /-- CREDIT_RX (R334): A CREDIT frame updates the transmitter's GRANTED counts. -/
  | creditRx (port : Fin 256) (payload : List (BitVec 8))
  /-- CREDIT_SEND (R334): Every 10 µs, or within 64 tk of a change, a receiver sends a CREDIT frame. -/
  | creditSend (port : Fin 256) (all : Bool)
  /-- IMG_BEGIN (R353): The command starts loading a package into EMPTY staging and records the requester. -/
  | imgBegin
  /-- IMG_CHUNK (R353): The command writes package bytes into the staging and marks the blocks covered. -/
  | imgChunk
  /-- IMG_VALIDATE (R354): The command starts validation of the staged package. -/
  | imgValidate
  /-- VALIDATION_DONE (R354): Validation ends, and the staging goes to VALID or INVALID with a status. -/
  | validationDone
  /-- IMG_STORE (R360): The command writes the committed package set to flash as background work. -/
  | imgStore
  /-- DISCARD (R352): A write of CFG_STAGE_CTRL.DISCARD returns the staging to EMPTY. -/
  | discard
  /-- COMMIT_ARM (R356): A write of CFG_COMMIT_CTRL.ARM arms a commit at CFG_COMMIT_AT, or is refused as late. -/
  | commitArm (value : BitVec 32)
  /-- COMMIT_NOW (R356): A write of CFG_COMMIT_CTRL.NOW arms a commit for the next tick. -/
  | commitNow (value : BitVec 32)
  /-- COMMIT_CANCEL (R356): A write of CFG_COMMIT_CTRL.CANCEL disarms the commit and returns the staging to VALID. -/
  | commitCancel (value : BitVec 32)
  /-- IMAGE_COMMIT (R357): At the commit count, the commit checks run and the staged parts are applied to every unit in one tick, or the commit fails. -/
  | imageCommit
  /-- BOOT_IMAGE_LOAD (R360): After reset, boot firmware loads, validates and commits the stored package, or raises CFG_BOOT_IMAGE. -/
  | bootImageLoad
  /-- SQ_TAIL_WRITE (R366): A write of MGT_SQq_TAIL makes new command packets available in a submission ring. -/
  | sqTailWrite (q : Fin 8) (tail : BitVec 16) (slots : List (List (BitVec 8)))
  /-- CQ_HEAD_WRITE (R367): A write of MGT_CQq_HEAD frees completion slots and lets held commands be taken. -/
  | cqHeadWrite (q : Fin 8) (head : BitVec 16)
  /-- QP_EN_WRITE (R366): A write of MGT_QPq_CTRL.EN enables or resets a queue pair. -/
  | qpEnWrite (q : Fin 8) (value : BitVec 32)
  /-- COMMAND_TAKE (R381): The command engine takes a ready packet in order and makes the header, admission, trailer and permission checks. -/
  | commandTake
  /-- CMD_RX (R375): A CMD frame is committed to the command input as an in-band command. -/
  | cmdRx (port : Fin 256) (src : Fin 131072) (payload : List (BitVec 8))
  /-- NOP (R371): The command does nothing and returns OK. -/
  | nop
  /-- REG_READ (R372): The command reads a range of registers or SRAM from one tick. -/
  | regRead
  /-- REG_WRITE (R372): The command writes a range of registers or SRAM in ascending address. -/
  | regWrite
  /-- FORWARD_COMMAND (R379): A command for another chip of the board is given a forwarding entry and sent as a CMD frame. -/
  | forwardCommand
  /-- FWD_RESPONSE (R379): A target's response arrives; FWD is restored, the response is delivered and the entry is freed. -/
  | fwdResponse (payload : List (BitVec 8))
  /-- FWD_TIMEOUT (R379): No response arrives within MGT_FWD_CFG.TMO, and the Y5 answers FWD_TIMEOUT. -/
  | fwdTimeout (entry : Fin 1024)
  /-- PERST (R368): PERST_N or the host link leaving L0 resets the host-port MGT registers and disables the queue pairs. -/
  | perst
  /-- SPDM_MSG (R392): The command carries an in-band SPDM message and returns the SPDM response. -/
  | spdmMsg
  /-- SPDM_VDM_RX (R392): An SPDM message arrives over MCTP on the host port and is answered. -/
  | spdmVdmRx (message : List (BitVec 8))
  /-- SEC_REPORT (R394): The command returns the signed security report for a nonce. -/
  | secReport
  /-- SEC_OPKEY (R391): The command fuses, installs or revokes an operator key slot. -/
  | secOpkey
  /-- DEBUG_SET (R400): The command changes a partition's debug state. -/
  | debugSet
  /-- PART_REMOVE (R402): The command starts removal of a partition, which goes to QUIESCING and then DRAINING. -/
  | partRemove
  /-- REMOVAL_DRAINED (R403): A DRAINING partition has no active context and an empty Marigold queue, and goes to RETIRING. -/
  | removalDrained (p : Fin 16)
  /-- REMOVAL_DEADLINE (R403): The removal deadline expires; active contexts are aborted, entries discarded, and the partition goes to RETIRING. -/
  | removalDeadline (p : Fin 16)
  /-- RETIRING_DONE (R403): Every port has retired the partition's keys and dropped its copies, and zeroisation begins. -/
  | retiringDone (p : Fin 16)
  /-- ZEROISE_DONE (R403): Zeroisation completes; the partition becomes UNDEFINED and the removal responds OK. -/
  | zeroiseDone (p : Fin 16)
  /-- LINK_REKEY (R398): The command starts a rekey of a partition's link key on a port. -/
  | linkRekey
  /-- REKEY_REQ_RX (R398): A REKEY_REQ installs the next epoch as NEXT and is answered with REKEY_ACK. -/
  | rekeyReqRx (x : Fin 256) (p : Fin 16) (gen : BitVec 32)
  /-- REKEY_ACK_RX (R398): A REKEY_ACK switches the transmitter to the new epoch and erases the old key. -/
  | rekeyAckRx (x : Fin 256) (p : Fin 16) (gen : BitVec 32)
  /-- LINK_SESSION_RETRY (R395): 100 ms after a failed link session, the session is retried. -/
  | linkSessionRetry (x : Fin 256)
  /-- FAULT_RAISE (R407): A raise reaches the fault collector and is recorded, queued and acted on at its severity. -/
  | faultRaise (fault : FaultOp)
  /-- FC_STAT_CLEAR (R411): A write of 1 to an FC_STAT bit releases the source, or re-raises it while its cause persists. -/
  | fcStatClear (mask : BitVec 64)
  /-- SAFE_EXIT (R413): A write of FC_SAFE.EXIT leaves the safe state unless a severity-3 source is set. -/
  | safeExit
  /-- SEV_WRITE (R409): A write of FC_SEVk changes source severities from the next tick. -/
  | sevWrite (k : Fin 4) (value : BitVec 32)
  /-- FC_ERR_WRITE (R415): A write of FC_ERR changes ERR_MIN, HOLD or PULSE, releasing or asserting ERR_N. -/
  | fcErrWrite (value : BitVec 32)
  /-- ERR_PULSE_END (R415): The ERR_N pulse time expires, and ERR_N is released unless HOLD is 1 or the device is safe. -/
  | errPulseEnd
  /-- FC_INJ_GO (R419): A write of FC_INJ.GO arms a fault injection into the next check of a checker. -/
  | fcInjGo (value : BitVec 32)
  /-- EVT_READ (R418): The command returns the oldest event entries without removing them. -/
  | evtRead
  /-- EVT_ACK (R418): The command removes every event entry up to a SEQ. -/
  | evtAck
  /-- TEL_SNAPSHOT (R420): The command requests a snapshot of selected slices. -/
  | telSnapshot
  /-- SNAPSHOT_CAPTURE (R420): At the next multiple of 1,024 tk, the requested counters are captured into the snapshot buffer and the response is sent. -/
  | snapshotCapture
  /-- TEL_READ (R420): The command returns bytes of the snapshot. -/
  | telRead
  /-- VIN_POWER_UP (R422): VIN_12V rises through 10.8 V; the supervisor starts and a power-on reset begins the rail sequence. -/
  | vinPowerUp (volt : BitVec 16)
  /-- VIN_POWER_DOWN (R469): VIN_12V falls below 10.2 V, and every rail turns off without sequencing. -/
  | vinPowerDown (volt : BitVec 16)
  /-- RAIL_UP (R424): A rail reaches 90 % of its voltage, and the next rail is started 50 µs later. -/
  | railUp (r : Fin 39) (m : RailOp)
  /-- RAIL_WINDOW_MISS (R425): A rail does not reach 90 % within its start window, and the sequence aborts. -/
  | railWindowMiss (r : Fin 39)
  /-- RAIL_TRIP (R426): A rail exceeds its current limit for 2 µs or falls below 90 %, and it is latched off. -/
  | railTrip (r : Fin 39) (current : Bool)
  /-- PLL_LOCK (R472): The management PLL locks; SEQ goes to ON and the MP is released to the boot ROM, or lock is retried every 1 ms. -/
  | pllLock (locked : Bool)
  /-- SMBUS_REG_READ (R427): The SMBus command reads a PWR register, or selected GLB and FC registers. -/
  | smbusRegRead (off : BitVec 32) (pec : Bool)
  /-- SMBUS_REG_WRITE (R427): The SMBus command writes the writable fields of a PWR register. -/
  | smbusRegWrite (off : BitVec 32) (data : List (BitVec 8)) (pec : Bool)
  /-- RAIL_CLEAR (R427): The SMBus command clears a rail latch, starting a power-on reset or sending the slice to S3. -/
  | railClear (r : BitVec 8) (pec : Bool)
  /-- POWER_CYCLE (R427): The SMBus command starts a power-on reset. -/
  | powerCycle (data : BitVec 8) (pec : Bool)
  /-- WARM_RESET (R427): The SMBus command starts a device warm reset. -/
  | warmReset (data : BitVec 8) (pec : Bool)
  /-- PWR_COMMIT (R428): A write of PWR_COMMIT.GO commits the slices' requested levels and sleep states, or refuses them with a reason. -/
  | pwrCommit (go : BitVec 16)
  /-- PLEVEL_SWITCH (R429): A slice's core clock switches level at a reference edge, after voltage settling when the level rises. -/
  | plevelSwitch (n : Fin 16) (settled : BitVec 64)
  /-- CAP_LOWER (R430): Every 100 µs while the average power exceeds LIMIT, one slice's cap limit is lowered by one level. -/
  | capLower (vin : VinOp)
  /-- FAST_TRIP (R430): Instantaneous power above LIMIT + 60 W for 10 µs sets every awake slice's cap limit to P3. -/
  | fastTrip (vin : VinOp)
  /-- CAP_RAISE (R430): Every 1 ms after 10 ms below LIMIT - HYST, one slice's cap limit is raised by one level. -/
  | capRaise (vin : VinOp)
  /-- THERM_SAMPLE (R431): A junction sensor reading throttles, trips or shuts down the device by temperature. -/
  | thermSample (n : Fin 16) (temp : BitVec 8)
  /-- SLICE_WAKE (R433): A slice's wake slot starts and its rails, eDRAM, isolation, clocks and pools come up in the fixed order. -/
  | sliceWake (n : Fin 16)
  /-- WAKE_COMPLETE (R433): The last wake step passes, and the slice becomes AWAKE with its ports entering WAIT_LIGHT. -/
  | wakeComplete (n : Fin 16)
  /-- STANDBY_REQ (R435): A write of PWR_STANDBY.REQ enters device standby when every slice is in S3, or is refused. -/
  | standbyReq (value : BitVec 32)
  /-- STANDBY_EXIT (R435): A write of PWR_STANDBY.EXIT restores the rails and leaves standby. -/
  | standbyExit (value : BitVec 32)
  /-- BROWNOUT (R436): The standby current limit is held for 50 µs; the rails turn off and a power-on reset follows 10 ms later. -/
  | brownout
  /-- REFCLK_LOSS (R438): Reference edges are absent for 1 µs or a PLL loses lock; PWR_CLOCK is raised and the islands stop. -/
  | refclkLoss (pll : Bool)
  /-- REFCLK_RETURN (R438): The reference returns, and the counter continues from its held value. -/
  | refclkReturn
  /-- RST_CMD_WARM (R439): A keyed write of PWR_RST_CMD.WARM schedules a device warm reset 100 µs later. -/
  | rstCmdWarm (value : BitVec 32)
  /-- RST_CMD_MP (R439): A keyed write of PWR_RST_CMD.MP schedules an MP reset 100 µs later. -/
  | rstCmdMp (value : BitVec 32)
  /-- RST_CMD_SLICE (R439): A keyed write of PWR_RST_CMD.SLICE schedules slice resets 100 µs later. -/
  | rstCmdSlice (value : BitVec 32)
  /-- POWER_ON_RESET (R439): All rails turn off and restart, resetting every register except the supervisor's. -/
  | powerOnReset
  /-- DEVICE_WARM_RESET (R439): All logic except the supervisor resets, slices go to S3, the image empties and the MP boots. -/
  | deviceWarmReset
  /-- SLICE_RESET (R439): A slice's logic, ports, pools and cores reset, and its contexts are aborted. -/
  | sliceReset (n : Fin 16)
  /-- MP_RESET (R441): Only the MP resets, and the data plane runs on. -/
  | mpReset
  /-- WDT_KICK (R442): A write of PWR_WDT.KICK restarts the watchdog. -/
  | wdtKick
  /-- WDT_EXPIRY (R442): The watchdog expires; PWR_WDT is raised and an MP reset follows. -/
  | wdtExpiry
  /-- ROM_BOOT (R449): The boot ROM counts failed boots, installs staging, verifies a slot and jumps to firmware or enters recovery. -/
  | romBoot (service : Bool)
  /-- HEALTH_CONFIRM (R451): Firmware's write of GLB_BOOT_CTRL.HEALTH_CONFIRM starts the hardware directory write confirming the boot. -/
  | healthConfirm
  /-- CONFIRM_WRITE_DONE (R451): The confirming directory write completes, and CONFIRMED reads 1. -/
  | confirmWriteDone
  /-- CONFIRM_TIMER_EXPIRY (R452): 600 s pass without confirmation, and EXPIRED is set. -/
  | confirmTimerExpiry
  /-- REC_INFO (R453): The recovery command returns the directory copy and GLB_BOOT_STAT. -/
  | recInfo
  /-- REC_CHUNK (R453): The recovery command writes image bytes into the SRAM buffer. -/
  | recChunk
  /-- REC_INSTALL (R453): The recovery command verifies the buffer and writes it to a slot as ACTIVE. -/
  | recInstall
  /-- REC_EXIT (R453): The recovery command restarts the ROM at its directory step. -/
  | recExit
  /-- FW_BEGIN (R457): The command starts a firmware transfer into the staging, or reports it already held. -/
  | fwBegin
  /-- FW_CHUNK (R457): The command writes firmware bytes into flash staging. -/
  | fwChunk
  /-- FW_END (R457): The command checks coverage and the transfer digest and makes the staging COMPLETE. -/
  | fwEnd
  /-- FW_RELAY (R460): The command starts the relay or restarts its FAILED entries. -/
  | fwRelay
  /-- FW_DISCARD (R457): The command stops any relay and empties the staging. -/
  | fwDiscard
  /-- FW_SVN_COMMIT (R448): The command raises MIN_SVN to the running SVN. -/
  | fwSvnCommit
  /-- SETTINGS_READ (R456): The command returns the stored settings record. -/
  | settingsRead
  /-- SETTINGS_WRITE (R456): The command writes a settings record of the firmware's format. -/
  | settingsWrite
  /-- RELAY_RESPONSE (R460): A downstream answers a relay command, and the relay sends the next command or moves to the next entry. -/
  | relayResponse (payload : List (BitVec 8))
  /-- RELAY_RETRY (R460): 10 s after a refusal or timeout, the relay retries a downstream from FW_BEGIN. -/
  | relayRetry
  /-- SLICE_DRAIN_START (R432): At the count AT of a committed S1, S2 or S3, the slice leaves AWAKE for DRAINING and starts its drain timer. -/
  | sliceDrainStart (n : Fin 16)
  /-- STANDBY_ENTERED (R435): The standby rail sequence ends, and SEQ and GLB_STATUS.STANDBY show standby. -/
  | standbyEntered
  /-- HOST_LINK_UP (R363): The host PCIe link trains to L0 after PERST_N release, and LINK_UP, WIDTH and SPEED are reported. -/
  | hostLinkUp (width : BitVec 4) (speed : BitVec 3)
  /-- TAP_ACCESS (R401): A JTAG TAP access other than boundary scan sets SEC_DEBUG.JTAG_USED. -/
  | tapAccess
  /-- BACKGROUND_COMMAND_DONE (R381): The work of a background command ends, for example a flash program, erase or fuse write, and the command's response is written, possibly with FLASH_ERR. -/
  | backgroundCommandDone (index : BitVec 16) (ok : Bool)
  /-- FRAME_TX_END (R288): The last byte of a frame leaves its port, which becomes free, and TXF and TXB count the first transmission. -/
  | frameTxEnd (port : Fin 256)
  /-- CODE_REGION_RELOAD (R193): Firmware finishes loading the code region and zeroing the data region of a slice after S3 or slice reset, and its cores leave OFF for IDLE. -/
  | codeRegionReload (n : Fin 16)
  deriving DecidableEq, Repr

end Sys2Proof
end

