-- ==== Sys2Proof/Decode.lean ====
section
/-! DEFINITION. The command that a word spells. spec/opcode_table.json gives no row any bits: the Y5 has no command word of
that kind. Command packets (R369) are bytes that COMMAND_TAKE takes (Machine/Cmd.lean), and the 128-bit bundles of a core
(R194) are decoded where they issue (Machine/Sequencer.lean). -/

namespace Sys2Proof

/-- No word spells a command. -/
def decodeTableWord (_nbits _w : Nat) : Option Instr := none

end Sys2Proof
end

