-- ==== Sys2Proof/Machine/Bits.lean ====
section
/-! DEFINITION. Bit fields, byte orders (R5, R6), saturating counts and sign extension. -/

namespace Sys2Proof.Machine

/-- Bits [lo + w - 1 : lo] of a number (R5). -/
def bitsOf (v lo w : Nat) : Nat := v / 2 ^ lo % 2 ^ w

/-- Bit `i` of a number. -/
def bitOf (v i : Nat) : Bool := v / 2 ^ i % 2 == 1

/-- 1 or 0. -/
def b2n (b : Bool) : Nat := if b then 1 else 0

/-- `v` with bits [lo + w - 1 : lo] replaced by the low bits of `x`. -/
def putBits (v lo w x : Nat) : Nat :=
  v - bitsOf v lo w * 2 ^ lo + x % 2 ^ w * 2 ^ lo

/-- Little-endian bytes of a number (R6). -/
def leBytes : (n v : Nat) → Bytes
  | 0, _ => []
  | n + 1, v => BitVec.ofNat 8 v :: leBytes n (v / 256)

/-- Big-endian bytes of a number (R6). -/
def beBytes (n v : Nat) : Bytes := (leBytes n v).reverse

/-- The number a little-endian byte string holds. -/
def leNat : Bytes → Nat
  | [] => 0
  | b :: bs => b.toNat + 256 * leNat bs

/-- The number a big-endian byte string holds. -/
def beNat (bs : Bytes) : Nat := leNat bs.reverse

/-- `n` bytes from offset `o`; positions past the end read as 0x00. -/
def slice (bs : Bytes) (o n : Nat) : Bytes :=
  let r := (bs.drop o).take n
  r ++ List.replicate (n - r.length) 0

/-- The little-endian number in `n` bytes at offset `o`. -/
def leAt (bs : Bytes) (o n : Nat) : Nat := leNat (slice bs o n)

/-- The signed value of the low `w` bits. -/
def signedOf (w v : Nat) : Int :=
  let u := v % 2 ^ w
  if 2 ^ w ≤ 2 * u then (u : Int) - (2 ^ w : Nat) else u

/-- Two's complement of an integer in `w` bits. -/
def unsignedOf (w : Nat) (i : Int) : Nat := (i % ((2 ^ w : Nat) : Int)).toNat

/-- A count that saturates at all ones of `w` bits. -/
def satAdd (w v n : Nat) : Nat := min (v + n) (2 ^ w - 1)

/-- A value replaced by the nearer bound of its range (R4). -/
def clampTo (lo hi v : Nat) : Nat := max lo (min v hi)

/-- Ceiling division. -/
def ceilDiv (a b : Nat) : Nat := (a + b - 1) / b

/-- The ASCII bytes of a string padded with 0x00 to `n` bytes. -/
def ascii (n : Nat) (t : String) : Bytes := slice (t.toList.map fun c => BitVec.ofNat 8 c.toNat) 0 n

/-- A list with its element at `i` replaced, unchanged when it has none. -/
def setAt {α : Type} (l : List α) (i : Nat) (a : α) : List α := l.set i a

end Sys2Proof.Machine
end

