-- ==== Sys2Proof/Machine/Arith.lean ====
section
/-! DEFINITION. Number formats and exact arithmetic (chapters 3 and 4): element formats R58, special values R61 to R63,
block scales R64 to R67, rounding R68 to R70, Phlox R74 to R79, the FP32 step R82, minimum and maximum R97, and the
dot product R99 to R105. Values are exact: NaN, an infinity, or sign, integer significand and exponent of two. -/

namespace Sys2Proof.Machine

/-- An exact value. `fin neg m e` is (-1)^neg * m * 2^e; m = 0 keeps the sign of a zero (R63). -/
inductive FV where
  | nan
  | inf (neg : Bool)
  | fin (neg : Bool) (m : Nat) (e : Int)
  deriving DecidableEq, Repr

/-- The nine element formats of R58. -/
inductive Fmt where
  | fp32 | bf16 | fp16 | e4m3 | e5m2 | e3m2 | e2m3 | e2m1 | int8
  deriving DecidableEq, Repr

/-- A context's rounding mode (R68); stochastic rounding carries its generator value (R70). -/
inductive Rnd where
  | rne
  | rtz
  | sr (r : Nat)
  deriving DecidableEq, Repr

namespace Fmt

/-- The format of a code 0x0 to 0x8 of SCH_CTX_CFG. -/
def ofCode : Nat → Fmt
  | 0 => fp32 | 1 => bf16 | 2 => fp16 | 3 => e4m3 | 4 => e5m2 | 5 => e3m2 | 6 => e2m3 | 7 => e2m1 | _ => int8

/-- Width in bits. -/
def width : Fmt → Nat
  | fp32 => 32 | bf16 => 16 | fp16 => 16 | e4m3 => 8 | e5m2 => 8 | e3m2 => 6 | e2m3 => 6 | e2m1 => 4 | int8 => 8

/-- Exponent field bits. -/
def eb : Fmt → Nat
  | fp32 => 8 | bf16 => 8 | fp16 => 5 | e4m3 => 4 | e5m2 => 5 | e3m2 => 3 | e2m3 => 2 | e2m1 => 2 | int8 => 0

/-- Mantissa field bits. -/
def mb : Fmt → Nat
  | fp32 => 23 | bf16 => 7 | fp16 => 10 | e4m3 => 3 | e5m2 => 2 | e3m2 => 2 | e2m3 => 3 | e2m1 => 1 | int8 => 0

/-- Exponent bias. -/
def bias : Fmt → Nat
  | fp32 => 127 | bf16 => 127 | fp16 => 15 | e4m3 => 7 | e5m2 => 15 | e3m2 => 3 | e2m3 => 1 | e2m1 => 1 | int8 => 0

/-- Encoding of the largest finite magnitude. -/
def maxFinite : Fmt → Nat
  | fp32 => 0x7F7FFFFF | bf16 => 0x7F7F | fp16 => 0x7BFF | e4m3 => 0x7E | e5m2 => 0x7B | e3m2 => 0x1F | e2m3 => 0x1F
  | e2m1 => 0x7 | int8 => 0x7F

/-- Whether the format holds infinities. -/
def hasInf : Fmt → Bool
  | fp32 | bf16 | fp16 | e5m2 => true
  | e4m3 | e3m2 | e2m3 | e2m1 | int8 => false

/-- Encoding of +infinity, where there is one. -/
def infBits : Fmt → Nat
  | fp32 => 0x7F800000 | bf16 => 0x7F80 | fp16 => 0x7C00 | e5m2 => 0x7C | e4m3 => 0x7E | e3m2 => 0x1F | e2m3 => 0x1F
  | e2m1 => 0x7 | int8 => 0x7F

/-- Canonical NaN, or the substitute 0 of R62. -/
def nanBits : Fmt → Nat
  | fp32 => 0x7FC00000 | bf16 => 0x7FC0 | fp16 => 0x7E00 | e4m3 => 0x7F | e5m2 => 0x7E | e3m2 => 0 | e2m3 => 0
  | e2m1 => 0 | int8 => 0

/-- emax of R67. -/
def emax : Fmt → Int
  | e4m3 => 8 | e5m2 => 15 | e3m2 => 4 | e2m3 => 2 | e2m1 => 2 | _ => 0

/-- The value of an unscaled element (R58). -/
def value (f : Fmt) (bits : Nat) : FV :=
  if f = int8 then
    let i := signedOf 8 bits
    .fin (decide (i < 0)) i.natAbs 0
  else
    let neg := bitOf bits (f.width - 1)
    let ex := bitsOf bits f.mb f.eb
    let m := bitsOf bits 0 f.mb
    let top := 2 ^ f.eb - 1
    if ex = top ∧ f.hasInf ∧ m = 0 then .inf neg
    else if ex = top ∧ f.hasInf then .nan
    else if f = e4m3 ∧ ex = top ∧ m = 7 then .nan
    else if ex = 0 then .fin neg m (1 - (f.bias : Int) - f.mb)
    else .fin neg (2 ^ f.mb + m) ((ex : Int) - f.bias - f.mb)

end Fmt

namespace FV

/-- x * 2^k, exact. -/
def shift (x : FV) (k : Int) : FV :=
  match x with
  | .fin n m e => .fin n m (e + k)
  | y => y

/-- The value with its sign inverted. -/
def negate : FV → FV
  | .nan => .nan
  | .inf n => .inf (!n)
  | .fin n m e => .fin (!n) m e

/-- The integer m * 2^e with its sign, at the exponent `q` not above e. -/
def toIntAt (q : Int) : FV → Int
  | .fin n m e => (if n then -1 else 1) * (m : Int) * (2 ^ (e - q).toNat : Nat)
  | _ => 0

/-- The exponent of the last place held. -/
def expo : FV → Int
  | .fin _ _ e => e
  | _ => 0

/-- An exact integer times 2^q; zero takes the sign given. -/
def ofInt (i : Int) (q : Int) (zeroNeg : Bool) : FV :=
  if i = 0 then .fin zeroNeg 0 q else .fin (decide (i < 0)) i.natAbs q

/-- Whether the value is zero. -/
def isZero : FV → Bool
  | .fin _ m _ => m == 0
  | _ => false

/-- The sign. -/
def isNeg : FV → Bool
  | .nan => false
  | .inf n => n
  | .fin n _ _ => n

/-- Whether the value is finite. -/
def isFin : FV → Bool
  | .fin _ _ _ => true
  | _ => false

/-- The exact sum, with the special results of R82: an exact zero is -0 only when both operands are -0. -/
def add (a b : FV) : FV :=
  match a, b with
  | .nan, _ => .nan
  | _, .nan => .nan
  | .inf s, .inf t => if s = t then .inf s else .nan
  | .inf s, _ => .inf s
  | _, .inf t => .inf t
  | .fin s m e, .fin t n d =>
    if m = 0 ∧ n = 0 then .fin (s && t) 0 (min e d)
    else
      let q := min e d
      ofInt (toIntAt q (.fin s m e) + toIntAt q (.fin t n d)) q false

/-- The exact product, with the special results of R82. -/
def mul (a b : FV) : FV :=
  match a, b with
  | .nan, _ => .nan
  | _, .nan => .nan
  | .inf s, .inf t => .inf (s != t)
  | .inf s, .fin t n _ => if n = 0 then .nan else .inf (s != t)
  | .fin s m _, .inf t => if m = 0 then .nan else .inf (s != t)
  | .fin s m e, .fin t n d => .fin (s != t) (m * n) (e + d)

/-- Floor of log2 of a non-zero finite magnitude. -/
def log2Floor : FV → Int
  | .fin _ m e => (m.log2 : Int) + e
  | _ => 0

/-- Ceiling of log2 of a non-zero finite magnitude. -/
def log2Ceil : FV → Int
  | .fin _ m e => (m.log2 : Int) + e + (if m = 2 ^ m.log2 then 0 else 1)
  | _ => 0

/-- Whether |a| < |b|, both finite. -/
def magLt (a b : FV) : Bool :=
  match a, b with
  | .fin _ m e, .fin _ n d =>
    let q := min e d
    decide (m * 2 ^ (e - q).toNat < n * 2 ^ (d - q).toNat)
  | _, _ => false

/-- Order by value, -0 below +0 (R97); NaN does not arise. -/
def lt (a b : FV) : Bool :=
  match a, b with
  | .nan, _ => false
  | _, .nan => false
  | .inf s, .inf t => s && !t
  | .inf s, _ => s
  | _, .inf t => !t
  | .fin s m e, .fin t n d =>
    if m = 0 ∧ n = 0 then s && !t
    else
      let q := min e d
      decide (toIntAt q (.fin s m e) < toIntAt q (.fin t n d))

/-- Round to odd at 24 significant bits (R69). -/
def roundOdd24 : FV → FV
  | .fin n m e =>
    if m < 2 ^ 24 then .fin n m e
    else
      let sh := m.log2 - 23
      let t := m / 2 ^ sh
      let t' := if m % 2 ^ sh = 0 then t else if t % 2 = 0 then t + 1 else t
      .fin n t' (e + sh)
  | x => x

end FV

/-- The generator of SR_REV 0x01 (R70): key k, launch count, element index. -/
def srValue (k launch idx : Nat) : Nat :=
  let w : Nat := 2 ^ 32
  let x0 := Nat.xor (Nat.xor (idx % w) (k * 0x9E3779B9 % w)) (launch % w * 0x85EBCA6B % w)
  let x1 := Nat.xor x0 (x0 / 2 ^ 16)
  let x2 := x1 * 0x7FEB352D % w
  let x3 := Nat.xor x2 (x2 / 2 ^ 15)
  let x4 := x3 * 0x846CA68B % w
  Nat.xor x4 (x4 / 2 ^ 16)

/-- The representable magnitude chosen under a mode (R68): `t` units below, remainder rem of 2^sh. -/
def roundUp (mode : Rnd) (t rem sh : Nat) : Bool :=
  match mode with
  | .rne => decide (2 ^ sh < 2 * rem) || (decide (2 * rem = 2 ^ sh) && t % 2 == 1)
  | .rtz => false
  | .sr r => decide (r < rem * 2 ^ 32 / 2 ^ sh)

/-- The magnitude m * 2^e in whole units of 2^q, rounded. -/
def roundUnits (mode : Rnd) (m : Nat) (e q : Int) : Nat :=
  if q ≤ e then m * 2 ^ (e - q).toNat
  else
    let sh := (q - e).toNat
    let t := m / 2 ^ sh
    let rem := m % 2 ^ sh
    if roundUp mode t rem sh then t + 1 else t

/-- A rounded result: its bits, and whether a finite value became infinite or saturated (R98). -/
structure Rounded where
  bits : Nat
  ovf : Bool
  deriving DecidableEq, Repr

/-- One rounding of a value into a format (R62, R63, R68). -/
def roundTo (f : Fmt) (mode : Rnd) (x : FV) : Rounded :=
  let sgn (n : Bool) : Nat := if n then 2 ^ (f.width - 1) else 0
  match f, x with
  | .int8, .nan => ⟨0, false⟩
  | .int8, .inf n => ⟨if n then 0x80 else 0x7F, false⟩
  | .int8, .fin n m e =>
    let t := roundUnits mode m e 0
    if n then (if 128 < t then ⟨0x80, true⟩ else ⟨unsignedOf 8 (-(t : Int)), false⟩)
    else if 127 < t then ⟨0x7F, true⟩ else ⟨t, false⟩
  | _, .nan => ⟨f.nanBits, false⟩
  | _, .inf n => ⟨f.infBits + sgn n, false⟩
  | _, .fin n m e =>
    if m = 0 then ⟨sgn n, false⟩
    else
      let emin : Int := 1 - f.bias
      let q := max ((m.log2 : Int) + e) emin - f.mb
      let t := roundUnits mode m e q
      let enc := (q - (emin - f.mb)).toNat * 2 ^ f.mb + t
      if enc ≤ f.maxFinite then ⟨enc + sgn n, false⟩
      else if f.hasInf && decide (mode ≠ .rtz) then ⟨f.infBits + sgn n, true⟩
      else ⟨f.maxFinite + sgn n, true⟩

/-- The value of a block-scaled element (R65): 2^(S - 127) * q, INT8 a further 2^-6. -/
def scaledValue (f : Fmt) (scale bits : Nat) : FV :=
  if scale = 0xFF then .nan
  else (f.value bits).shift ((scale : Int) - 127 - (if f = .int8 then 6 else 0))

/-- FP32 results of a step (R82). -/
def fp32Round (x : FV) : Rounded := roundTo .fp32 .rne x

/-- The FP32 sum step. -/
def fp32Sum (a b : Nat) : Nat := (fp32Round ((Fmt.fp32.value a).add (Fmt.fp32.value b))).bits

/-- The FP32 product step. -/
def fp32Mul (a b : Nat) : Nat := (fp32Round ((Fmt.fp32.value a).mul (Fmt.fp32.value b))).bits

/-- Integer square root, one bit at a time from bit `i`. -/
def isqrtFrom : (i : Nat) → (acc n : Nat) → Nat
  | 0, acc, _ => acc
  | i + 1, acc, n =>
    let c := acc + 2 ^ i
    isqrtFrom i (if c * c ≤ n then c else acc) n

/-- The quotient to enough places, with a sticky last bit (R205). -/
def FV.div (a b : FV) : FV :=
  match a, b with
  | .nan, _ => .nan
  | _, .nan => .nan
  | .inf _, .inf _ => .nan
  | .inf s, .fin t _ _ => .inf (s != t)
  | .fin s _ _, .inf t => .fin (s != t) 0 0
  | .fin s m e, .fin t n d =>
    if n = 0 then (if m = 0 then .nan else .inf (s != t))
    else if m = 0 then .fin (s != t) 0 0
    else
      let q := m * 2 ^ 90 / n
      let st := if m * 2 ^ 90 % n = 0 then 0 else 1
      .fin (s != t) (2 * q + st) (e - d - 91)

/-- The square root to enough places, with a sticky last bit (R205). -/
def FV.sqrt : FV → FV
  | .nan => .nan
  | .inf n => if n then .nan else .inf false
  | .fin n m e =>
    if m = 0 then .fin n 0 e
    else if n then .nan
    else
      let odd : Bool := e % 2 == 1
      let m' := (if odd then 2 * m else m) * 2 ^ 80
      let e' := (if odd then e - 1 else e) - 80
      let r := isqrtFrom 64 0 m'
      .fin false (2 * r + (if r * r = m' then 0 else 1)) (e' / 2 - 1)

/-- MIN or MAX of two elements of one format (R97). -/
def minMax (f : Fmt) (isMax : Bool) (a b : Nat) : Nat :=
  match f.value a, f.value b with
  | .nan, _ => f.nanBits
  | _, .nan => f.nanBits
  | x, y => if isMax then (if x.lt y then b else a) else if y.lt x then b else a

/-- The largest finite magnitude of a block (R67, step 1). -/
def maxMag (vs : List FV) : FV :=
  vs.foldl (fun m v => if v.isFin && m.magLt v then v else m) (.fin false 0 0)

/-- The block scale of R67. -/
def chooseScale (f : Fmt) (vs : List FV) : Nat :=
  if vs.any (· == .nan) then 0xFF
  else
    let m := maxMag vs
    if m.isZero then 0
    else (max 0 (min 254 (m.log2Floor - f.emax + 127))).toNat

/-- The elements of a block-scaled result at the scale chosen (R67, step 4, R73): each element's own mode. -/
def scaledElem (f : Fmt) (scale : Nat) (mode : Rnd) (odd : Bool) (v : FV) : Rounded :=
  if scale = 0xFF then ⟨0, false⟩
  else
    let x := v.shift (127 - (scale : Int) + (if f = .int8 then 6 else 0))
    roundTo f mode (if odd then x.roundOdd24 else x)

/-- A contribution exponent over one span (R75). -/
def spanExponent (vs : List FV) : Nat :=
  if vs.any (fun v => !v.isFin) then 0xFF
  else
    let m := maxMag vs
    if m.isZero then 0 else (max 0 (min 254 (m.log2Ceil + 127))).toNat

/-- Floor of a finite value times 2^(173 - E), limited to -2^46 and 2^46 (R76), and whether it was limited. -/
def phloxInt (E : Nat) (x : FV) : Int × Bool :=
  match x with
  | .fin n m e =>
    let k := e + 173 - (E : Int)
    let i : Int := (if n then -1 else 1) * (m : Int)
    let v : Int := if 0 ≤ k then i * (2 ^ k.toNat : Nat) else i / ((2 ^ (-k).toNat : Nat) : Int)
    if 2 ^ 46 < v then (2 ^ 46, true) else if v < -(2 ^ 46) then (-(2 ^ 46), true) else (v, false)
  | .inf n => (if n then -(2 ^ 46) else 2 ^ 46, true)
  | .nan => (0, true)

/-- The special encoding of R77. -/
def phloxSpecial : FV → Int
  | .nan => 2 ^ 42
  | .inf n => if n then 2 ^ 21 else 1
  | .fin _ _ _ => 0

/-- The conversion to Phlox under a block exponent, special blocks included (R76, R77, R213). -/
def phloxConv (E : Nat) (x : FV) : Int × Bool :=
  if E = 0xFF then (phloxSpecial x, false) else phloxInt E x

/-- The exact value of a Phlox sum under a block exponent (R77, R79). -/
def phloxValue (E : Nat) (n : Int) : FV :=
  if E = 0xFF then
    let u := unsignedOf 64 n
    let pos := bitsOf u 0 21
    let neg := bitsOf u 21 21
    let nan := bitsOf u 42 21
    if nan ≠ 0 ∨ (pos ≠ 0 ∧ neg ≠ 0) then .nan
    else if pos ≠ 0 then .inf false
    else if neg ≠ 0 then .inf true
    else .nan
  else FV.ofInt n ((E : Int) - 173) false

/-- The exact sum of the products of one block (R101). -/
def blockSum (ps : List FV) : FV :=
  ps.foldl FV.add (.fin true 0 0)

/-- One block result (R100 to R102): elements a and b with formats, scales when scaled. -/
def blockResult (fa fb : Fmt) (scaled : Bool) (sa sb : Nat) (as bs : List Nat) : FV :=
  let s := blockSum ((as.zip bs).map fun p => (fa.value p.1).mul (fb.value p.2))
  if scaled then
    if sa = 0xFF ∨ sb = 0xFF then .nan
    else s.shift ((sa : Int) - 127 + ((sb : Int) - 127) - (if fa = .int8 then 12 else 0))
  else s

/-- Step 4 under ARITH_REV 0x02 (R103): FP32 bits. -/
def dotAcc2 (c : Nat) (brs : List FV) : Nat :=
  brs.foldl (fun acc br => (fp32Round ((Fmt.fp32.value acc).add br)).bits) c

/-- Step 4 under ARITH_REV 0x01 (R104): pairs first; a last block alone is rounded before it is added, so that a dot product of
one block with an accumulator may differ from R103's, which R29 does not say (log entry 92). -/
def dotAcc1 (c : Nat) : List FV → Nat
  | [] => c
  | [a] => fp32Sum c (fp32Round a).bits
  | a :: b :: rest => dotAcc1 (fp32Sum c (fp32Round (a.add b)).bits) rest

/-- Whether one FP32 sum step of finite operands gave an infinite value (R98). -/
def stepOvf (acc : Nat) (x : FV) : Bool :=
  (Fmt.fp32.value acc).isFin && x.isFin && (fp32Round ((Fmt.fp32.value acc).add x)).ovf

/-- Whether a step of R103 overflowed from finite operands (R98). -/
def dotOvf2 (c : Nat) : List FV → Bool
  | [] => false
  | a :: rest => stepOvf c a || dotOvf2 (fp32Round ((Fmt.fp32.value c).add a)).bits rest

/-- Whether a pair's rounding or a step of R104 overflowed from finite operands (R98). -/
def dotOvf1 (c : Nat) : List FV → Bool
  | [] => false
  | [a] => let r := fp32Round a; (a.isFin && r.ovf) || stepOvf c (Fmt.fp32.value r.bits)
  | a :: b :: rest =>
    let r := fp32Round (a.add b)
    (a.isFin && b.isFin && r.ovf) || stepOvf c (Fmt.fp32.value r.bits) || dotOvf1 (fp32Sum c r.bits) rest

/-- Step 4, Phlox accumulation (R105): the sum, the events counted, and whether a block result was NaN. -/
def dotPhlox (E : Nat) (n : Int) (brs : List FV) : Int × Nat × Bool :=
  brs.foldl (fun acc br =>
    let c := phloxConv E br
    let t := acc.1 + c.1
    let cl := if 2 ^ 63 - 1 < t then (2 ^ 63 - 1 : Int) else if t < -(2 ^ 63) then -(2 ^ 63) else t
    (cl, acc.2.1 + b2n c.2 + b2n (decide (cl ≠ t)), acc.2.2 || decide (br = .nan)))
    (n, 0, false)

/-- Element `i` of packed elements (R59). -/
def elemAt (f : Fmt) (bs : Bytes) (i : Nat) : Nat :=
  match f.width with
  | 4 => bitsOf (leAt bs (i / 2) 1) (i % 2 * 4) 4
  | 6 => bitsOf (leAt bs (i / 4 * 3) 3) (i % 4 * 6) 6
  | w => leAt bs (i * (w / 8)) (w / 8)

/-- Bytes of packed elements (R59); a last byte not filled is padded with 0 bits. -/
def packElems (f : Fmt) (es : List Nat) : Bytes :=
  leBytes (ceilDiv (es.length * f.width) 8) (es.foldr (fun e acc => e % 2 ^ f.width + acc * 2 ^ f.width) 0)

end Sys2Proof.Machine
end

