-- ==== Sys2Proof/Machine/BootRec.lean ====
section
/-! DEFINITION. What State holds of the boot flash, the fuses, the boot ROM and firmware beyond their registers
(chapter 19). -/

namespace Sys2Proof.Machine

/-- A firmware slot: its state (R450), and the image bytes it holds. -/
structure SlotR where
  state : Nat := 0
  image : Bytes := []
  deriving DecidableEq, Repr, Inhabited

/-- The firmware staging: state (R457), transfer digest, requester (0 the host port, 1 + SRC for an in-band one), total
length, 4 KiB blocks written. -/
structure FwStage where
  state : Nat := 0
  digest : Bytes := []
  requester : Nat := 0
  total : Nat := 0
  blocks : List (Nat × Bytes) := []
  deriving DecidableEq, Repr, Inhabited

/-- An operator key slot as the key record or the fuses hold it (R390): 0 EMPTY, 1 VALID, 2 REVOKED; both public keys. -/
structure KeySlot where
  state : Nat := 0
  keys : Bytes := []
  deriving DecidableEq, Repr, Inhabited

/-- What survives every reset: the directory in force and the sequence numbers of its copies A and B (R445), slots, staging,
settings record, operator keys, the packages of the image store (R360), MIN_SVN and the digest of operator key slot 0 in
fuses. -/
structure NvX where
  seqA : Nat := 0
  seqB : Nat := 0
  slots : List (Nat × SlotR) := []
  stage : FwStage := {}
  fails : Nat := 0
  booted : Bool := false
  confirmed : Bool := false
  last : Nat := 0
  settings : Option Bytes := none
  keys : List (Nat × KeySlot) := []
  store : List Bytes := []
  minSvn : Nat := 0
  deriving DecidableEq, Repr, Inhabited

/-- The relay to the downstream Y5s (R460): the entry being sent, the command whose response is awaited (0 FW_BEGIN, 1 + i
chunk i, after the last chunk FW_END), whether the entry waits 10 s for its next try, the local tick of the
last sending or of the start of the wait. -/
structure RelayRun where
  entry : Nat
  step : Nat := 0
  waits : Bool := false
  sentAt : Nat := 0
  deriving DecidableEq, Repr, Inhabited

/-- The MP. `start` says the boot ROM is to start and after which reset: 1 power-on or device warm reset, 2 MP reset, 3 REC_EXIT.
`running` says that firmware runs; `fresh` that boot firmware has yet to load the stored image (R360). `buffer` is
recovery's SRAM buffer; `timer` runs from the jump, at local tick `jumped`, until confirmation or expiry; `confirming` says
the confirming directory write runs (R451). A relay that an MP reset stopped stays noted while `running` is false. -/
structure BootX where
  start : Nat := 0
  running : Bool := false
  fresh : Bool := false
  settingsFmt : Nat := 0
  buffer : List (Nat × Bytes) := []
  timer : Bool := false
  jumped : Nat := 0
  confirming : Bool := false
  relay : Option RelayRun := none
  deriving DecidableEq, Repr, Inhabited

end Sys2Proof.Machine
end

