-- ==== Sys2Proof/Machine/Store.lean ====
section
/-! DEFINITION. Sparse maps as lists of (key, value) with keys strictly rising, and the ones that also drop every entry
equal to what an unlisted key reads as, so that equal maps are equal lists. -/

namespace Sys2Proof.Machine

/-- The value listed at a key. -/
def lookupKey {α : Type} : List (Nat × α) → Nat → Option α
  | [], _ => none
  | (k, v) :: m, x => if x = k then some v else if x < k then none else lookupKey m x

/-- The map with a value listed at a key, keys kept strictly rising. -/
def insertKey {α : Type} : List (Nat × α) → Nat → α → List (Nat × α)
  | [], x, a => [(x, a)]
  | (k, v) :: m, x, a =>
    if x = k then (x, a) :: m
    else if x < k then (x, a) :: (k, v) :: m
    else (k, v) :: insertKey m x a

/-- The map with nothing listed at a key. -/
def eraseKey {α : Type} : List (Nat × α) → Nat → List (Nat × α)
  | [], _ => []
  | (k, v) :: m, x => if x = k then m else if x < k then (k, v) :: m else (k, v) :: eraseKey m x

/-- A read of a sparse map whose unlisted keys read as `d`. -/
def readKey {α : Type} (d : α) (m : List (Nat × α)) (k : Nat) : α := (lookupKey m k).getD d

/-- A write of a sparse map whose unlisted keys read as `d`: writing `d` removes the entry. -/
def writeKey {α : Type} [DecidableEq α] (d : α) (m : List (Nat × α)) (k : Nat) (a : α) : List (Nat × α) :=
  if a = d then eraseKey m k else insertKey m k a

/-- The keys rise strictly, from `lo` upward. -/
def keysRise {α : Type} : (lo : Nat) → List (Nat × α) → Bool
  | _, [] => true
  | lo, (k, _) :: m => decide (lo ≤ k) && keysRise (k + 1) m

/-- The canonical form: keys strictly rising, no entry equal to what an unlisted key reads as. -/
def storeWf {α : Type} [DecidableEq α] (d : α) (m : List (Nat × α)) : Bool :=
  keysRise 0 m && m.all fun e => decide (e.2 ≠ d)

end Sys2Proof.Machine
end

