-- ==== Sys2Proof/Machine/ImageRec.lean ====
section
/-! DEFINITION. What the committed image holds beside the registers that are views of it (chapter 14, R345 to R351). -/

namespace Sys2Proof.Machine

/-- A child Y5 of a tree: its coordinates [11:0] and its fabric port. -/
structure Child where
  coord : Nat
  port : Nat
  deriving DecidableEq, Repr, Inhabited

/-- A stage of a combining plan (R87). -/
structure Stage where
  slice : Nat
  inputs : List Nat
  deriving DecidableEq, Repr, Inhabited

/-- A tree of one tile range with its plan; `parent` is 0xFF at the root (R86, R350). -/
structure Tree where
  first : Nat
  last : Nat
  parent : Nat
  children : List Child
  plan : List Stage := []
  deriving DecidableEq, Repr, Inhabited

/-- A context's matters that no register and no table of R350 lays out (log entry 9): tiles per chunk, reorder reserve in
frames, result scale, source and destination rank, paired context, apply parameter block address. -/
structure CtxX where
  chunk : Nat := 1
  reserve : Nat := 0
  scale : Nat := 0x3F800000
  srcRank : Nat := 0
  dstRank : Nat := 0
  pair : Option Nat := none
  param : Option Nat := none
  /-- the child toward the destination of a REDUCE (R487) -/
  toward : Option Nat := none
  /-- class 7 frames of one launch by port (R157) -/
  frames7 : List (Nat × Nat) := []
  deriving DecidableEq, Repr, Inhabited

/-- The matters of one part that R345 and R349 name and for which the manual gives no byte layout (log entry 9). -/
structure PartX where
  /-- device part: ports, cores and context IDs granted, as (unit, partition) -/
  ports : List (Nat × Nat) := []
  cores : List (Nat × Nat) := []
  contexts : List (Nat × Nat) := []
  /-- slot windows as (port, partition, first tick, last tick) -/
  windows : List (Nat × Nat × Nat × Nat) := []
  /-- units the image excludes (R28) -/
  offSlices : List Nat := []
  offPorts : List Nat := []
  offCores : List Nat := []
  /-- device security policy (R386) -/
  hostClosed : Bool := false
  epAuthOff : Bool := false
  /-- partition part: classes 0 to 5 marked lossless -/
  lossless : List Nat := []
  /-- logical ports whose link encrypts the partition -/
  encrypted : List Nat := []
  /-- credit grants in KiB as (port, class, grant) -/
  credits : List (Nat × Nat × Nat) := []
  ctxs : List (Nat × CtxX) := []
  /-- partition security policy (R387, R395) -/
  operatorAccess : Bool := false
  epAuth : Option Bool := none
  /-- trust anchors, at most 8 (R386) -/
  anchors : List (BitVec 256) := []
  deriving DecidableEq, Repr, Inhabited

/-- The firmware relay entry of a Y5 (R459): upstream coordinates, the partition whose class 6 the relay frames use,
whether the relay starts by itself, downstream (coordinates, chip). -/
structure RelayX where
  up : Option Nat := none
  part : Nat := 0
  auto : Bool := false
  down : List (Nat × Nat) := []
  deriving DecidableEq, Repr, Inhabited

/-- A section of a part: partition (16 for the device part), ID and contents (R347, R349). -/
structure Section where
  part : Nat
  id : Nat
  bytes : Bytes
  deriving DecidableEq, Repr, Inhabited

/-- The committed image. -/
structure Image where
  sections : List Section := []
  device : PartX := {}
  parts : List (Nat × PartX) := []
  members : List (Nat × List Nat) := []
  trees : List (Nat × List Tree) := []
  experts : List (Nat × List Nat) := []
  /-- code records as (core, local address, bytes) -/
  code : List (Nat × Nat × Bytes) := []
  relay : RelayX := {}
  /-- Img bits of registers that differ from the defaults, by chip-window offset -/
  regs : List (Nat × BitVec 64) := []
  /-- initial SLCn_LSR_CTRL values by slice (R351) -/
  lasers : List (Nat × Nat) := []
  /-- the packages the image came from, a KIND 0 package first, while firmware holds them all (R360) -/
  packages : List Bytes := []
  deriving DecidableEq, Repr, Inhabited

/-- The staging of an image package (R352, R353): requester (0 the host port, 1 + SRC for an in-band one), TOTAL_LEN, 4 KiB
blocks written, and the count and the local tick from which an armed commit is applied. -/
structure StageX where
  requester : Nat := 0
  total : Nat := 0
  blocks : List (Nat × Bytes) := []
  due : Nat := 0
  tick : Nat := 0
  deriving DecidableEq, Repr, Inhabited

/-- The staged bytes. -/
def StageX.bytes (g : StageX) : Bytes :=
  ((List.range (ceilDiv g.total 4096)).flatMap fun i => readKey [] g.blocks i).take g.total

namespace Image

/-- The trees of a context at this Y5. -/
def treesOf (i : Image) (c : Nat) : List Tree := readKey [] i.trees c
/-- The member table of a context, by rank. -/
def membersOf (i : Image) (c : Nat) : List Nat := readKey [] i.members c
/-- The expert table of a context. -/
def expertsOf (i : Image) (c : Nat) : List Nat := readKey [] i.experts c
/-- The part of a partition. -/
def partOf (i : Image) (p : Nat) : PartX := readKey {} i.parts p
/-- The partition a context is granted to (R109). -/
def ctxOwner (i : Image) (c : Nat) : Option Nat := lookupKey i.device.contexts c
/-- What no register shows of a context. -/
def ctxX (i : Image) (c : Nat) : CtxX :=
  match i.ctxOwner c with
  | some p => readKey {} (i.partOf p).ctxs c
  | none => {}
/-- The tree that holds a tile. -/
def treeAt (i : Image) (c t : Nat) : Option Tree := (i.treesOf c).find? fun r => decide (r.first ≤ t) && decide (t ≤ r.last)

end Image

end Sys2Proof.Machine
end

