-- ==== Sys2Proof/Config.lean ====
section
/-! DEFINITION. What the spec fixes by naming a standard, a fuse or a key, without giving its contents: uninterpreted
constants. No proof can see their values (log entries 1, 7, 8). -/

namespace Sys2Proof.Config

/-- What an SPDM message does to sessions, as SPDM 1.3 fixes it: opens a session with its ID, export master secret, the
certificate chain its requester presented and verified (none without mutual authentication), ends one, or neither. -/
inductive SpdmEffect where
  | opened (id : Nat) (ems : List (BitVec 8)) (chain : Option (List (BitVec 8)))
  | ended (id : Nat)
  | none
  deriving DecidableEq, Repr, Inhabited

/-- The next move of a requester that sets up a link session (R395). -/
inductive SpdmMove where
  | send (request : List (BitVec 8))
  | established (ems : List (BitVec 8)) (chain : Option (List (BitVec 8)))
  | failed
  deriving DecidableEq, Repr, Inhabited

/-- A free value of the model, applied to the counter `State.free` (log entry 1). -/
opaque freeValue : Nat → BitVec 64

/-- ECDSA P-384 and ML-DSA-65 signing with the device identity keys, over a message (R56, R389, R394). -/
opaque signEcdsa : List (BitVec 8) → List (BitVec 8)
opaque signMlDsa : List (BitVec 8) → List (BitVec 8)
/-- Verification of both signatures of a message under a public key pair (R348, R391, R447). -/
opaque verifyEcdsa : (key msg sig : List (BitVec 8)) → Bool
opaque verifyMlDsa : (key msg sig : List (BitVec 8)) → Bool
/-- AES-256-GCM: key, IV, additional data, text. Sealing gives the ciphertext and the 16-byte tag; opening gives the
plaintext, or nothing when the tag (its first bytes as given) does not verify (R342, R446). -/
opaque gcmSeal : (key iv aad text : List (BitVec 8)) → List (BitVec 8) × List (BitVec 8)
opaque gcmOpen : (key iv aad text tag : List (BitVec 8)) → Option (List (BitVec 8))
/-- HKDF-Expand with SHA-384: secret, info, length (R396, R399). -/
opaque hkdfExpand : (secret info : List (BitVec 8)) → Nat → List (BitVec 8)
/-- HMAC-SHA-384 (R399). -/
opaque hmacSha384 : (key msg : List (BitVec 8)) → List (BitVec 8)
/-- The message an SPDM 1.3 responder answers to a request, after the requests before it on that path, with the measurement
record that it carries and signs (R392, R393); and the indices of the blocks a request asks for (GET_MEASUREMENTS; none of any
other). -/
opaque spdmAnswer : (earlier : Nat) → (request record : List (BitVec 8)) → List (BitVec 8)
opaque spdmAsks : (earlier : Nat) → (request : List (BitVec 8)) → List Nat
/-- The type that the DMTF measurement specification gives the value of a measurement block (R393). -/
opaque measurementType : (index : Nat) → BitVec 7
/-- What a request does to sessions, after the requests before it on that path; and the requester's moves on a port, after
the responses before and the response just received (R392, R395). -/
opaque spdmEffect : (earlier : Nat) → (request : List (BitVec 8)) → SpdmEffect
opaque spdmMove : (port earlier : Nat) → (response : List (BitVec 8)) → SpdmMove
/-- Whether a certificate chain presented in an SPDM session verifies down from a certificate with this digest (R386). -/
opaque chainAccepts : (anchor : BitVec 256) → (chain : List (BitVec 8)) → Bool
/-- The Skovbel root, to which a PEER identity certificate chains (R386). -/
opaque skovbelRoot : BitVec 256
/-- SHA3-256 of the device identity certificate in DER (R56), and of the boot ROM (R393). -/
opaque certDigest : BitVec 256
opaque romDigest : BitVec 256
/-- The firmware image key in fuses and Skovbel's firmware signing keys (R446). -/
opaque firmwareKey : List (BitVec 8)
opaque firmwareSignKey : List (BitVec 8)
/-- The SPDM message that carries a REKEY_REQ, or the REKEY_ACK that answers it, for a port, partition and generation
(R398). -/
opaque rekeyRequest : (port part gen : Nat) → List (BitVec 8)
opaque rekeyAck : (port part gen : Nat) → List (BitVec 8)

/-- The matters of the device part, and of a partition part, whose layout in their sections the manual does not give, as
functions of those sections in ascending ID (log entry 9). -/
opaque deviceMatters : List (Nat × List (BitVec 8)) → Machine.PartX
opaque partMatters : (part : Nat) → List (Nat × List (BitVec 8)) → Machine.PartX
/-- The 4,096 bytes of the chosen directory copy, whose layout the manual does not give (R445, R453). -/
opaque directoryCopy : Machine.NvX → List (BitVec 8)

end Sys2Proof.Config
end

