-- ==== Sys2Proof/Machine/FrameRec.lean ====
section
/-! DEFINITION. Walha frames: the header of R328, its checks (R329) and the small payloads of R332. -/

namespace Sys2Proof.Machine

/-- A frame: the header fields of R328 and the payload plaintext. -/
structure Frame where
  typ : Nat
  cls : Nat := 0
  part : Nat := 0
  mark : Nat := 0
  colour : Nat := 0
  keyEpoch : Nat := 0
  enc : Bool := false
  hop : Nat := 0
  nack : Bool := false
  dest : Nat := 0
  src : Nat := 0
  tag : Nat := 0
  life : Nat := 0
  ctx : Nat := 0
  epoch : Nat := 0
  tile : Nat := 0
  lseq : Nat := 0
  ackseq : Nat := 0
  fcount : Nat := 0
  addr : Nat := 0
  user : Nat := 0
  payload : Bytes := []
  deriving DecidableEq, Repr, Inhabited

namespace Frame

/-- LEN of the frame. -/
def len (f : Frame) : Nat := f.payload.length

/-- Frame types by code (R331). -/
def DATA : Nat := 0x01
def REQ : Nat := 0x02
def RSP : Nat := 0x03
def COLL : Nat := 0x08
def COLL_UP : Nat := 0x09
def COLL_EXP : Nat := 0x0A
def COLL_DOWN : Nat := 0x0B
def RESULT : Nat := 0x0C
def COLL_XFER : Nat := 0x0D
def DISPATCH_END : Nat := 0x0E
def DONE : Nat := 0x0F
def ABORT : Nat := 0x10
def ABORT_Y5 : Nat := 0x11
def REJECT : Nat := 0x12
def ECHO : Nat := 0x14
def ECHO_Y5 : Nat := 0x15
def CMD : Nat := 0x18
def CMD_RSP : Nat := 0x19
def CMD_RSP_Y5 : Nat := 0x1A
def MG_DRAIN : Nat := 0x1C
def MG_ACK : Nat := 0x1D
def HELLO : Nat := 0x30
def CREDIT : Nat := 0x31
def ACK : Nat := 0x32
def NACK : Nat := 0x33
def TIME_REQ : Nat := 0x34
def TIME_RSP : Nat := 0x35

/-- Link-local types (R331). -/
def linkLocal (t : Nat) : Bool := decide (0x30 ≤ t) && decide (t ≤ 0x35)
/-- Y5-addressed types (R253, R331). -/
def y5Addressed (t : Nat) : Bool := [COLL, COLL_UP, COLL_EXP, COLL_DOWN, ABORT_Y5, ECHO_Y5, CMD, CMD_RSP_Y5, MG_ACK].contains t
/-- Types of collective frames, which R134 and R135 check. -/
def collective (t : Nat) : Bool := decide (0x08 ≤ t) && decide (t ≤ 0x0E)
/-- Command types (R336). -/
def command (t : Nat) : Bool := decide (0x18 ≤ t) && decide (t ≤ 0x1A)
/-- Types listed in R331. -/
def listed (t : Nat) : Bool :=
  [0x01, 0x02, 0x03, 0x08, 0x09, 0x0A, 0x0B, 0x0C, 0x0D, 0x0E, 0x0F, 0x10, 0x11, 0x12, 0x14, 0x15, 0x18, 0x19, 0x1A, 0x1C,
   0x1D, 0x30, 0x31, 0x32, 0x33, 0x34, 0x35].contains t

/-- Whether R331 allows the class for the type. -/
def classOk (t c : Nat) : Bool :=
  if linkLocal t then c == 0
  else if [DATA, REQ, RSP].contains t then decide (c ≤ 5)
  else if collective t then c != 6
  else c == 6

/-- Whether R331 allows the length for the type, as far as the type alone fixes it. -/
def lenOk (t n : Nat) : Bool :=
  if [DONE, ABORT, ABORT_Y5, REJECT, DISPATCH_END, MG_ACK].contains t then n == 8
  else if [ECHO, ECHO_Y5, TIME_REQ].contains t then n == 16
  else if t = MG_DRAIN then decide (40 ≤ n) && decide ((n - 40) % 64 = 0)
  else if t = HELLO then n == 96
  else if t = CREDIT then decide (8 ≤ n) && decide (n ≤ 1024) && decide (n % 8 = 0)
  else if t = ACK then n == 0
  else if t = NACK then n == 4
  else if t = TIME_RSP then n == 40
  else decide (n ≤ 8192)

end Frame

/-- One bit of the reflected CRC-32C (R329). -/
def crcStep (r : Nat) : Nat := if r % 2 = 1 then Nat.xor (r / 2) 0x82F63B78 else r / 2

/-- CRC-32C over bytes, from the register given (R329). -/
def crcFrom (r : Nat) : Bytes → Nat
  | [] => r
  | b :: bs =>
    let x := Nat.xor r b.toNat
    crcFrom (crcStep (crcStep (crcStep (crcStep (crcStep (crcStep (crcStep (crcStep x)))))))) bs

/-- CRC-32C of RFC 3720 (R329). -/
def crc32c (bs : Bytes) : Nat := Nat.xor (crcFrom 0xFFFFFFFF bs) 0xFFFFFFFF

/-- Word w of a header: big-endian (R328). -/
def hdrWord (bs : Bytes) (w : Nat) : Nat := beNat (slice bs (4 * w) 4)

/-- The header fields of 48 bytes, with a payload (R328). -/
def parseHeader (h payload : Bytes) : Frame :=
  let w := hdrWord h
  { typ := bitsOf (w 0) 26 6, cls := bitsOf (w 0) 23 3, part := bitsOf (w 0) 19 4, mark := bitsOf (w 0) 17 2,
    colour := bitsOf (w 0) 15 2, keyEpoch := bitsOf (w 0) 13 2, enc := bitOf (w 0) 12, hop := bitsOf (w 0) 6 6,
    nack := bitOf (w 0) 5, dest := bitsOf (w 1) 15 17, src := bitsOf (w 2) 15 17, tag := bitsOf (w 2) 0 12,
    life := bitsOf (w 3) 16 16, ctx := bitsOf (w 3) 4 12, epoch := bitsOf (w 3) 0 4, tile := bitsOf (w 4) 12 20,
    lseq := bitsOf (w 5) 16 16, ackseq := bitsOf (w 5) 0 16, fcount := w 6,
    addr := w 8 * 2 ^ 32 + w 9, user := w 10 * 2 ^ 32 + w 11, payload := payload }

/-- LEN of a header. -/
def hdrLen (h : Bytes) : Nat := bitsOf (hdrWord h 1) 0 14

/-- Reserved header bits are 0 (R328). -/
def hdrRsvdOk (h : Bytes) : Bool :=
  bitsOf (hdrWord h 0) 0 5 == 0 && bitsOf (hdrWord h 1) 14 1 == 0 && bitsOf (hdrWord h 2) 12 3 == 0
    && bitsOf (hdrWord h 4) 0 12 == 0

/-- HCRC of a header is right (R329). -/
def hcrcOk (h : Bytes) : Bool := crc32c (h.take 28) == hdrWord h 7

/-- The header as sent, HCRC computed (R328, R330). -/
def encodeHeader (f : Frame) : Bytes :=
  let ws : List Nat :=
    [f.typ * 2 ^ 26 + f.cls * 2 ^ 23 + f.part * 2 ^ 19 + f.mark * 2 ^ 17 + f.colour * 2 ^ 15 + f.keyEpoch * 2 ^ 13
       + b2n f.enc * 2 ^ 12 + f.hop * 2 ^ 6 + b2n f.nack * 2 ^ 5,
     f.dest * 2 ^ 15 + f.len, f.src * 2 ^ 15 + f.tag, f.life * 2 ^ 16 + f.ctx * 2 ^ 4 + f.epoch, f.tile * 2 ^ 12,
     f.lseq * 2 ^ 16 + f.ackseq, f.fcount]
  let h := ws.flatMap (beBytes 4)
  h ++ beBytes 4 (crc32c h) ++ beBytes 8 f.addr ++ beBytes 8 f.user

/-- The trailer's CRC over header, payload as sent and ICV (R328). -/
def frameCrc (header body icv : Bytes) : Nat := crc32c (header ++ body ++ slice icv 0 12)

end Sys2Proof.Machine
end

