-- ==== Sys2Proof/Machine/BufRec.lean ====
section
/-! DEFINITION. What State holds of the switch core, the buffer pools and the ports beyond their registers (chapters 9 to
11 and 13). -/

namespace Sys2Proof.Machine

/-- An output of the switch core (R230). `pool` is no output: a frame of a launch that has not begun stays in its partition's
pool of that slice (R131; log entry 86). -/
inductive OutPort where
  | port (p : Nat)
  | core (n : Nat)
  | pool (n : Nat)
  deriving DecidableEq, Repr, Inhabited

/-- Where a copy stands: a request not yet decided (R238); admitted and waiting for pointers (R243); with all
its pointers, in the order of its slice's write port (R236); held for reordering (R133); queued; on the wire; awaiting its
acknowledgement (R241); in a core's inbound queue (R180). -/
inductive Phase where
  | asking
  | granted
  | copying
  | held
  | queued
  | wire
  | unacked
  | inCore
  deriving DecidableEq, Repr, Inhabited

/-- One copy of a frame. `group` names its frame, `inPort` the port that frame arrived on; `order` is its place under R243;
`seq` its place at the write port; `commitAt` the
count of its commit; `launch` the launch of its context it belongs to, where this Y5 consumes or makes it; `engine` the core
and the outbound engine that queued it (R179); `span` the tiles a core takes of it, as first and one past the last, where
they are not all of them (R89). -/
structure Copy where
  id : Nat
  frame : Frame
  out : OutPort
  slice : Nat
  pool : Nat
  need : Nat
  ptrs : List Nat := []
  phase : Phase
  lossless : Bool
  orig : Bool
  inPort : Option Nat := none
  group : Nat
  order : List Nat := []
  seq : Nat := 0
  commitAt : Nat := 0
  vft : Nat := 0
  lseq : Nat := 0
  launch : Option Nat := none
  taken : List Nat := []
  faulty : Bool := false
  engine : Option (Nat × Nat) := none
  span : Option (Nat × Nat) := none
  deriving DecidableEq, Repr, Inhabited

/-- A frame that still holds staging or credits: its port, KiB, the pair its charge was made on (128 for the management
grant), and whether it is still to be copied from staging (R233, R234). `done` says that nothing is left of it but the
staging it holds behind an earlier frame of its port. -/
structure Arrival where
  group : Nat
  port : Nat
  kib : Nat
  pair : Option Nat
  staged : Bool
  lossy : Bool := false
  done : Bool := false
  deriving DecidableEq, Repr, Inhabited

/-- The pointers of a pool (R242): ring words from the head, cache, the refill in flight. -/
structure PoolX where
  ring : List Nat := []
  cache : List Nat := []
  refill : List Nat := []
  deriving DecidableEq, Repr, Inhabited

/-- What a slice holds beyond its registers: allocated buffers (R241), the audit snapshot under way with its deficits by
pool (R246), the shaper commits waiting for a refill, each with its tick and the fields shadowed then (R282), the next place
at the write port, the local tick of the last hand-over and the pointers handed over in it (R243), and whether SCHED_SLIP
was raised in the present episode (R162). -/
structure SliceX where
  alloc : List Nat := []
  audit : Option (Nat × List Int) := none
  shpDue : List (Nat × List (Nat × BitVec 64)) := []
  nextSeq : Nat := 0
  handedAt : Nat := 0
  handed : Nat := 0
  slipped : Bool := false
  /-- nominal first count of the first round whose slot span has not ended (R161) -/
  spanFrom : Nat := 0
  /-- nominal round boundary at which the lag is to be dropped (R163) -/
  dropAt : Option Nat := none
  /-- first value of SCH_COUNT less the lag that the ticks before this one had not reached (R161) -/
  slotFrom : Nat := 0
  /-- local tick at which the drain timer, started at DRAIN_TMO, expires (R248) -/
  drainEnd : Nat := 0
  deriving DecidableEq, Repr, Inhabited

/-- The two counts of a credit pair (R333). -/
structure Credit where
  granted : Nat := 0
  used : Nat := 0
  deriving DecidableEq, Repr, Inhabited

/-- A flowlet entry; `last` and `birth` are schedule counts (R261). -/
structure Flowlet where
  tag : Nat
  port : Nat
  last : Nat
  birth : Nat
  deriving DecidableEq, Repr, Inhabited

/-- What a port has on its wire. -/
inductive Wire where
  | copy (id : Nat) (first : Bool)
  | control (f : Frame)
  deriving DecidableEq, Repr, Inhabited

/-- A key epoch of one direction and partition (R396): generation, key, salt, and the last FCOUNT sent or accepted. -/
structure LinkKey where
  gen : Nat
  key : Bytes
  salt : Bytes
  fcount : Nat := 0
  deriving DecidableEq, Repr, Inhabited

/-- Deficit round robin at one level (R278). -/
structure Drr where
  ptr : Nat := 0
  deficit : List (Nat × Nat) := []
  turn : List (Nat × Bool) := []
  deriving DecidableEq, Repr, Inhabited

/-- A class 7 slot that has begun: its entry, frames still to start (R157). -/
structure OpenSlot where
  entry : Nat
  left : Nat
  deriving DecidableEq, Repr, Inhabited

/-- The hello and training state of a port (R301, R307 to R319). `enteredAt` is the local tick at which the present state was
entered; `peerSeen`, `seenSent` and `peerSaw` say that in this state a valid hello was received, one with PEER_SEEN was
sent, and one with PEER_SEEN was received. `txDue` and `rxDue` are lane lists to be taken at the next AM. -/
structure HelloX where
  seq : Nat := 0
  /-- own hellos as (SEQ, time of sending in 1/16 tk) -/
  sent : List (Nat × Nat) := []
  /-- SEQ and time of receipt in 1/16 tk of the last valid hello -/
  got : Option (Nat × Nat) := none
  enteredAt : Nat := 0
  /-- local tick of the last valid hello -/
  heardAt : Nat := 0
  peerSeen : Bool := false
  seenSent : Bool := false
  peerSaw : Bool := false
  peerReq : Bool := false
  propOn : Bool := false
  prop : Nat := 0
  peerProp : Option Nat := none
  txDue : Option Nat := none
  rxDue : Option Nat := none
  fecAck : Bool := false
  fecTxDue : Bool := false
  fecRxDue : Bool := false
  fecRxLow : Bool := false
  loopReq : Bool := false
  /-- local tick at which the first valid hello with PEER_SEEN of this state came (R309) -/
  sawAt : Nat := 0
  refuses : Bool := false
  badRun : Nat := 0
  /-- a looping end has seen the AM from which it retransmits (R319) -/
  loops : Bool := false
  /-- uncorrectable codewords of the present 1 ms window, as (window, count) (R314) -/
  unc : Nat × Nat := (0, 0)
  deriving DecidableEq, Repr, Inhabited

/-- The SPDM link session of a port (R395 to R398): its export master secret, and whether this end is the requester. -/
structure LinkSession where
  ems : Bytes
  requester : Bool
  deriving DecidableEq, Repr, Inhabited

/-- What a logical port holds beyond its registers. -/
structure PortX where
  wire : Option Wire := none
  control : List Frame := []
  retx : List Nat := []
  retxAck : Option Nat := none
  episodeAt : Nat := 0
  /-- local ticks of the last ACKSEQ advance or retransmission, of the last frame sent, of the last try of a link session -/
  ackAt : Nat := 0
  sentAt : Nat := 0
  triedAt : Nat := 0
  ackOwed : Bool := false
  tx : List (Nat × Credit) := []
  rx : List (Nat × Credit) := []
  changed : List Nat := []
  /-- entries of CREDIT frames whose CRC passed in this tick, as (pair, GRANTED) (R334) -/
  creditsIn : List (Nat × Nat) := []
  tags : List (Nat × Nat) := []
  parts : Drr := {}
  classes : List (Nat × Drr) := []
  vtime : Nat := 0
  fprev : List (Nat × Nat) := []
  flow : List (Nat × Flowlet) := []
  slot : Option OpenSlot := none
  /-- the slot entry whose pause holds the slice (R160) -/
  waiting : Option OpenSlot := none
  /-- SCH_COUNT less the lag of the last slot that began (R161) -/
  begunAt : Option Nat := none
  txKey : List (Nat × LinkKey) := []
  /-- keyed partition × 4 + epoch -/
  rxKey : List (Nat × LinkKey) := []
  /-- states of the receive epochs of R397, keyed likewise: 0 EMPTY, 1 NEXT, 2 CURRENT, 3 RETIRED -/
  rxState : List (Nat × Nat) := []
  session : Option LinkSession := none
  hello : HelloX := {}
  /-- bytes of the frame stream that wait for a codeword (R297, R326) -/
  txBytes : Bytes := []
  /-- the last 31 bits of the test generator (R318; log entry 99) -/
  prbs : Nat := 2 ^ 31 - 1
  /-- the receiver's active lane list, the list it takes at the next AM, and whose payload comes next: the codeword counted from
  the last AM, and the place in the list (R297, R298, R316) -/
  rxActive : Nat := 0
  rxNext : Option Nat := none
  rxTurn : Option (Nat × Nat) := none
  /-- the latest 16 payloads of the stream received, oldest first, and whether each is errored (R297, R300; log entry 99) -/
  rxStream : List (Bytes × Bool) := []
  deriving DecidableEq, Repr, Inhabited

/-- An echo owed (R268). -/
structure EchoX where
  dest : Nat
  typ : Nat
  part : Nat
  cls : Nat
  ctx : Nat
  epoch : Nat
  mark : Nat
  count : Nat
  hi : Nat
  slice : Nat
  deriving DecidableEq, Repr, Inhabited

/-- What a receive lane holds beyond SLCn_LANEl_STAT (R302): valid headers in a row at an offset, the last 64 headers
(true: invalid), the count at which its last AM came (R298). -/
structure LaneX where
  trial : Nat := 0
  offset : Nat := 0
  window : List Bool := []
  am : Option Nat := none
  deriving DecidableEq, Repr, Inhabited

/-- The PCS of a lane (R296 to R299): the scrambler's last 58 bits, the first codeword of a pair that waits for the second, the
descrambler's last 58 bits, codewords since the last AM, and the payloads that wait to be put in order, each with its place
after the AM and whether it is errored. -/
structure PcsLane where
  txScr : Nat := 0
  held : Option (List Nat) := none
  rxScr : Nat := 0
  age : Option Nat := none
  queue : List (Nat × Bytes × Bool) := []
  deriving DecidableEq, Repr, Inhabited

/-- LEDs and the service button (R323 to R325, R475): LOCATE set by a press at a local tick, LED frames sent, the last one. -/
structure SvcX where
  locate : Bool := false
  pressedAt : Nat := 0
  frames : Nat := 0
  led : Bytes := []
  deriving DecidableEq, Repr, Inhabited

/-- What leaves the Y5, in the order it leaves. -/
inductive Output where
  | frame (port : Nat) (bytes : Bytes)
  /-- a completion entry written to completion ring q -/
  | completion (q : Nat) (bytes : Bytes)
  /-- a response payload written to host memory at an address -/
  | hostWrite (addr : Nat) (bytes : Bytes)
  | interrupt (vector : Nat)
  | smbus (bytes : Bytes)
  | vdm (bytes : Bytes)
  | led (bytes : Bytes)
  /-- a codeword's PAM4 levels on a transmit lane of the Y5 (R297); frames leave inside codewords, and `frame` says when each
  starts -/
  | codeword (lane : Nat) (levels : List (BitVec 2))
  /-- XSPI_RESET_N driven low for a time in ns (R478) -/
  | xspiReset (ns : Nat)
  deriving DecidableEq, Repr, Inhabited

end Sys2Proof.Machine
end

