-- ==== Sys2Proof/Machine/CmdRec.lean ====
section
/-! DEFINITION. What State holds of the command engine and of sessions beyond their registers (chapters 15 and 16). -/

namespace Sys2Proof.Machine

/-- The path a command came by: a host queue pair with the generation of its rings (a reset of the pair starts a new one),
or a CMD frame with its port and SRC. -/
inductive CmdPath where
  | host (q gen : Nat)
  | frame (port src : Nat)
  deriving DecidableEq, Repr, Inhabited

/-- Roles of R386. -/
inductive Role where
  | host
  | operator
  | tenant (p : Nat)
  | endpoint
  | peer
  | observer
  deriving DecidableEq, Repr, Inhabited

/-- A command taken: its path, whole packet, the session of its trailer, its role. -/
structure TakenX where
  path : CmdPath
  bytes : Bytes
  session : Option Nat := none
  role : Role := .observer
  deriving DecidableEq, Repr, Inhabited

/-- A CMD frame at the command input: port, SRC, payload, the local tick it was committed, and the copy in pool 16 that holds its
buffers and credits until it is taken (R375). -/
structure InbandX where
  port : Nat
  src : Nat
  bytes : Bytes
  tick : Nat
  copy : Option Nat := none
  deriving DecidableEq, Repr, Inhabited

/-- A host queue pair: slots read from the submission ring and not yet taken, as (local tick, 64 bytes); completion-ring
reservations; PHASE; generation (R366 to R368). -/
structure QueueX where
  slots : List (Nat × Bytes) := []
  reserved : Nat := 0
  phase : Bool := true
  gen : Nat := 0
  deriving DecidableEq, Repr, Inhabited

/-- A forwarding entry (R379): the issuer's FWD, the path back, the partition, the local tick of sending. -/
structure ForwardX where
  fwd : Nat
  cmd : TakenX
  sentAt : Nat
  deriving DecidableEq, Repr, Inhabited

/-- Work of a background command under way (R371, R381): the command and what is done when the work ends. -/
inductive Work where
  | store
  | fwChunk
  | fwEnd
  | svnCommit
  | settings
  | fwDiscard
  | recInstall
  | opkey
  deriving DecidableEq, Repr, Inhabited

/-- The command engine. -/
structure CmdX where
  queues : List (Nat × QueueX) := []
  inband : List InbandX := []
  taken : List TakenX := []
  forwards : List (Nat × ForwardX) := []
  work : List (TakenX × Work) := []
  deriving DecidableEq, Repr, Inhabited

/-- An SPDM session (R386, R392, R399): ID, role, export master secret, last SEQ accepted, the in-band requester, and the
port whose link session it is (R395). -/
structure SessionX where
  id : Nat
  role : Role
  ems : Bytes
  seq : Option Nat := none
  src : Option Nat := none
  link : Option Nat := none
  deriving DecidableEq, Repr, Inhabited

/-- A snapshot asked for and not yet captured (R420): its command, the count when it was taken, the slices, whether with
samples. -/
structure SnapAsk where
  cmd : TakenX
  count : Nat
  slices : Nat
  samples : Bool
  deriving DecidableEq, Repr, Inhabited

/-- The snapshot buffer. -/
structure TelX where
  asked : Option SnapAsk := none
  snap : Bytes := []
  deriving DecidableEq, Repr, Inhabited

/-- A removal in progress (R402, R403): its command, which is answered when it ends, and the local tick of its start. -/
structure RemovalX where
  part : Nat
  cmd : TakenX
  since : Nat := 0
  deriving DecidableEq, Repr, Inhabited

/-- Sessions, operator keys as (slot, both public keys), SPDM messages answered on each path (log entry 7), removals. -/
structure SecX where
  sessions : List SessionX := []
  opkeys : List (Nat × Bytes) := []
  spdm : List (Nat × Nat) := []
  removals : List RemovalX := []
  deriving DecidableEq, Repr, Inhabited

end Sys2Proof.Machine
end

