-- ==== Sys2Proof/Machine/CoreRec.lean ====
section
/-! DEFINITION. What State holds of one reduction core beyond its registers (chapter 7). -/

namespace Sys2Proof.Machine

/-- A destination of a write in flight (R173); a vector destination keeps the bytes marked `none`. -/
inductive Dst where
  | vec (k : Nat) (bytes : List (Option Byte))
  | scalar (k v : Nat)
  | address (k v : Nat)
  | predicate (k v : Nat)
  /-- REL of an engine raised to n (R222) -/
  | release (k n : Nat)
  deriving DecidableEq, Repr

/-- A bit error in a 64-bit word of core SRAM (R167): one bit, or more than SECDED corrects, and then the free value that
the word holds (log entries 1, 77). -/
structure SramUpset where
  both : Bool
  free : Nat
  deriving DecidableEq, Repr

/-- A write in flight: the cycle it falls in, the bundle that issued it, its destination and the slot of its operation. -/
structure PendWrite where
  due : Nat
  bundle : Nat
  dst : Dst
  slot : Nat := 0
  deriving DecidableEq, Repr

/-- A store not yet visible: the cycle from which loads see it (R166), its local address and bytes. -/
structure PendStore where
  due : Nat
  addr : Nat
  bytes : Bytes
  deriving DecidableEq, Repr

/-- A stream engine's descriptor (R177); DIR, CTX and TARGET stand in RCn_SEk_STAT. `asked` counts the tiles of an outbound
engine that have been offered, and `flights` lists, in order, the frames of them that COUNT has not passed, each as its group
(none where the target was absent) and its tiles (R179). -/
structure EngineX where
  mode : Nat := 0
  first : Nat := 0
  ntiles : Nat := 0
  tileBytes : Nat := 0
  base : Nat := 0
  ring : Nat := 0
  bundle : Nat := 0
  asked : Nat := 0
  flights : List (Option Nat × Nat) := []
  deriving DecidableEq, Repr

/-- The running program: context, epoch, partition, launch count, stage and binding entry (R183). -/
structure Running where
  ctx : Nat
  epoch : Nat
  part : Nat
  launch : Nat
  stage : Nat
  entry : Nat
  deriving DecidableEq, Repr

/-- A halt report in the making (R187, R188). -/
structure HaltRep where
  cause : Nat
  addr : Nat
  reason : Nat
  slot : Nat
  after : Bool
  info : Nat
  deriving DecidableEq, Repr

/-- A start pending for a binding entry, with the tick its launch began (R183) and the launch. -/
structure PendStart where
  entry : Nat
  tick : Nat
  launch : Nat
  deriving DecidableEq, Repr

/-- A drain point that a row of its own issued and that waits (R176): its slot, opcode, bits [25:0] and EXT. -/
structure RowWait where
  slot : Nat
  opcode : Nat
  w : Nat
  ext : Nat
  deriving DecidableEq, Repr

/-- One core. `halting` is set once a halt is certain and stays until every issued operation has written (R226).
`slept` is the state a sleep halt left (R193), 0 when none, with WAIT_SE + 4 × WAIT_DRAIN and the STEP under way as they
stood then in `sleptWait` and `sleptStep`. `ended` says that END issued under STEP: the core is halted with
its program over (R184, R189). `pcOver` says that the next bundle lies at 0x1_0000 + PC, above the code region (R195). -/
structure CoreX where
  writes : List PendWrite := []
  stores : List PendStore := []
  divFree : Nat := 0
  phloxFree : Nat := 0
  dotFree : Nat := 0
  engines : List EngineX := [{}, {}, {}, {}]
  starts : List PendStart := []
  run : Option Running := none
  halting : Option HaltRep := none
  stepping : Bool := false
  skipBreak : Bool := false
  slept : Nat := 0
  sleptWait : Nat := 0
  sleptStep : Bool := false
  ended : Bool := false
  pcOver : Bool := false
  waitOp : Option RowWait := none
  deriving DecidableEq, Repr

end Sys2Proof.Machine
end

