-- ==== Sys2Proof/Machine/CtxRec.lean ====
section
/-! DEFINITION. What State holds of contexts and of the Marigold engine beyond their registers (chapters 2, 5 and 6). -/

namespace Sys2Proof.Machine

/-- A result frame hashed at its commit (R46, R47). -/
structure Leaf where
  slice : Nat
  dest : Nat
  tile : Nat
  digest : Bytes
  deriving DecidableEq, Repr, Inhabited

/-- A token's route word kept for the combine launch of one launch count (R126): source rank, token, experts, and the combine
slots arrived, as (slot, weight, row). Those of another Y5's tokens that were delivered here are kept for check 10 of R134. -/
structure TokenX where
  launch : Nat
  owner : Nat
  token : Nat
  experts : List Nat
  got : List (Nat × Nat × Bytes) := []
  done : Bool := false
  deriving DecidableEq, Repr, Inhabited

/-- What a local member has sent (R129, R130): the launch of its last accepted frame, the tile after it, and whether that frame
held the last token of a MOE_DISPATCH source (R125; log entry 16). -/
structure InPos where
  launch : Nat := 0
  next : Nat := 0
  last : Bool := false
  deriving DecidableEq, Repr, Inhabited

/-- The run-time state of a context beyond its registers. `active` says a launch is in progress, begun at count `began`;
`armedAt` and `endedAt` are local ticks; `base` is the START its ARM took and `index` counts the launches of the arming begun.
Counts of tiles in `got` and `sent` run over the whole binding: each launch adds the same number to each (R121, R487), so that
they say which launch a frame belongs to. -/
structure CtxRun where
  active : Bool := false
  began : Nat := 0
  /-- local tick at which the launch in progress began (R138) -/
  startedAt : Nat := 0
  base : Nat := 0
  index : Nat := 0
  armedAt : Nat := 0
  deferred : Bool := false
  heldBack : Bool := false
  /-- first launch that is not released from the slot clock (R163) -/
  released : Nat := 0
  timedOut : Bool := false
  endedAt : Option Nat := none
  /-- what each local member has sent, by edge port, and the launches that are over for it (R130) -/
  inAt : List (Nat × InPos) := []
  relAt : List (Nat × Nat) := []
  /-- next result tile of each local member (R133) and result tiles committed to it, by edge port -/
  nextOut : List (Nat × Nat) := []
  results : List (Nat × Nat) := []
  /-- tiles accepted from each other Y5 and committed to each: by coordinates, plus 4,096 for a parent, plus 8,192 for COLL_EXP;
  those of an ALLTOALL and the DISPATCH_END frames by 2^20 + source rank × 32 + edge port -/
  got : List (Nat × Nat) := []
  sent : List (Nat × Nat) := []
  /-- tiles of ranges that carry nothing (R487), as (first tile, tiles) -/
  empty : List (Nat × Nat) := []
  /-- frames of a BARRIER accepted by input, and launches of it passed on (R112, R487) -/
  arrived : List (Nat × Nat) := []
  fired : Nat := 0
  /-- class 7 frames sent, by launch × 256 + port (R157) -/
  sent7 : List (Nat × Nat) := []
  leaves : List Leaf := []
  /-- source rank whose tokens are delivered next (R125), by edge port -/
  turn : List (Nat × Nat) := []
  /-- DISPATCH_END frames committed by edge port, tokens committed by edge port × 2^17 + source rank -/
  ends : List (Nat × Nat) := []
  given : List (Nat × Nat) := []
  /-- tokens sent by a local source to each destination rank in the launch: source rank × 2^17 + destination rank -/
  tokens : List (Nat × Nat) := []
  /-- route words kept by a combine context, and the combine tiles each local member owes, by launch × 32 + edge port (R126) -/
  words : List TokenX := []
  slots : List (Nat × Nat) := []
  /-- UNBIND ticks, local, by epoch since the last reset (R113), the last epoch used -/
  unbinds : List (Nat × Nat) := []
  lastEpoch : Option Nat := none
  deriving DecidableEq, Repr, Inhabited

/-- A launch that completed or was aborted in the present record window (R44). -/
structure Finished where
  ctx : Nat
  epoch : Nat
  group : Nat
  mode : Nat
  launch : Nat
  status : Nat
  began : Nat
  digest : Bytes
  deriving DecidableEq, Repr, Inhabited

/-- An abort that has reached a Running context and whose outcome the end of the tick's data path decides (R119, R357). -/
structure AbortX where
  ctx : Nat
  rsn : Nat
  except : Option Nat
  deriving DecidableEq, Repr, Inhabited

/-- What the commands of one tick for a context can change (R118): its registers, its run-time state, its aborts under way,
and whether an UNBIND has still to free what it held. -/
structure CtxView where
  regs : List (Nat × BitVec 64)
  shadow : List (Nat × BitVec 64)
  run : CtxRun
  aborts : List AbortX
  unbound : Bool
  deriving DecidableEq, Repr, Inhabited

/-- An accepted checkpoint (R56): its command, whether the record went Off before its entry was appended, and once it is
appended: SEQ, chain value and contract digest then, and the count of the append. -/
structure CheckpointX where
  cmd : TakenX
  nonce : Bytes
  void : Bool := false
  entry : Option (Nat × Bytes × Bytes × Nat) := none
  deriving DecidableEq, Repr, Inhabited

/-- A queued entry: its 64 bytes, the chain value before it, and whether it begins a chain (R48). -/
structure QueuedX where
  chain : Bytes
  entry : Bytes
  first : Bool := false
  deriving DecidableEq, Repr, Inhabited

/-- A drain payload sent or read and not acknowledged (R53 to R55): its serial, the entries of it still queued, payload. -/
structure DrainX where
  serial : Nat
  entries : Nat
  payload : Bytes
  /-- local tick of the last sending (R54) -/
  sentAt : Nat := 0
  deriving DecidableEq, Repr, Inhabited

/-- The schedule counter's state beyond its registers (R141, R146 to R150). Offsets are in 1/16 tk, newest first. -/
structure SyncX where
  armed : Bool := false
  /-- a load of own count plus these ticks at the last tick of the epoch (R146) -/
  load : Option Int := none
  corr : Int := 0
  thetas : List Int := []
  phis : List Int := []
  good : Nat := 0
  far : Nat := 0
  /-- epoch of the outstanding exchange, and its t1 in 1/16 tk once sent -/
  asked : Option Nat := none
  t1 : Option Nat := none
  lastPulse : Option Nat := none
  holdAt : Nat := 0
  drifted : Bool := false
  /-- ticks the counter still holds (R141) -/
  hold : Nat := 0
  /-- the first count that this tick reached: it counts from there up to SCH_COUNT as new (R142) -/
  since : Nat := 0
  deriving DecidableEq, Repr, Inhabited

/-- The record of a partition. `running` says a chain takes entries, `appended` that it holds one; `changedAt` is the
tick of the last change of a contract term in the present window (R45); `held` are entries held back (R488). -/
structure MgX where
  queue : List QueuedX := []
  finished : List Finished := []
  checkpoints : List CheckpointX := []
  held : List Bytes := []
  drains : List DrainX := []
  serial : Nat := 0
  running : Bool := false
  appended : Bool := false
  changedAt : Option Nat := none
  deriving DecidableEq, Repr, Inhabited

end Sys2Proof.Machine
end

