-- ==== Sys2Proof/Machine/FaultRec.lean ====
section
/-! DEFINITION. What State holds of the fault collector beyond its registers (chapter 17). -/

namespace Sys2Proof.Machine

/-- A raise between its source and the collector (R407): source ID, instance code, tick and INFO bytes. -/
structure Report where
  src : Nat
  inst : Nat
  tick : Nat
  info : Bytes
  injected : Bool
  deriving DecidableEq, Repr

/-- An event entry (R416). -/
structure Event where
  tick : Nat
  seq : Nat
  src : Nat
  sev : Nat
  injected : Bool
  reraise : Bool
  safe : Bool
  inst : Nat
  info : Bytes
  deriving DecidableEq, Repr

/-- The collector: raises under way, the entry FIFO oldest first, the entries waiting in the input buffer, the number
created in this tick (R418), the instances each source holds contained (R410), whether the check bits of the configuration
are bad and which of FC_SEVk (0 to 3), FC_ERR (4) and FC_CTRL (5) have been written again since (R414), severities
replaced in this tick as (register, local tick, old value) (R409), the local tick at which the ERR_N pulse began, and the injection armed as (checker, instance, MODE). -/
structure FaultX where
  wires : List Report := []
  fifo : List Event := []
  waiting : List Event := []
  made : Nat := 0
  held : List (Nat × Nat) := []
  selfBad : Bool := false
  rewritten : List Nat := []
  oldSev : List (Nat × Nat × Nat) := []
  inject : Option (Nat × Nat × Nat) := none
  pulseAt : Nat := 0
  deriving DecidableEq, Repr

end Sys2Proof.Machine
end

