-- ==== Sys2Proof/Machine/PwrRec.lean ====
section
/-! DEFINITION. What State holds of the supervisor, the slices' power and the resets beyond their registers
(chapter 18). -/

namespace Sys2Proof.Machine

/-- A change of a slice's effective level under way (R429): the level, its AT, whether performance rises, and whether
another change waits for it. -/
structure LevelX where
  target : Nat
  at_ : Nat
  rises : Bool
  next : Option Nat := none
  deriving DecidableEq, Repr, Inhabited

/-- A committed change of sleep state that waits for its AT: S1 to S3 as 1 to 3 (R428, R432). -/
structure SleepX where
  target : Nat
  at_ : Nat
  deriving DecidableEq, Repr, Inhabited

/-- A committed wake (R433): its slice, the state it leaves (1 to 3), its AT. -/
structure WakeX where
  slice : Nat
  was : Nat
  at_ : Nat
  deriving DecidableEq, Repr, Inhabited

/-- Consecutive junction readings of a slice at or above THROTTLE, and below THROTTLE - 5 (R431). -/
structure ThermX where
  hot : Nat := 0
  cool : Nat := 0
  deriving DecidableEq, Repr, Inhabited

/-- Resets by command that wait 100 µs, each with the count of its write (R439): device warm reset, MP reset, slice resets
by slice. `power` holds the cause bit of a power-on reset still to begin (R436, R439). -/
structure ResetsX where
  warm : Option Nat := none
  mp : Option Nat := none
  slices : List (Nat × Nat) := []
  power : Option Nat := none
  deriving DecidableEq, Repr, Inhabited

/-- The supervisor and the clocks. `shutdown` says that only POWER_CYCLE or VIN_12V starts the device again (R431); `slot`
is the slice whose rails ramp (R433); `waking` lists waking slices with the state they left, `awakeAt` with the local tick at
which their last wake step passes; `entering` says that the
standby rail sequence runs (R435); `now` counts local ticks (R7) and `kicked` is its value at the last watchdog kick
(R442). -/
structure PwrX where
  refLost : Bool := false
  pllLost : Bool := false
  shutdown : Bool := false
  entering : Bool := false
  levels : List (Nat × LevelX) := []
  sleeps : List (Nat × SleepX) := []
  wakes : List WakeX := []
  slot : Option Nat := none
  waking : List (Nat × Nat) := []
  awakeAt : List (Nat × Nat) := []
  therm : List (Nat × ThermX) := []
  due : ResetsX := {}
  now : Nat := 0
  kicked : Nat := 0
  deriving DecidableEq, Repr, Inhabited

end Sys2Proof.Machine
end

