-- ==== Sys2Proof/Machine/RegMap.lean ====
section
/-! DEFINITION. The register maps of the manual (R8, R11, R378 and the map of each chapter): every register's name,
offset, strides and counts, and every field's bits and access code, transcribed from the maps. Index letters are
dropped from a name; a register's places are numbered i, j, k in the order block, then left to right. -/

namespace Sys2Proof.Machine

/-- Access codes of R8. -/
inductive Access where
  | ro | rw | rwc | w1c | w1s | wo | ros
  deriving DecidableEq, Repr

/-- The registers of the maps. -/
inductive RegName where
  | GLB_REPLAY_CLASS
  | GLB_DISABLED_SLICE
  | GLB_DISABLED_PORT
  | GLB_DISABLED_CORE
  | GLB_FMASK_SLICE
  | GLB_FMASK_PORT
  | GLB_FMASK_CORE
  | GLB_MG_MODE
  | GLB_MG_SEQ
  | GLB_MG_LOST
  | GLB_MG_FILL
  | GLB_MG_DRAIN_DEST
  | GLB_MG_DRAIN_TMO
  | GLB_MG_HEAD_CHAIN
  | GLB_MG_TAIL_CHAIN
  | GLB_MG_CONTRACT
  | SCH_CTX_CFG
  | SCH_CTX_GROUP
  | SCH_CTX_PRESENT0
  | SCH_CTX_PRESENT1
  | SCH_CTX_START
  | SCH_CTX_CMD
  | SCH_CTX_COMMIT
  | SCH_CTX_STATUS
  | SCH_CTX_LAUNCH
  | SCH_CTX_CLAMP
  | SCH_CTX_STALE
  | SCH_CTX_REJECT
  | SCH_CTX_TMO
  | SCH_COUNT
  | SCH_SYNC_CFG
  | SCH_SYNC_STATUS
  | SCH_LOAD
  | SCH_LOAD_CMD
  | SCH_OFFSET
  | SCH_PATH_DELAY
  | SCH_PULSE_OFS
  | SCH_CORR
  | SCH_ASYM
  | SCH_ROUND_CFG
  | SCH_LAG
  | SCH_SLIP
  | SCH_PAUSE
  | SCH_SLOT
  | SCH_CTX_PERIOD
  | RC_ID
  | RC_CTRL
  | RC_STATUS
  | RC_PC
  | RC_HALT
  | RC_CYCLE
  | RC_BREAK
  | RC_ECC
  | RC_PEND
  | RC_BIND
  | RC_SE_STAT
  | RC_SE_COUNT
  | RC_S
  | RC_A
  | RC_P
  | RC_V
  | SLC_BUF_CTRL
  | SLC_DRAIN
  | SLC_DROP
  | SLC_POOL_CFG
  | SLC_POOL_STAT
  | SLC_POOL_ERR
  | SLC_POOL_AUDIT
  | SLC_POOL_CMD
  | SLC_STAGE
  | SLC_QTHR
  | SLC_RT_CFG
  | SLC_RT_FLOW
  | SLC_RT_CMD
  | SLC_RT_STATUS
  | SLC_RT_ORD
  | SLC_RT_HIT
  | SLC_RT_MISS
  | SLC_RT_COLLIDE
  | SLC_RT_EXPIRE
  | SLC_RT_ECHO_RX
  | SLC_RT_ECHO_TX
  | SLC_EDGE
  | SLC_NBR
  | SLC_NBRM
  | SLC_C7RT
  | SCH_CTX_RATE
  | SCH_CTX_RLIM
  | SLC_SCHED_CFG
  | SLC_SHP_COMMIT
  | SLC_QSAMP_CMD
  | SLC_PWGT
  | SLC_CWGT
  | SLC_PSHP
  | SLC_TSHP
  | SLC_POLMAP
  | SLC_QSHP
  | SLC_POL_CFG
  | SLC_POL_SIZE
  | SLC_POL_TOK
  | SLC_POL_GREEN
  | SLC_POL_YELLOW
  | SLC_POL_RED
  | SLC_QCOL
  | SLC_QSAMP
  | SLC_QMAX
  | SLC_TXF
  | SLC_TXB
  | SLC_RXF
  | SLC_RXB
  | SLC_MARK
  | SLC_RXD
  | SLC_TXD
  | SLC_STALL
  | SLC_PORT_CFG
  | SLC_PORT_EPID
  | SLC_PORT_CTRL
  | SLC_PORT_TMR
  | SLC_PORT_STAT
  | SLC_PORT_PEER0
  | SLC_PORT_PEER1
  | SLC_PORT_PEER2
  | SLC_PORT_PEER3
  | SLC_PORT_PDIG
  | SLC_PORT_RTT
  | SLC_PORT_FREQ
  | SLC_PORT_CORR
  | SLC_PORT_UNCORR
  | SLC_PORT_CW
  | SLC_PORT_TEST
  | SLC_LANE_STAT
  | SLC_LSR_CTRL
  | SLC_LSR_STAT
  | SLC_LNK_CFG
  | SLC_WLK_CFG
  | SLC_WLK_STAT
  | SLC_WLK_EPIS
  | SLC_WLK_RETX
  | SLC_WLK_DISC
  | SLC_WLK_NACK
  | SLC_WLK_MAXEP
  | SLC_WLK_TAG
  | SLC_WLK_TAGREJ
  | SLC_WLK_TAGSTRAY
  | SLC_CRD
  | CFG_STAGE_STAT
  | CFG_STAGE_CTRL
  | CFG_ERR_LOC
  | CFG_COMMIT_AT
  | CFG_COMMIT_CTRL
  | CFG_COMMIT_STAT
  | CFG_COMMIT_TICK
  | CFG_COMMITS
  | CFG_PART_DEFINED
  | CFG_DEV_DIGEST
  | CFG_STAGED_DIGEST
  | CFG_PART_DIGEST
  | GLB_ID
  | GLB_SERIAL
  | GLB_FW_VERSION
  | GLB_FW_DIGEST
  | GLB_STATUS
  | GLB_SCRATCH
  | MGT_HP_STAT
  | MGT_FWD_CFG
  | MGT_FWD_STAT
  | MGT_BOARD
  | MGT_SQ_BASE
  | MGT_SQ_CFG
  | MGT_SQ_TAIL
  | MGT_SQ_HEAD
  | MGT_CQ_BASE
  | MGT_CQ_CFG
  | MGT_CQ_HEAD
  | MGT_CQ_TAIL
  | MGT_QP_CTRL
  | MGT_QP_STAT
  | SEC_POLICY
  | SEC_FUSE
  | SEC_DEBUG
  | SEC_SESSIONS
  | SEC_OPKEY
  | SEC_OPKEY_DIG
  | SEC_PART_STAT
  | SEC_PART_RM
  | SEC_PART_DROP
  | SEC_LKEY
  | SEC_PVIOL
  | FC_CTRL
  | FC_ERR
  | FC_SAFE
  | FC_INJ
  | FC_STAT
  | FC_SEV
  | FC_EVQ_STAT
  | FC_EVQ_LOST
  | FC_QECC
  | FC_SRC_CNT
  | FC_SRC_FIRST
  | FC_SRC_INST
  | TEL_SNAP_STAT
  | TEL_SNAP_TICK
  | PWR_STATUS
  | PWR_RST_CAUSE
  | PWR_RST_CMD
  | PWR_STANDBY
  | PWR_CAP_CFG
  | PWR_CAP_STAT
  | PWR_VIN
  | PWR_WDT
  | PWR_THERM
  | PWR_COMMIT
  | PWR_SLICE_REQ
  | PWR_SLICE_AT
  | PWR_SLICE_STAT
  | PWR_SLICE_TEMP
  | PWR_RAIL_STAT
  | GLB_BOOT_STAT
  | GLB_BOOT_CTRL
  | GLB_BOOT_TIMER
  | GLB_FW_SLOT
  | GLB_FW_SLOT_VER
  | GLB_FW_STAGE
  | GLB_FW_STAGE_VER
  | GLB_FW_RELAY
  deriving DecidableEq, Repr

/-- One register of a map: base offset in the chip window, stride and count of each index, width in bits. -/
structure RegRow where
  base : Nat
  s1 : Nat
  c1 : Nat
  s2 : Nat
  c2 : Nat
  s3 : Nat
  c3 : Nat
  width : Nat
  deriving DecidableEq, Repr

/-- The row of each register. -/
def RegName.row : RegName → RegRow
  | .GLB_REPLAY_CLASS => ⟨0x100, 0x0, 1, 0x0, 1, 0x0, 1, 64⟩
  | .GLB_DISABLED_SLICE => ⟨0x108, 0x0, 1, 0x0, 1, 0x0, 1, 32⟩
  | .GLB_DISABLED_PORT => ⟨0x110, 0x4, 8, 0x0, 1, 0x0, 1, 32⟩
  | .GLB_DISABLED_CORE => ⟨0x130, 0x4, 16, 0x0, 1, 0x0, 1, 32⟩
  | .GLB_FMASK_SLICE => ⟨0x170, 0x0, 1, 0x0, 1, 0x0, 1, 32⟩
  | .GLB_FMASK_PORT => ⟨0x178, 0x4, 8, 0x0, 1, 0x0, 1, 32⟩
  | .GLB_FMASK_CORE => ⟨0x198, 0x4, 16, 0x0, 1, 0x0, 1, 32⟩
  | .GLB_MG_MODE => ⟨0x1000, 0x100, 16, 0x0, 1, 0x0, 1, 32⟩
  | .GLB_MG_SEQ => ⟨0x1008, 0x100, 16, 0x0, 1, 0x0, 1, 64⟩
  | .GLB_MG_LOST => ⟨0x1010, 0x100, 16, 0x0, 1, 0x0, 1, 32⟩
  | .GLB_MG_FILL => ⟨0x1014, 0x100, 16, 0x0, 1, 0x0, 1, 32⟩
  | .GLB_MG_DRAIN_DEST => ⟨0x1018, 0x100, 16, 0x0, 1, 0x0, 1, 32⟩
  | .GLB_MG_DRAIN_TMO => ⟨0x101C, 0x100, 16, 0x0, 1, 0x0, 1, 32⟩
  | .GLB_MG_HEAD_CHAIN => ⟨0x1020, 0x100, 16, 0x8, 4, 0x0, 1, 64⟩
  | .GLB_MG_TAIL_CHAIN => ⟨0x1040, 0x100, 16, 0x8, 4, 0x0, 1, 64⟩
  | .GLB_MG_CONTRACT => ⟨0x1060, 0x100, 16, 0x8, 4, 0x0, 1, 64⟩
  | .SCH_CTX_CFG => ⟨0x580000, 0x80, 4096, 0x0, 1, 0x0, 1, 64⟩
  | .SCH_CTX_GROUP => ⟨0x580008, 0x80, 4096, 0x0, 1, 0x0, 1, 64⟩
  | .SCH_CTX_PRESENT0 => ⟨0x580010, 0x80, 4096, 0x0, 1, 0x0, 1, 64⟩
  | .SCH_CTX_PRESENT1 => ⟨0x580018, 0x80, 4096, 0x0, 1, 0x0, 1, 64⟩
  | .SCH_CTX_START => ⟨0x580020, 0x80, 4096, 0x0, 1, 0x0, 1, 64⟩
  | .SCH_CTX_CMD => ⟨0x580028, 0x80, 4096, 0x0, 1, 0x0, 1, 32⟩
  | .SCH_CTX_COMMIT => ⟨0x58002C, 0x80, 4096, 0x0, 1, 0x0, 1, 32⟩
  | .SCH_CTX_STATUS => ⟨0x580030, 0x80, 4096, 0x0, 1, 0x0, 1, 64⟩
  | .SCH_CTX_LAUNCH => ⟨0x580038, 0x80, 4096, 0x0, 1, 0x0, 1, 64⟩
  | .SCH_CTX_CLAMP => ⟨0x580040, 0x80, 4096, 0x0, 1, 0x0, 1, 32⟩
  | .SCH_CTX_STALE => ⟨0x580044, 0x80, 4096, 0x0, 1, 0x0, 1, 32⟩
  | .SCH_CTX_REJECT => ⟨0x580048, 0x80, 4096, 0x0, 1, 0x0, 1, 32⟩
  | .SCH_CTX_TMO => ⟨0x58004C, 0x80, 4096, 0x0, 1, 0x0, 1, 32⟩
  | .SCH_COUNT => ⟨0x500000, 0x0, 1, 0x0, 1, 0x0, 1, 64⟩
  | .SCH_SYNC_CFG => ⟨0x500008, 0x0, 1, 0x0, 1, 0x0, 1, 32⟩
  | .SCH_SYNC_STATUS => ⟨0x50000C, 0x0, 1, 0x0, 1, 0x0, 1, 32⟩
  | .SCH_LOAD => ⟨0x500010, 0x0, 1, 0x0, 1, 0x0, 1, 64⟩
  | .SCH_LOAD_CMD => ⟨0x500018, 0x0, 1, 0x0, 1, 0x0, 1, 32⟩
  | .SCH_OFFSET => ⟨0x500020, 0x0, 1, 0x0, 1, 0x0, 1, 32⟩
  | .SCH_PATH_DELAY => ⟨0x500024, 0x0, 1, 0x0, 1, 0x0, 1, 32⟩
  | .SCH_PULSE_OFS => ⟨0x500028, 0x0, 1, 0x0, 1, 0x0, 1, 32⟩
  | .SCH_CORR => ⟨0x50002C, 0x0, 1, 0x0, 1, 0x0, 1, 32⟩
  | .SCH_ASYM => ⟨0x500030, 0x0, 1, 0x0, 1, 0x0, 1, 32⟩
  | .SCH_ROUND_CFG => ⟨0x500040, 0x0, 1, 0x0, 1, 0x0, 1, 32⟩
  | .SCH_LAG => ⟨0x500100, 0x10, 16, 0x0, 1, 0x0, 1, 64⟩
  | .SCH_SLIP => ⟨0x500108, 0x10, 16, 0x0, 1, 0x0, 1, 32⟩
  | .SCH_PAUSE => ⟨0x50010C, 0x10, 16, 0x0, 1, 0x0, 1, 32⟩
  | .SCH_SLOT => ⟨0x540000, 0x400, 256, 0x8, 128, 0x0, 1, 64⟩
  | .SCH_CTX_PERIOD => ⟨0x580050, 0x80, 4096, 0x0, 1, 0x0, 1, 32⟩
  | .RC_ID => ⟨0x2000000, 0x10000, 512, 0x0, 1, 0x0, 1, 32⟩
  | .RC_CTRL => ⟨0x2000004, 0x10000, 512, 0x0, 1, 0x0, 1, 32⟩
  | .RC_STATUS => ⟨0x2000008, 0x10000, 512, 0x0, 1, 0x0, 1, 32⟩
  | .RC_PC => ⟨0x200000C, 0x10000, 512, 0x0, 1, 0x0, 1, 32⟩
  | .RC_HALT => ⟨0x2000010, 0x10000, 512, 0x0, 1, 0x0, 1, 64⟩
  | .RC_CYCLE => ⟨0x2000018, 0x10000, 512, 0x0, 1, 0x0, 1, 64⟩
  | .RC_BREAK => ⟨0x2000020, 0x10000, 512, 0x0, 1, 0x0, 1, 32⟩
  | .RC_ECC => ⟨0x2000024, 0x10000, 512, 0x0, 1, 0x0, 1, 32⟩
  | .RC_PEND => ⟨0x2000028, 0x10000, 512, 0x0, 1, 0x0, 1, 32⟩
  | .RC_BIND => ⟨0x2000100, 0x10000, 512, 0x8, 16, 0x0, 1, 64⟩
  | .RC_SE_STAT => ⟨0x2000200, 0x10000, 512, 0x10, 4, 0x0, 1, 64⟩
  | .RC_SE_COUNT => ⟨0x2000208, 0x10000, 512, 0x10, 4, 0x0, 1, 64⟩
  | .RC_S => ⟨0x2001000, 0x10000, 512, 0x8, 32, 0x0, 1, 64⟩
  | .RC_A => ⟨0x2001100, 0x10000, 512, 0x4, 16, 0x0, 1, 32⟩
  | .RC_P => ⟨0x2001140, 0x10000, 512, 0x8, 8, 0x0, 1, 64⟩
  | .RC_V => ⟨0x2004000, 0x10000, 512, 0x100, 64, 0x4, 64, 32⟩
  | .SLC_BUF_CTRL => ⟨0x1040000, 0x100000, 16, 0x0, 1, 0x0, 1, 32⟩
  | .SLC_DRAIN => ⟨0x1040008, 0x100000, 16, 0x0, 1, 0x0, 1, 64⟩
  | .SLC_DROP => ⟨0x1040040, 0x100000, 16, 0x4, 16, 0x0, 1, 32⟩
  | .SLC_POOL_CFG => ⟨0x1040100, 0x100000, 16, 0x20, 17, 0x0, 1, 64⟩
  | .SLC_POOL_STAT => ⟨0x1040108, 0x100000, 16, 0x20, 17, 0x0, 1, 64⟩
  | .SLC_POOL_ERR => ⟨0x1040110, 0x100000, 16, 0x20, 17, 0x0, 1, 32⟩
  | .SLC_POOL_AUDIT => ⟨0x1040114, 0x100000, 16, 0x20, 17, 0x0, 1, 32⟩
  | .SLC_POOL_CMD => ⟨0x1040118, 0x100000, 16, 0x20, 17, 0x0, 1, 32⟩
  | .SLC_STAGE => ⟨0x1040400, 0x100000, 16, 0x8, 16, 0x0, 1, 64⟩
  | .SLC_QTHR => ⟨0x1050000, 0x100000, 16, 0x8, 2048, 0x0, 1, 64⟩
  | .SLC_RT_CFG => ⟨0x1060000, 0x100000, 16, 0x0, 1, 0x0, 1, 64⟩
  | .SLC_RT_FLOW => ⟨0x1060008, 0x100000, 16, 0x0, 1, 0x0, 1, 32⟩
  | .SLC_RT_CMD => ⟨0x106000C, 0x100000, 16, 0x0, 1, 0x0, 1, 32⟩
  | .SLC_RT_STATUS => ⟨0x1060010, 0x100000, 16, 0x0, 1, 0x0, 1, 32⟩
  | .SLC_RT_ORD => ⟨0x1060040, 0x100000, 16, 0x4, 16, 0x0, 1, 32⟩
  | .SLC_RT_HIT => ⟨0x1060080, 0x100000, 16, 0x0, 1, 0x0, 1, 32⟩
  | .SLC_RT_MISS => ⟨0x1060084, 0x100000, 16, 0x0, 1, 0x0, 1, 32⟩
  | .SLC_RT_COLLIDE => ⟨0x1060088, 0x100000, 16, 0x0, 1, 0x0, 1, 32⟩
  | .SLC_RT_EXPIRE => ⟨0x106008C, 0x100000, 16, 0x0, 1, 0x0, 1, 32⟩
  | .SLC_RT_ECHO_RX => ⟨0x1060090, 0x100000, 16, 0x0, 1, 0x0, 1, 32⟩
  | .SLC_RT_ECHO_TX => ⟨0x1060094, 0x100000, 16, 0x0, 1, 0x0, 1, 32⟩
  | .SLC_EDGE => ⟨0x1060100, 0x100000, 16, 0x4, 32, 0x0, 1, 32⟩
  | .SLC_NBR => ⟨0x1060200, 0x100000, 16, 0x80, 3, 0x8, 16, 64⟩
  | .SLC_NBRM => ⟨0x1060400, 0x100000, 16, 0x40, 3, 0x4, 16, 32⟩
  | .SLC_C7RT => ⟨0x1070000, 0x100000, 16, 0x8, 8192, 0x0, 1, 64⟩
  | .SCH_CTX_RATE => ⟨0x580058, 0x80, 4096, 0x0, 1, 0x0, 1, 32⟩
  | .SCH_CTX_RLIM => ⟨0x58005C, 0x80, 4096, 0x0, 1, 0x0, 1, 32⟩
  | .SLC_SCHED_CFG => ⟨0x1080000, 0x100000, 16, 0x0, 1, 0x0, 1, 32⟩
  | .SLC_SHP_COMMIT => ⟨0x1080004, 0x100000, 16, 0x0, 1, 0x0, 1, 32⟩
  | .SLC_QSAMP_CMD => ⟨0x1080008, 0x100000, 16, 0x0, 1, 0x0, 1, 32⟩
  | .SLC_PWGT => ⟨0x1080010, 0x100000, 16, 0x8, 2, 0x0, 1, 64⟩
  | .SLC_CWGT => ⟨0x1080100, 0x100000, 16, 0x8, 16, 0x0, 1, 64⟩
  | .SLC_PSHP => ⟨0x1080200, 0x100000, 16, 0x8, 16, 0x0, 1, 64⟩
  | .SLC_TSHP => ⟨0x1080400, 0x100000, 16, 0x80, 16, 0x8, 16, 64⟩
  | .SLC_POLMAP => ⟨0x1081000, 0x100000, 16, 0x80, 16, 0x8, 16, 64⟩
  | .SLC_QSHP => ⟨0x1084000, 0x100000, 16, 0x8, 2048, 0x0, 1, 64⟩
  | .SLC_POL_CFG => ⟨0x1090000, 0x100000, 16, 0x40, 256, 0x0, 1, 64⟩
  | .SLC_POL_SIZE => ⟨0x1090008, 0x100000, 16, 0x40, 256, 0x0, 1, 64⟩
  | .SLC_POL_TOK => ⟨0x1090010, 0x100000, 16, 0x40, 256, 0x0, 1, 64⟩
  | .SLC_POL_GREEN => ⟨0x1090018, 0x100000, 16, 0x40, 256, 0x0, 1, 64⟩
  | .SLC_POL_YELLOW => ⟨0x1090020, 0x100000, 16, 0x40, 256, 0x0, 1, 64⟩
  | .SLC_POL_RED => ⟨0x1090028, 0x100000, 16, 0x40, 256, 0x0, 1, 64⟩
  | .SLC_QCOL => ⟨0x10A0000, 0x100000, 16, 0x8, 2048, 0x0, 1, 64⟩
  | .SLC_QSAMP => ⟨0x10A4000, 0x100000, 16, 0x8, 2048, 0x0, 1, 64⟩
  | .SLC_QMAX => ⟨0x10A8000, 0x100000, 16, 0x8, 2048, 0x0, 1, 64⟩
  | .SLC_TXF => ⟨0x10C0000, 0x100000, 16, 0x200, 16, 0x40, 8, 64⟩
  | .SLC_TXB => ⟨0x10C0008, 0x100000, 16, 0x200, 16, 0x40, 8, 64⟩
  | .SLC_RXF => ⟨0x10C0010, 0x100000, 16, 0x200, 16, 0x40, 8, 64⟩
  | .SLC_RXB => ⟨0x10C0018, 0x100000, 16, 0x200, 16, 0x40, 8, 64⟩
  | .SLC_MARK => ⟨0x10C0020, 0x100000, 16, 0x200, 16, 0x40, 8, 64⟩
  | .SLC_RXD => ⟨0x10C0028, 0x100000, 16, 0x200, 16, 0x40, 8, 64⟩
  | .SLC_TXD => ⟨0x10C0030, 0x100000, 16, 0x200, 16, 0x40, 8, 64⟩
  | .SLC_STALL => ⟨0x10C2000, 0x100000, 16, 0x40, 16, 0x8, 5, 64⟩
  | .SLC_PORT_CFG => ⟨0x1000000, 0x100000, 16, 0x100, 16, 0x0, 1, 64⟩
  | .SLC_PORT_EPID => ⟨0x1000008, 0x100000, 16, 0x100, 16, 0x0, 1, 64⟩
  | .SLC_PORT_CTRL => ⟨0x1000010, 0x100000, 16, 0x100, 16, 0x0, 1, 32⟩
  | .SLC_PORT_TMR => ⟨0x1000014, 0x100000, 16, 0x100, 16, 0x0, 1, 32⟩
  | .SLC_PORT_STAT => ⟨0x1000018, 0x100000, 16, 0x100, 16, 0x0, 1, 64⟩
  | .SLC_PORT_PEER0 => ⟨0x1000020, 0x100000, 16, 0x100, 16, 0x0, 1, 64⟩
  | .SLC_PORT_PEER1 => ⟨0x1000028, 0x100000, 16, 0x100, 16, 0x0, 1, 64⟩
  | .SLC_PORT_PEER2 => ⟨0x1000030, 0x100000, 16, 0x100, 16, 0x0, 1, 64⟩
  | .SLC_PORT_PEER3 => ⟨0x1000038, 0x100000, 16, 0x100, 16, 0x0, 1, 64⟩
  | .SLC_PORT_PDIG => ⟨0x1000040, 0x100000, 16, 0x100, 16, 0x8, 4, 64⟩
  | .SLC_PORT_RTT => ⟨0x1000060, 0x100000, 16, 0x100, 16, 0x0, 1, 32⟩
  | .SLC_PORT_FREQ => ⟨0x1000064, 0x100000, 16, 0x100, 16, 0x0, 1, 32⟩
  | .SLC_PORT_CORR => ⟨0x1000068, 0x100000, 16, 0x100, 16, 0x0, 1, 64⟩
  | .SLC_PORT_UNCORR => ⟨0x1000070, 0x100000, 16, 0x100, 16, 0x0, 1, 64⟩
  | .SLC_PORT_CW => ⟨0x1000078, 0x100000, 16, 0x100, 16, 0x0, 1, 64⟩
  | .SLC_PORT_TEST => ⟨0x1000080, 0x100000, 16, 0x100, 16, 0x0, 1, 64⟩
  | .SLC_LANE_STAT => ⟨0x1002000, 0x100000, 16, 0x8, 32, 0x0, 1, 64⟩
  | .SLC_LSR_CTRL => ⟨0x1003000, 0x100000, 16, 0x0, 1, 0x0, 1, 32⟩
  | .SLC_LSR_STAT => ⟨0x1003004, 0x100000, 16, 0x0, 1, 0x0, 1, 32⟩
  | .SLC_LNK_CFG => ⟨0x1003008, 0x100000, 16, 0x0, 1, 0x0, 1, 32⟩
  | .SLC_WLK_CFG => ⟨0x1010000, 0x100000, 16, 0x100, 16, 0x0, 1, 32⟩
  | .SLC_WLK_STAT => ⟨0x1010008, 0x100000, 16, 0x100, 16, 0x0, 1, 64⟩
  | .SLC_WLK_EPIS => ⟨0x1010010, 0x100000, 16, 0x100, 16, 0x0, 1, 64⟩
  | .SLC_WLK_RETX => ⟨0x1010018, 0x100000, 16, 0x100, 16, 0x0, 1, 64⟩
  | .SLC_WLK_DISC => ⟨0x1010020, 0x100000, 16, 0x100, 16, 0x0, 1, 64⟩
  | .SLC_WLK_NACK => ⟨0x1010028, 0x100000, 16, 0x100, 16, 0x0, 1, 64⟩
  | .SLC_WLK_MAXEP => ⟨0x1010030, 0x100000, 16, 0x100, 16, 0x0, 1, 32⟩
  | .SLC_WLK_TAG => ⟨0x1010034, 0x100000, 16, 0x100, 16, 0x0, 1, 32⟩
  | .SLC_WLK_TAGREJ => ⟨0x1010038, 0x100000, 16, 0x100, 16, 0x0, 1, 32⟩
  | .SLC_WLK_TAGSTRAY => ⟨0x101003C, 0x100000, 16, 0x100, 16, 0x0, 1, 32⟩
  | .SLC_CRD => ⟨0x1020000, 0x100000, 16, 0x400, 16, 0x8, 128, 64⟩
  | .CFG_STAGE_STAT => ⟨0x400000, 0x0, 1, 0x0, 1, 0x0, 1, 64⟩
  | .CFG_STAGE_CTRL => ⟨0x400008, 0x0, 1, 0x0, 1, 0x0, 1, 32⟩
  | .CFG_ERR_LOC => ⟨0x400010, 0x0, 1, 0x0, 1, 0x0, 1, 64⟩
  | .CFG_COMMIT_AT => ⟨0x400018, 0x0, 1, 0x0, 1, 0x0, 1, 64⟩
  | .CFG_COMMIT_CTRL => ⟨0x400020, 0x0, 1, 0x0, 1, 0x0, 1, 32⟩
  | .CFG_COMMIT_STAT => ⟨0x400024, 0x0, 1, 0x0, 1, 0x0, 1, 32⟩
  | .CFG_COMMIT_TICK => ⟨0x400028, 0x0, 1, 0x0, 1, 0x0, 1, 64⟩
  | .CFG_COMMITS => ⟨0x400030, 0x0, 1, 0x0, 1, 0x0, 1, 32⟩
  | .CFG_PART_DEFINED => ⟨0x400034, 0x0, 1, 0x0, 1, 0x0, 1, 32⟩
  | .CFG_DEV_DIGEST => ⟨0x400040, 0x8, 4, 0x0, 1, 0x0, 1, 64⟩
  | .CFG_STAGED_DIGEST => ⟨0x400060, 0x8, 4, 0x0, 1, 0x0, 1, 64⟩
  | .CFG_PART_DIGEST => ⟨0x400100, 0x20, 16, 0x8, 4, 0x0, 1, 64⟩
  | .GLB_ID => ⟨0x0, 0x0, 1, 0x0, 1, 0x0, 1, 64⟩
  | .GLB_SERIAL => ⟨0x8, 0x0, 1, 0x0, 1, 0x0, 1, 64⟩
  | .GLB_FW_VERSION => ⟨0x10, 0x0, 1, 0x0, 1, 0x0, 1, 64⟩
  | .GLB_FW_DIGEST => ⟨0x20, 0x8, 4, 0x0, 1, 0x0, 1, 64⟩
  | .GLB_STATUS => ⟨0x40, 0x0, 1, 0x0, 1, 0x0, 1, 32⟩
  | .GLB_SCRATCH => ⟨0x48, 0x0, 1, 0x0, 1, 0x0, 1, 64⟩
  | .MGT_HP_STAT => ⟨0x600000, 0x0, 1, 0x0, 1, 0x0, 1, 32⟩
  | .MGT_FWD_CFG => ⟨0x600008, 0x0, 1, 0x0, 1, 0x0, 1, 32⟩
  | .MGT_FWD_STAT => ⟨0x60000C, 0x0, 1, 0x0, 1, 0x0, 1, 32⟩
  | .MGT_BOARD => ⟨0x600040, 0x4, 16, 0x0, 1, 0x0, 1, 32⟩
  | .MGT_SQ_BASE => ⟨0x601000, 0x40, 8, 0x0, 1, 0x0, 1, 64⟩
  | .MGT_SQ_CFG => ⟨0x601008, 0x40, 8, 0x0, 1, 0x0, 1, 32⟩
  | .MGT_SQ_TAIL => ⟨0x60100C, 0x40, 8, 0x0, 1, 0x0, 1, 32⟩
  | .MGT_SQ_HEAD => ⟨0x601010, 0x40, 8, 0x0, 1, 0x0, 1, 32⟩
  | .MGT_CQ_BASE => ⟨0x601018, 0x40, 8, 0x0, 1, 0x0, 1, 64⟩
  | .MGT_CQ_CFG => ⟨0x601020, 0x40, 8, 0x0, 1, 0x0, 1, 32⟩
  | .MGT_CQ_HEAD => ⟨0x601024, 0x40, 8, 0x0, 1, 0x0, 1, 32⟩
  | .MGT_CQ_TAIL => ⟨0x601028, 0x40, 8, 0x0, 1, 0x0, 1, 32⟩
  | .MGT_QP_CTRL => ⟨0x60102C, 0x40, 8, 0x0, 1, 0x0, 1, 32⟩
  | .MGT_QP_STAT => ⟨0x601030, 0x40, 8, 0x0, 1, 0x0, 1, 32⟩
  | .SEC_POLICY => ⟨0x300000, 0x0, 1, 0x0, 1, 0x0, 1, 32⟩
  | .SEC_FUSE => ⟨0x300004, 0x0, 1, 0x0, 1, 0x0, 1, 32⟩
  | .SEC_DEBUG => ⟨0x300008, 0x0, 1, 0x0, 1, 0x0, 1, 32⟩
  | .SEC_SESSIONS => ⟨0x30000C, 0x0, 1, 0x0, 1, 0x0, 1, 32⟩
  | .SEC_OPKEY => ⟨0x300040, 0x4, 4, 0x0, 1, 0x0, 1, 32⟩
  | .SEC_OPKEY_DIG => ⟨0x300100, 0x20, 4, 0x8, 4, 0x0, 1, 64⟩
  | .SEC_PART_STAT => ⟨0x301000, 0x20, 16, 0x0, 1, 0x0, 1, 32⟩
  | .SEC_PART_RM => ⟨0x301008, 0x20, 16, 0x0, 1, 0x0, 1, 64⟩
  | .SEC_PART_DROP => ⟨0x301010, 0x20, 16, 0x0, 1, 0x0, 1, 64⟩
  | .SEC_LKEY => ⟨0x310000, 0x80, 256, 0x8, 16, 0x0, 1, 64⟩
  | .SEC_PVIOL => ⟨0x320000, 0x4, 256, 0x0, 1, 0x0, 1, 32⟩
  | .FC_CTRL => ⟨0x200000, 0x0, 1, 0x0, 1, 0x0, 1, 32⟩
  | .FC_ERR => ⟨0x200004, 0x0, 1, 0x0, 1, 0x0, 1, 32⟩
  | .FC_SAFE => ⟨0x200008, 0x0, 1, 0x0, 1, 0x0, 1, 32⟩
  | .FC_INJ => ⟨0x20000C, 0x0, 1, 0x0, 1, 0x0, 1, 32⟩
  | .FC_STAT => ⟨0x200010, 0x0, 1, 0x0, 1, 0x0, 1, 64⟩
  | .FC_SEV => ⟨0x200020, 0x4, 4, 0x0, 1, 0x0, 1, 32⟩
  | .FC_EVQ_STAT => ⟨0x200040, 0x0, 1, 0x0, 1, 0x0, 1, 64⟩
  | .FC_EVQ_LOST => ⟨0x200048, 0x0, 1, 0x0, 1, 0x0, 1, 32⟩
  | .FC_QECC => ⟨0x200050, 0x0, 1, 0x0, 1, 0x0, 1, 64⟩
  | .FC_SRC_CNT => ⟨0x201000, 0x20, 64, 0x0, 1, 0x0, 1, 32⟩
  | .FC_SRC_FIRST => ⟨0x201008, 0x20, 64, 0x0, 1, 0x0, 1, 64⟩
  | .FC_SRC_INST => ⟨0x201010, 0x20, 64, 0x0, 1, 0x0, 1, 32⟩
  | .TEL_SNAP_STAT => ⟨0x700000, 0x0, 1, 0x0, 1, 0x0, 1, 64⟩
  | .TEL_SNAP_TICK => ⟨0x700008, 0x0, 1, 0x0, 1, 0x0, 1, 64⟩
  | .PWR_STATUS => ⟨0x100000, 0x0, 1, 0x0, 1, 0x0, 1, 32⟩
  | .PWR_RST_CAUSE => ⟨0x100004, 0x0, 1, 0x0, 1, 0x0, 1, 32⟩
  | .PWR_RST_CMD => ⟨0x100008, 0x0, 1, 0x0, 1, 0x0, 1, 32⟩
  | .PWR_STANDBY => ⟨0x10000C, 0x0, 1, 0x0, 1, 0x0, 1, 32⟩
  | .PWR_CAP_CFG => ⟨0x100010, 0x0, 1, 0x0, 1, 0x0, 1, 32⟩
  | .PWR_CAP_STAT => ⟨0x100014, 0x0, 1, 0x0, 1, 0x0, 1, 32⟩
  | .PWR_VIN => ⟨0x100018, 0x0, 1, 0x0, 1, 0x0, 1, 64⟩
  | .PWR_WDT => ⟨0x100020, 0x0, 1, 0x0, 1, 0x0, 1, 32⟩
  | .PWR_THERM => ⟨0x100024, 0x0, 1, 0x0, 1, 0x0, 1, 32⟩
  | .PWR_COMMIT => ⟨0x100028, 0x0, 1, 0x0, 1, 0x0, 1, 32⟩
  | .PWR_SLICE_REQ => ⟨0x100100, 0x20, 16, 0x0, 1, 0x0, 1, 32⟩
  | .PWR_SLICE_AT => ⟨0x100108, 0x20, 16, 0x0, 1, 0x0, 1, 64⟩
  | .PWR_SLICE_STAT => ⟨0x100110, 0x20, 16, 0x0, 1, 0x0, 1, 64⟩
  | .PWR_SLICE_TEMP => ⟨0x100118, 0x20, 16, 0x0, 1, 0x0, 1, 32⟩
  | .PWR_RAIL_STAT => ⟨0x100400, 0x8, 39, 0x0, 1, 0x0, 1, 64⟩
  | .GLB_BOOT_STAT => ⟨0x200, 0x0, 1, 0x0, 1, 0x0, 1, 64⟩
  | .GLB_BOOT_CTRL => ⟨0x208, 0x0, 1, 0x0, 1, 0x0, 1, 32⟩
  | .GLB_BOOT_TIMER => ⟨0x20C, 0x0, 1, 0x0, 1, 0x0, 1, 32⟩
  | .GLB_FW_SLOT => ⟨0x210, 0x4, 2, 0x0, 1, 0x0, 1, 32⟩
  | .GLB_FW_SLOT_VER => ⟨0x220, 0x8, 2, 0x0, 1, 0x0, 1, 64⟩
  | .GLB_FW_STAGE => ⟨0x230, 0x0, 1, 0x0, 1, 0x0, 1, 64⟩
  | .GLB_FW_STAGE_VER => ⟨0x238, 0x0, 1, 0x0, 1, 0x0, 1, 64⟩
  | .GLB_FW_RELAY => ⟨0x240, 0x4, 8, 0x0, 1, 0x0, 1, 32⟩

/-- A field of a register: its bits and access code. -/
structure Fld where
  reg : RegName
  lo : Nat
  w : Nat
  acc : Access
  img : Bool
  deriving DecidableEq, Repr

def F.GLB_REPLAY_CLASS_CODE_FMT : Fld := ⟨.GLB_REPLAY_CLASS, 56, 8, .ro, false⟩
def F.GLB_REPLAY_CLASS_BEHAV_STEP : Fld := ⟨.GLB_REPLAY_CLASS, 48, 8, .ro, true⟩
def F.GLB_REPLAY_CLASS_ARITH_REV : Fld := ⟨.GLB_REPLAY_CLASS, 40, 8, .ro, true⟩
def F.GLB_REPLAY_CLASS_TIMING_REV : Fld := ⟨.GLB_REPLAY_CLASS, 32, 8, .ro, true⟩
def F.GLB_REPLAY_CLASS_SR_REV : Fld := ⟨.GLB_REPLAY_CLASS, 24, 8, .ro, true⟩
def F.GLB_REPLAY_CLASS_CHECK : Fld := ⟨.GLB_REPLAY_CLASS, 0, 8, .ro, true⟩
def F.GLB_DISABLED_SLICE_SLICE : Fld := ⟨.GLB_DISABLED_SLICE, 0, 16, .ro, false⟩
def F.GLB_DISABLED_PORT_PORT : Fld := ⟨.GLB_DISABLED_PORT, 0, 32, .ro, false⟩
def F.GLB_DISABLED_CORE_CORE : Fld := ⟨.GLB_DISABLED_CORE, 0, 32, .ro, false⟩
def F.GLB_FMASK_SLICE_SLICE : Fld := ⟨.GLB_FMASK_SLICE, 0, 16, .w1s, false⟩
def F.GLB_FMASK_PORT_PORT : Fld := ⟨.GLB_FMASK_PORT, 0, 32, .w1s, false⟩
def F.GLB_FMASK_CORE_CORE : Fld := ⟨.GLB_FMASK_CORE, 0, 32, .w1s, false⟩
def F.GLB_MG_MODE_MODE : Fld := ⟨.GLB_MG_MODE, 0, 2, .ro, true⟩
def F.GLB_MG_MODE_REPLAY_REQ : Fld := ⟨.GLB_MG_MODE, 2, 1, .ro, true⟩
def F.GLB_MG_MODE_STALLED : Fld := ⟨.GLB_MG_MODE, 3, 1, .ro, false⟩
def F.GLB_MG_SEQ_SEQ : Fld := ⟨.GLB_MG_SEQ, 0, 48, .ro, false⟩
def F.GLB_MG_LOST_LOST : Fld := ⟨.GLB_MG_LOST, 0, 32, .ro, false⟩
def F.GLB_MG_FILL_FILL : Fld := ⟨.GLB_MG_FILL, 0, 13, .ro, false⟩
def F.GLB_MG_DRAIN_DEST_DEST : Fld := ⟨.GLB_MG_DRAIN_DEST, 0, 17, .ro, true⟩
def F.GLB_MG_DRAIN_DEST_DRAIN_HOST : Fld := ⟨.GLB_MG_DRAIN_DEST, 31, 1, .ro, true⟩
def F.GLB_MG_DRAIN_TMO_TMO : Fld := ⟨.GLB_MG_DRAIN_TMO, 0, 14, .rw, false⟩
def F.GLB_MG_HEAD_CHAIN_CHAIN : Fld := ⟨.GLB_MG_HEAD_CHAIN, 0, 64, .ro, false⟩
def F.GLB_MG_TAIL_CHAIN_CHAIN : Fld := ⟨.GLB_MG_TAIL_CHAIN, 0, 64, .ro, false⟩
def F.GLB_MG_CONTRACT_DIGEST : Fld := ⟨.GLB_MG_CONTRACT, 0, 64, .ro, true⟩
def F.SCH_CTX_CFG_PART : Fld := ⟨.SCH_CTX_CFG, 0, 4, .ro, true⟩
def F.SCH_CTX_CFG_KIND : Fld := ⟨.SCH_CTX_CFG, 4, 4, .ro, true⟩
def F.SCH_CTX_CFG_OP : Fld := ⟨.SCH_CTX_CFG, 8, 3, .ro, true⟩
def F.SCH_CTX_CFG_ARITH : Fld := ⟨.SCH_CTX_CFG, 11, 1, .ro, true⟩
def F.SCH_CTX_CFG_TRANSPORT : Fld := ⟨.SCH_CTX_CFG, 12, 1, .ro, true⟩
def F.SCH_CTX_CFG_ROUND : Fld := ⟨.SCH_CTX_CFG, 13, 2, .ro, true⟩
def F.SCH_CTX_CFG_OUT_SCALED : Fld := ⟨.SCH_CTX_CFG, 15, 1, .ro, true⟩
def F.SCH_CTX_CFG_IN_FMT : Fld := ⟨.SCH_CTX_CFG, 16, 4, .ro, true⟩
def F.SCH_CTX_CFG_OUT_FMT : Fld := ⟨.SCH_CTX_CFG, 20, 4, .ro, true⟩
def F.SCH_CTX_CFG_SCALED : Fld := ⟨.SCH_CTX_CFG, 24, 1, .ro, true⟩
def F.SCH_CTX_CFG_B32 : Fld := ⟨.SCH_CTX_CFG, 25, 1, .ro, true⟩
def F.SCH_CTX_CFG_TILE_BLK : Fld := ⟨.SCH_CTX_CFG, 26, 6, .ro, true⟩
def F.SCH_CTX_CFG_TILES : Fld := ⟨.SCH_CTX_CFG, 32, 21, .ro, true⟩
def F.SCH_CTX_CFG_TEMPLATE : Fld := ⟨.SCH_CTX_CFG, 53, 8, .ro, true⟩
def F.SCH_CTX_CFG_ACLASS : Fld := ⟨.SCH_CTX_CFG, 61, 3, .ro, true⟩
def F.SCH_CTX_GROUP_GROUP : Fld := ⟨.SCH_CTX_GROUP, 0, 16, .rwc, false⟩
def F.SCH_CTX_GROUP_MEMBERS : Fld := ⟨.SCH_CTX_GROUP, 16, 18, .rwc, false⟩
def F.SCH_CTX_GROUP_EPOCH : Fld := ⟨.SCH_CTX_GROUP, 36, 4, .rwc, false⟩
def F.SCH_CTX_PRESENT0_INPUT : Fld := ⟨.SCH_CTX_PRESENT0, 0, 64, .rwc, false⟩
def F.SCH_CTX_PRESENT1_INPUT : Fld := ⟨.SCH_CTX_PRESENT1, 0, 13, .rwc, false⟩
def F.SCH_CTX_START_START : Fld := ⟨.SCH_CTX_START, 0, 64, .rw, false⟩
def F.SCH_CTX_CMD_ARM : Fld := ⟨.SCH_CTX_CMD, 0, 1, .wo, false⟩
def F.SCH_CTX_CMD_CANCEL : Fld := ⟨.SCH_CTX_CMD, 1, 1, .wo, false⟩
def F.SCH_CTX_CMD_ABORT : Fld := ⟨.SCH_CTX_CMD, 2, 1, .wo, false⟩
def F.SCH_CTX_CMD_UNBIND : Fld := ⟨.SCH_CTX_CMD, 3, 1, .wo, false⟩
def F.SCH_CTX_CMD_LAUNCHES : Fld := ⟨.SCH_CTX_CMD, 16, 16, .wo, false⟩
def F.SCH_CTX_COMMIT_GO : Fld := ⟨.SCH_CTX_COMMIT, 0, 1, .wo, false⟩
def F.SCH_CTX_STATUS_STATE : Fld := ⟨.SCH_CTX_STATUS, 0, 3, .ro, false⟩
def F.SCH_CTX_STATUS_COMPLETED : Fld := ⟨.SCH_CTX_STATUS, 3, 1, .ro, false⟩
def F.SCH_CTX_STATUS_ABORT_IGNORED : Fld := ⟨.SCH_CTX_STATUS, 4, 1, .ro, false⟩
def F.SCH_CTX_STATUS_ABORTED : Fld := ⟨.SCH_CTX_STATUS, 5, 1, .ro, false⟩
def F.SCH_CTX_STATUS_SLIPPED : Fld := ⟨.SCH_CTX_STATUS, 6, 1, .ro, false⟩
def F.SCH_CTX_STATUS_RES_NAN : Fld := ⟨.SCH_CTX_STATUS, 7, 1, .ro, false⟩
def F.SCH_CTX_STATUS_RES_OVF : Fld := ⟨.SCH_CTX_STATUS, 8, 1, .ro, false⟩
def F.SCH_CTX_STATUS_CMD_IGNORED : Fld := ⟨.SCH_CTX_STATUS, 9, 1, .w1c, false⟩
def F.SCH_CTX_STATUS_ABORT_RSN : Fld := ⟨.SCH_CTX_STATUS, 12, 4, .ro, false⟩
def F.SCH_CTX_STATUS_BIND_RSN : Fld := ⟨.SCH_CTX_STATUS, 16, 4, .ro, false⟩
def F.SCH_CTX_STATUS_REJ_RSN : Fld := ⟨.SCH_CTX_STATUS, 24, 8, .ro, false⟩
def F.SCH_CTX_STATUS_LEFT : Fld := ⟨.SCH_CTX_STATUS, 32, 16, .ro, false⟩
def F.SCH_CTX_LAUNCH_LCOUNT : Fld := ⟨.SCH_CTX_LAUNCH, 0, 48, .ro, false⟩
def F.SCH_CTX_CLAMP_PHX_CLAMP : Fld := ⟨.SCH_CTX_CLAMP, 0, 32, .ro, false⟩
def F.SCH_CTX_STALE_STALE : Fld := ⟨.SCH_CTX_STALE, 0, 32, .ro, false⟩
def F.SCH_CTX_REJECT_REJECT : Fld := ⟨.SCH_CTX_REJECT, 0, 32, .ro, false⟩
def F.SCH_CTX_TMO_TMO : Fld := ⟨.SCH_CTX_TMO, 0, 24, .rw, false⟩
def F.SCH_COUNT_COUNT : Fld := ⟨.SCH_COUNT, 0, 64, .ro, false⟩
def F.SCH_SYNC_CFG_SOURCE : Fld := ⟨.SCH_SYNC_CFG, 0, 2, .ro, true⟩
def F.SCH_SYNC_CFG_PARENT : Fld := ⟨.SCH_SYNC_CFG, 2, 8, .ro, true⟩
def F.SCH_SYNC_CFG_PARENT_VALID : Fld := ⟨.SCH_SYNC_CFG, 10, 1, .ro, true⟩
def F.SCH_SYNC_CFG_BACKUP : Fld := ⟨.SCH_SYNC_CFG, 11, 8, .ro, true⟩
def F.SCH_SYNC_CFG_BACKUP_VALID : Fld := ⟨.SCH_SYNC_CFG, 19, 1, .ro, true⟩
def F.SCH_SYNC_CFG_HOLD_EPOCHS : Fld := ⟨.SCH_SYNC_CFG, 20, 12, .ro, true⟩
def F.SCH_SYNC_STATUS_STATE : Fld := ⟨.SCH_SYNC_STATUS, 0, 2, .ro, false⟩
def F.SCH_SYNC_STATUS_ACTIVE : Fld := ⟨.SCH_SYNC_STATUS, 2, 8, .ro, false⟩
def F.SCH_SYNC_STATUS_ON_BACKUP : Fld := ⟨.SCH_SYNC_STATUS, 10, 1, .ro, false⟩
def F.SCH_SYNC_STATUS_MISSED : Fld := ⟨.SCH_SYNC_STATUS, 11, 3, .ro, false⟩
def F.SCH_SYNC_STATUS_EARLY_PULSES : Fld := ⟨.SCH_SYNC_STATUS, 14, 8, .ro, false⟩
def F.SCH_LOAD_LOAD : Fld := ⟨.SCH_LOAD, 0, 64, .rw, false⟩
def F.SCH_LOAD_CMD_ARM : Fld := ⟨.SCH_LOAD_CMD, 0, 1, .wo, false⟩
def F.SCH_OFFSET_THETA : Fld := ⟨.SCH_OFFSET, 0, 24, .ro, false⟩
def F.SCH_OFFSET_VALID : Fld := ⟨.SCH_OFFSET, 31, 1, .ro, false⟩
def F.SCH_PATH_DELAY_DELAY : Fld := ⟨.SCH_PATH_DELAY, 0, 24, .ro, false⟩
def F.SCH_PULSE_OFS_PHI : Fld := ⟨.SCH_PULSE_OFS, 0, 24, .ro, false⟩
def F.SCH_PULSE_OFS_SEEN : Fld := ⟨.SCH_PULSE_OFS, 31, 1, .ro, false⟩
def F.SCH_CORR_STEPS : Fld := ⟨.SCH_CORR, 0, 32, .ro, false⟩
def F.SCH_ASYM_PARENT_ASYM : Fld := ⟨.SCH_ASYM, 0, 16, .ro, true⟩
def F.SCH_ASYM_BACKUP_ASYM : Fld := ⟨.SCH_ASYM, 16, 16, .ro, true⟩
def F.SCH_ROUND_CFG_LOG2_LEN : Fld := ⟨.SCH_ROUND_CFG, 0, 5, .ro, true⟩
def F.SCH_ROUND_CFG_GUARD : Fld := ⟨.SCH_ROUND_CFG, 8, 15, .ro, true⟩
def F.SCH_ROUND_CFG_CATCHUP : Fld := ⟨.SCH_ROUND_CFG, 24, 8, .ro, true⟩
def F.SCH_LAG_LAG : Fld := ⟨.SCH_LAG, 0, 24, .ro, false⟩
def F.SCH_LAG_RUN : Fld := ⟨.SCH_LAG, 24, 8, .ro, false⟩
def F.SCH_LAG_PAUSED : Fld := ⟨.SCH_LAG, 32, 1, .ro, false⟩
def F.SCH_LAG_PAUSE_PORT : Fld := ⟨.SCH_LAG, 33, 8, .ro, false⟩
def F.SCH_LAG_PAUSE_CTX : Fld := ⟨.SCH_LAG, 41, 12, .ro, false⟩
def F.SCH_SLIP_SLIPS : Fld := ⟨.SCH_SLIP, 0, 32, .ro, false⟩
def F.SCH_PAUSE_PAUSED_TK : Fld := ⟨.SCH_PAUSE, 0, 32, .ro, false⟩
def F.SCH_SLOT_OFFSET : Fld := ⟨.SCH_SLOT, 0, 16, .ro, true⟩
def F.SCH_SLOT_LEN : Fld := ⟨.SCH_SLOT, 16, 16, .ro, true⟩
def F.SCH_SLOT_CTX : Fld := ⟨.SCH_SLOT, 32, 12, .ro, true⟩
def F.SCH_SLOT_NFR : Fld := ⟨.SCH_SLOT, 44, 6, .ro, true⟩
def F.SCH_SLOT_VALID : Fld := ⟨.SCH_SLOT, 50, 1, .ro, true⟩
def F.SCH_CTX_PERIOD_PERIOD : Fld := ⟨.SCH_CTX_PERIOD, 0, 16, .ro, true⟩
def F.RC_ID_PHYS : Fld := ⟨.RC_ID, 0, 6, .ro, false⟩
def F.RC_ID_SLICE : Fld := ⟨.RC_ID, 8, 4, .ro, false⟩
def F.RC_ID_PART : Fld := ⟨.RC_ID, 12, 4, .ro, true⟩
def F.RC_ID_ENABLED : Fld := ⟨.RC_ID, 16, 1, .ro, true⟩
def F.RC_CTRL_HALT_REQ : Fld := ⟨.RC_CTRL, 0, 1, .wo, false⟩
def F.RC_CTRL_RESUME : Fld := ⟨.RC_CTRL, 1, 1, .wo, false⟩
def F.RC_CTRL_STEP : Fld := ⟨.RC_CTRL, 2, 1, .wo, false⟩
def F.RC_CTRL_BREAK_EN : Fld := ⟨.RC_CTRL, 3, 1, .rw, false⟩
def F.RC_STATUS_STATE : Fld := ⟨.RC_STATUS, 0, 3, .ro, false⟩
def F.RC_STATUS_CMD_IGNORED : Fld := ⟨.RC_STATUS, 3, 1, .w1c, false⟩
def F.RC_STATUS_CTX : Fld := ⟨.RC_STATUS, 4, 12, .ro, false⟩
def F.RC_STATUS_ENTRY : Fld := ⟨.RC_STATUS, 16, 4, .ro, false⟩
def F.RC_STATUS_WAIT_SE : Fld := ⟨.RC_STATUS, 20, 2, .ro, false⟩
def F.RC_STATUS_WAIT_DRAIN : Fld := ⟨.RC_STATUS, 22, 1, .ro, false⟩
def F.RC_STATUS_INSPECT_REFUSED : Fld := ⟨.RC_STATUS, 23, 1, .w1c, false⟩
def F.RC_STATUS_WIN_REFUSED : Fld := ⟨.RC_STATUS, 24, 1, .w1c, false⟩
def F.RC_STATUS_FORCED : Fld := ⟨.RC_STATUS, 25, 1, .ro, false⟩
def F.RC_PC_PC : Fld := ⟨.RC_PC, 0, 16, .ro, false⟩
def F.RC_HALT_ADDR : Fld := ⟨.RC_HALT, 0, 16, .ro, false⟩
def F.RC_HALT_CAUSE : Fld := ⟨.RC_HALT, 16, 3, .ro, false⟩
def F.RC_HALT_REASON : Fld := ⟨.RC_HALT, 20, 8, .ro, false⟩
def F.RC_HALT_SLOT : Fld := ⟨.RC_HALT, 28, 2, .ro, false⟩
def F.RC_HALT_AFTER_ISSUE : Fld := ⟨.RC_HALT, 30, 1, .ro, false⟩
def F.RC_HALT_VALID : Fld := ⟨.RC_HALT, 31, 1, .w1c, false⟩
def F.RC_HALT_INFO : Fld := ⟨.RC_HALT, 32, 32, .ro, false⟩
def F.RC_CYCLE_CYCLE : Fld := ⟨.RC_CYCLE, 0, 64, .ro, false⟩
def F.RC_BREAK_ADDR : Fld := ⟨.RC_BREAK, 0, 16, .rw, false⟩
def F.RC_ECC_CORR : Fld := ⟨.RC_ECC, 0, 16, .ro, false⟩
def F.RC_ECC_UNCORR : Fld := ⟨.RC_ECC, 16, 16, .ro, false⟩
def F.RC_PEND_PENDING : Fld := ⟨.RC_PEND, 0, 16, .ro, false⟩
def F.RC_BIND_CTX : Fld := ⟨.RC_BIND, 0, 12, .ro, true⟩
def F.RC_BIND_STAGE : Fld := ⟨.RC_BIND, 12, 4, .ro, true⟩
def F.RC_BIND_ENTRY : Fld := ⟨.RC_BIND, 16, 16, .ro, true⟩
def F.RC_BIND_WIN_BASE : Fld := ⟨.RC_BIND, 32, 11, .ro, true⟩
def F.RC_BIND_WIN_SIZE : Fld := ⟨.RC_BIND, 43, 11, .ro, true⟩
def F.RC_BIND_VALID : Fld := ⟨.RC_BIND, 54, 1, .ro, true⟩
def F.RC_SE_STAT_STATE : Fld := ⟨.RC_SE_STAT, 0, 2, .ro, false⟩
def F.RC_SE_STAT_DIR : Fld := ⟨.RC_SE_STAT, 2, 1, .ro, false⟩
def F.RC_SE_STAT_CTX : Fld := ⟨.RC_SE_STAT, 4, 12, .ro, false⟩
def F.RC_SE_STAT_TARGET : Fld := ⟨.RC_SE_STAT, 16, 8, .ro, false⟩
def F.RC_SE_STAT_FAULT_RSN : Fld := ⟨.RC_SE_STAT, 24, 8, .ro, false⟩
def F.RC_SE_STAT_DESC : Fld := ⟨.RC_SE_STAT, 32, 19, .ro, false⟩
def F.RC_SE_COUNT_COUNT : Fld := ⟨.RC_SE_COUNT, 0, 21, .ro, false⟩
def F.RC_SE_COUNT_REL : Fld := ⟨.RC_SE_COUNT, 32, 21, .ro, false⟩
def F.RC_S_VALUE : Fld := ⟨.RC_S, 0, 64, .rw, false⟩
def F.RC_A_VALUE : Fld := ⟨.RC_A, 0, 32, .rw, false⟩
def F.RC_P_VALUE : Fld := ⟨.RC_P, 0, 64, .rw, false⟩
def F.RC_V_LANE : Fld := ⟨.RC_V, 0, 32, .rw, false⟩
def F.SLC_BUF_CTRL_AUDIT_LOG2 : Fld := ⟨.SLC_BUF_CTRL, 0, 5, .rw, false⟩
def F.SLC_BUF_CTRL_AUDIT_EN : Fld := ⟨.SLC_BUF_CTRL, 5, 1, .rw, false⟩
def F.SLC_BUF_CTRL_DRAIN_TMO : Fld := ⟨.SLC_BUF_CTRL, 8, 14, .rw, false⟩
def F.SLC_DRAIN_STATE : Fld := ⟨.SLC_DRAIN, 0, 2, .ro, false⟩
def F.SLC_DRAIN_TARGET : Fld := ⟨.SLC_DRAIN, 2, 2, .ro, false⟩
def F.SLC_DRAIN_EARLY : Fld := ⟨.SLC_DRAIN, 4, 1, .ro, false⟩
def F.SLC_DRAIN_DROPPED : Fld := ⟨.SLC_DRAIN, 32, 32, .ro, false⟩
def F.SLC_DROP_COUNT : Fld := ⟨.SLC_DROP, 0, 32, .ro, false⟩
def F.SLC_POOL_CFG_BASE : Fld := ⟨.SLC_POOL_CFG, 0, 14, .ro, true⟩
def F.SLC_POOL_CFG_SIZE : Fld := ⟨.SLC_POOL_CFG, 16, 14, .ro, true⟩
def F.SLC_POOL_CFG_RESERVE : Fld := ⟨.SLC_POOL_CFG, 32, 14, .ro, true⟩
def F.SLC_POOL_CFG_ORIG_RSV : Fld := ⟨.SLC_POOL_CFG, 48, 14, .ro, true⟩
def F.SLC_POOL_STAT_FREE : Fld := ⟨.SLC_POOL_STAT, 0, 14, .ro, false⟩
def F.SLC_POOL_STAT_CACHED : Fld := ⟨.SLC_POOL_STAT, 14, 7, .ro, false⟩
def F.SLC_POOL_STAT_LOSSY : Fld := ⟨.SLC_POOL_STAT, 24, 14, .ro, false⟩
def F.SLC_POOL_STAT_ORIG : Fld := ⟨.SLC_POOL_STAT, 40, 14, .ro, false⟩
def F.SLC_POOL_ERR_BAD_PTR : Fld := ⟨.SLC_POOL_ERR, 0, 16, .ro, false⟩
def F.SLC_POOL_ERR_DOUBLE_FREE : Fld := ⟨.SLC_POOL_ERR, 16, 16, .ro, false⟩
def F.SLC_POOL_AUDIT_DEFICIT : Fld := ⟨.SLC_POOL_AUDIT, 0, 16, .ro, false⟩
def F.SLC_POOL_AUDIT_AUDITS_FAILED : Fld := ⟨.SLC_POOL_AUDIT, 16, 8, .ro, false⟩
def F.SLC_POOL_AUDIT_RECLAIM_REFUSED : Fld := ⟨.SLC_POOL_AUDIT, 30, 1, .w1c, false⟩
def F.SLC_POOL_AUDIT_DONE : Fld := ⟨.SLC_POOL_AUDIT, 31, 1, .ro, false⟩
def F.SLC_POOL_CMD_RECLAIM : Fld := ⟨.SLC_POOL_CMD, 0, 1, .wo, false⟩
def F.SLC_STAGE_SIZE_KIB : Fld := ⟨.SLC_STAGE, 0, 10, .ro, true⟩
def F.SLC_STAGE_LOSSLESS_KIB : Fld := ⟨.SLC_STAGE, 16, 10, .ro, true⟩
def F.SLC_STAGE_USED_KIB : Fld := ⟨.SLC_STAGE, 32, 10, .ro, false⟩
def F.SLC_QTHR_MARK_LO : Fld := ⟨.SLC_QTHR, 0, 14, .ro, true⟩
def F.SLC_QTHR_MARK_HI : Fld := ⟨.SLC_QTHR, 16, 14, .ro, true⟩
def F.SLC_QTHR_QMAX : Fld := ⟨.SLC_QTHR, 32, 14, .ro, true⟩
def F.SLC_RT_CFG_X : Fld := ⟨.SLC_RT_CFG, 0, 4, .ro, true⟩
def F.SLC_RT_CFG_Y : Fld := ⟨.SLC_RT_CFG, 4, 4, .ro, true⟩
def F.SLC_RT_CFG_Z : Fld := ⟨.SLC_RT_CFG, 8, 4, .ro, true⟩
def F.SLC_RT_CFG_XSIZE : Fld := ⟨.SLC_RT_CFG, 12, 4, .ro, true⟩
def F.SLC_RT_CFG_YSIZE : Fld := ⟨.SLC_RT_CFG, 16, 4, .ro, true⟩
def F.SLC_RT_CFG_ZSIZE : Fld := ⟨.SLC_RT_CFG, 20, 4, .ro, true⟩
def F.SLC_RT_CFG_HOP_LIMIT : Fld := ⟨.SLC_RT_CFG, 24, 6, .ro, true⟩
def F.SLC_RT_CFG_LIFE : Fld := ⟨.SLC_RT_CFG, 32, 15, .ro, true⟩
def F.SLC_RT_FLOW_IDLE_TK : Fld := ⟨.SLC_RT_FLOW, 0, 16, .rw, false⟩
def F.SLC_RT_FLOW_MAX : Fld := ⟨.SLC_RT_FLOW, 16, 9, .rw, false⟩
def F.SLC_RT_CMD_FLUSH : Fld := ⟨.SLC_RT_CMD, 0, 1, .wo, false⟩
def F.SLC_RT_STATUS_FLUSH_BUSY : Fld := ⟨.SLC_RT_STATUS, 0, 1, .ro, false⟩
def F.SLC_RT_STATUS_FLUSH_IGNORED : Fld := ⟨.SLC_RT_STATUS, 1, 1, .w1c, false⟩
def F.SLC_RT_ORD_ORD : Fld := ⟨.SLC_RT_ORD, 0, 6, .ro, true⟩
def F.SLC_RT_HIT_COUNT : Fld := ⟨.SLC_RT_HIT, 0, 32, .ro, false⟩
def F.SLC_RT_MISS_COUNT : Fld := ⟨.SLC_RT_MISS, 0, 32, .ro, false⟩
def F.SLC_RT_COLLIDE_COUNT : Fld := ⟨.SLC_RT_COLLIDE, 0, 32, .ro, false⟩
def F.SLC_RT_EXPIRE_COUNT : Fld := ⟨.SLC_RT_EXPIRE, 0, 32, .ro, false⟩
def F.SLC_RT_ECHO_RX_COUNT : Fld := ⟨.SLC_RT_ECHO_RX, 0, 32, .ro, false⟩
def F.SLC_RT_ECHO_TX_COUNT : Fld := ⟨.SLC_RT_ECHO_TX, 0, 32, .ro, false⟩
def F.SLC_EDGE_PORT : Fld := ⟨.SLC_EDGE, 0, 8, .ro, true⟩
def F.SLC_EDGE_VALID : Fld := ⟨.SLC_EDGE, 8, 1, .ro, true⟩
def F.SLC_NBR_PORTS : Fld := ⟨.SLC_NBR, 0, 64, .ro, true⟩
def F.SLC_NBRM_NLINKS : Fld := ⟨.SLC_NBRM, 0, 4, .ro, true⟩
def F.SLC_NBRM_MASK : Fld := ⟨.SLC_NBRM, 8, 8, .rw, false⟩
def F.SLC_NBRM_UP : Fld := ⟨.SLC_NBRM, 16, 8, .ro, false⟩
def F.SLC_C7RT_CTX : Fld := ⟨.SLC_C7RT, 0, 12, .ro, true⟩
def F.SLC_C7RT_DEST_Y5 : Fld := ⟨.SLC_C7RT, 12, 12, .ro, true⟩
def F.SLC_C7RT_PORT : Fld := ⟨.SLC_C7RT, 24, 8, .ro, true⟩
def F.SLC_C7RT_VALID : Fld := ⟨.SLC_C7RT, 32, 1, .ro, true⟩
def F.SCH_CTX_RATE_RATE : Fld := ⟨.SCH_CTX_RATE, 0, 16, .ro, false⟩
def F.SCH_CTX_RATE_ECHOES : Fld := ⟨.SCH_CTX_RATE, 16, 16, .ro, false⟩
def F.SCH_CTX_RLIM_RATE_MAX : Fld := ⟨.SCH_CTX_RLIM, 0, 16, .ro, true⟩
def F.SCH_CTX_RLIM_RATE_MIN : Fld := ⟨.SCH_CTX_RLIM, 16, 16, .ro, true⟩
def F.SLC_SCHED_CFG_MODE : Fld := ⟨.SLC_SCHED_CFG, 0, 1, .ro, true⟩
def F.SLC_SHP_COMMIT_GO : Fld := ⟨.SLC_SHP_COMMIT, 0, 1, .wo, false⟩
def F.SLC_QSAMP_CMD_CLEAR_MAX : Fld := ⟨.SLC_QSAMP_CMD, 0, 1, .wo, false⟩
def F.SLC_PWGT_PW : Fld := ⟨.SLC_PWGT, 0, 64, .ro, true⟩
def F.SLC_CWGT_CW : Fld := ⟨.SLC_CWGT, 0, 48, .ro, true⟩
def F.SLC_CWGT_CW6 : Fld := ⟨.SLC_CWGT, 48, 8, .ro, true⟩
def F.SLC_PSHP_RATE : Fld := ⟨.SLC_PSHP, 0, 16, .rwc, true⟩
def F.SLC_PSHP_BURST : Fld := ⟨.SLC_PSHP, 16, 20, .rwc, true⟩
def F.SLC_PSHP_EN : Fld := ⟨.SLC_PSHP, 36, 1, .rwc, true⟩
def F.SLC_PSHP_TOKENS : Fld := ⟨.SLC_PSHP, 40, 24, .ro, false⟩
def F.SLC_TSHP_RATE : Fld := ⟨.SLC_TSHP, 0, 16, .rwc, true⟩
def F.SLC_TSHP_BURST : Fld := ⟨.SLC_TSHP, 16, 20, .rwc, true⟩
def F.SLC_TSHP_EN : Fld := ⟨.SLC_TSHP, 36, 1, .rwc, true⟩
def F.SLC_TSHP_TOKENS : Fld := ⟨.SLC_TSHP, 40, 24, .ro, false⟩
def F.SLC_POLMAP_POL : Fld := ⟨.SLC_POLMAP, 0, 56, .ro, true⟩
def F.SLC_POLMAP_POL_EN : Fld := ⟨.SLC_POLMAP, 56, 7, .ro, true⟩
def F.SLC_QSHP_RATE : Fld := ⟨.SLC_QSHP, 0, 16, .rwc, true⟩
def F.SLC_QSHP_BURST : Fld := ⟨.SLC_QSHP, 16, 20, .rwc, true⟩
def F.SLC_QSHP_EN : Fld := ⟨.SLC_QSHP, 36, 1, .rwc, true⟩
def F.SLC_QSHP_TOKENS : Fld := ⟨.SLC_QSHP, 40, 24, .ro, false⟩
def F.SLC_POL_CFG_CIR : Fld := ⟨.SLC_POL_CFG, 0, 16, .ro, true⟩
def F.SLC_POL_CFG_PIR : Fld := ⟨.SLC_POL_CFG, 16, 16, .ro, true⟩
def F.SLC_POL_CFG_AWARE : Fld := ⟨.SLC_POL_CFG, 32, 1, .ro, true⟩
def F.SLC_POL_CFG_EN : Fld := ⟨.SLC_POL_CFG, 33, 1, .ro, true⟩
def F.SLC_POL_SIZE_CBS : Fld := ⟨.SLC_POL_SIZE, 0, 20, .ro, true⟩
def F.SLC_POL_SIZE_PBS : Fld := ⟨.SLC_POL_SIZE, 32, 20, .ro, true⟩
def F.SLC_POL_TOK_TC : Fld := ⟨.SLC_POL_TOK, 0, 25, .ro, false⟩
def F.SLC_POL_TOK_TP : Fld := ⟨.SLC_POL_TOK, 32, 25, .ro, false⟩
def F.SLC_POL_GREEN_COUNT : Fld := ⟨.SLC_POL_GREEN, 0, 64, .ro, false⟩
def F.SLC_POL_YELLOW_COUNT : Fld := ⟨.SLC_POL_YELLOW, 0, 64, .ro, false⟩
def F.SLC_POL_RED_COUNT : Fld := ⟨.SLC_POL_RED, 0, 64, .ro, false⟩
def F.SLC_QCOL_YMAX : Fld := ⟨.SLC_QCOL, 0, 14, .ro, true⟩
def F.SLC_QCOL_RMAX : Fld := ⟨.SLC_QCOL, 16, 14, .ro, true⟩
def F.SLC_QSAMP_DEPTH : Fld := ⟨.SLC_QSAMP, 0, 14, .ro, false⟩
def F.SLC_QSAMP_HOL : Fld := ⟨.SLC_QSAMP, 32, 24, .ro, false⟩
def F.SLC_QMAX_MAX_DEPTH : Fld := ⟨.SLC_QMAX, 0, 14, .ro, false⟩
def F.SLC_QMAX_MAX_HOL : Fld := ⟨.SLC_QMAX, 32, 24, .ro, false⟩
def F.SLC_TXF_COUNT : Fld := ⟨.SLC_TXF, 0, 64, .ro, false⟩
def F.SLC_TXB_COUNT : Fld := ⟨.SLC_TXB, 0, 64, .ro, false⟩
def F.SLC_RXF_COUNT : Fld := ⟨.SLC_RXF, 0, 64, .ro, false⟩
def F.SLC_RXB_COUNT : Fld := ⟨.SLC_RXB, 0, 64, .ro, false⟩
def F.SLC_MARK_COUNT : Fld := ⟨.SLC_MARK, 0, 64, .ro, false⟩
def F.SLC_RXD_COUNT : Fld := ⟨.SLC_RXD, 0, 64, .ro, false⟩
def F.SLC_TXD_COUNT : Fld := ⟨.SLC_TXD, 0, 64, .ro, false⟩
def F.SLC_STALL_TICKS : Fld := ⟨.SLC_STALL, 0, 64, .ro, false⟩
def F.SLC_PORT_CFG_LPORT : Fld := ⟨.SLC_PORT_CFG, 0, 8, .ro, true⟩
def F.SLC_PORT_CFG_FIRST_LANE : Fld := ⟨.SLC_PORT_CFG, 8, 5, .ro, true⟩
def F.SLC_PORT_CFG_WIDTH : Fld := ⟨.SLC_PORT_CFG, 13, 2, .ro, true⟩
def F.SLC_PORT_CFG_VALID : Fld := ⟨.SLC_PORT_CFG, 15, 1, .ro, true⟩
def F.SLC_PORT_CFG_ROLE : Fld := ⟨.SLC_PORT_CFG, 16, 1, .ro, true⟩
def F.SLC_PORT_CFG_FEC_STD : Fld := ⟨.SLC_PORT_CFG, 17, 1, .ro, true⟩
def F.SLC_PORT_CFG_EP_CHECK : Fld := ⟨.SLC_PORT_CFG, 18, 2, .ro, true⟩
def F.SLC_PORT_CFG_FAR_LOOP_OK : Fld := ⟨.SLC_PORT_CFG, 20, 1, .ro, true⟩
def F.SLC_PORT_CFG_PEER_ADDR : Fld := ⟨.SLC_PORT_CFG, 32, 17, .ro, true⟩
def F.SLC_PORT_CFG_PEER_PORT : Fld := ⟨.SLC_PORT_CFG, 49, 8, .ro, true⟩
def F.SLC_PORT_EPID_EPID : Fld := ⟨.SLC_PORT_EPID, 0, 64, .ro, true⟩
def F.SLC_PORT_CTRL_EN : Fld := ⟨.SLC_PORT_CTRL, 0, 1, .rw, false⟩
def F.SLC_PORT_CTRL_RETRAIN : Fld := ⟨.SLC_PORT_CTRL, 1, 1, .wo, false⟩
def F.SLC_PORT_CTRL_LOCATE : Fld := ⟨.SLC_PORT_CTRL, 2, 1, .rw, false⟩
def F.SLC_PORT_TMR_ALIGN_TMO : Fld := ⟨.SLC_PORT_TMR, 0, 8, .rw, false⟩
def F.SLC_PORT_TMR_HOLD : Fld := ⟨.SLC_PORT_TMR, 8, 8, .rw, false⟩
def F.SLC_PORT_TMR_RETRAIN_TMO : Fld := ⟨.SLC_PORT_TMR, 16, 8, .rw, false⟩
def F.SLC_PORT_TMR_UNC_LIM : Fld := ⟨.SLC_PORT_TMR, 24, 8, .rw, false⟩
def F.SLC_PORT_STAT_STATE : Fld := ⟨.SLC_PORT_STAT, 0, 4, .ro, false⟩
def F.SLC_PORT_STAT_ACTIVE : Fld := ⟨.SLC_PORT_STAT, 4, 8, .ro, false⟩
def F.SLC_PORT_STAT_FEC_NOW : Fld := ⟨.SLC_PORT_STAT, 12, 1, .ro, false⟩
def F.SLC_PORT_STAT_QRSN : Fld := ⟨.SLC_PORT_STAT, 13, 4, .ro, false⟩
def F.SLC_PORT_STAT_REDUCED : Fld := ⟨.SLC_PORT_STAT, 17, 1, .ro, false⟩
def F.SLC_PORT_STAT_FW_DIFF : Fld := ⟨.SLC_PORT_STAT, 18, 1, .ro, false⟩
def F.SLC_PORT_STAT_MINOR_DIFF : Fld := ⟨.SLC_PORT_STAT, 19, 1, .ro, false⟩
def F.SLC_PORT_STAT_DIGEST_DIFF : Fld := ⟨.SLC_PORT_STAT, 20, 1, .ro, false⟩
def F.SLC_PORT_STAT_REPLAY_DIFF : Fld := ⟨.SLC_PORT_STAT, 21, 1, .ro, false⟩
def F.SLC_PORT_STAT_PEER_QUARANTINED : Fld := ⟨.SLC_PORT_STAT, 22, 1, .ro, false⟩
def F.SLC_PORT_STAT_LOOP_REFUSED : Fld := ⟨.SLC_PORT_STAT, 23, 1, .w1c, false⟩
def F.SLC_PORT_STAT_DOWNS : Fld := ⟨.SLC_PORT_STAT, 32, 32, .ro, false⟩
def F.SLC_PORT_PEER0_ADDR : Fld := ⟨.SLC_PORT_PEER0, 0, 17, .ro, false⟩
def F.SLC_PORT_PEER0_PORT : Fld := ⟨.SLC_PORT_PEER0, 17, 8, .ro, false⟩
def F.SLC_PORT_PEER0_ROLE : Fld := ⟨.SLC_PORT_PEER0, 25, 2, .ro, false⟩
def F.SLC_PORT_PEER0_WALHA_VER : Fld := ⟨.SLC_PORT_PEER0, 32, 16, .ro, false⟩
def F.SLC_PORT_PEER0_RX_OK : Fld := ⟨.SLC_PORT_PEER0, 48, 8, .ro, false⟩
def F.SLC_PORT_PEER1_REPLAY_CLASS : Fld := ⟨.SLC_PORT_PEER1, 0, 64, .ro, false⟩
def F.SLC_PORT_PEER2_FW_VERSION : Fld := ⟨.SLC_PORT_PEER2, 0, 64, .ro, false⟩
def F.SLC_PORT_PEER3_SERIAL : Fld := ⟨.SLC_PORT_PEER3, 0, 64, .ro, false⟩
def F.SLC_PORT_PDIG_DIGEST : Fld := ⟨.SLC_PORT_PDIG, 0, 64, .ro, false⟩
def F.SLC_PORT_RTT_RTT : Fld := ⟨.SLC_PORT_RTT, 0, 16, .ro, false⟩
def F.SLC_PORT_FREQ_OFFSET : Fld := ⟨.SLC_PORT_FREQ, 0, 24, .ro, false⟩
def F.SLC_PORT_CORR_COUNT : Fld := ⟨.SLC_PORT_CORR, 0, 64, .ro, false⟩
def F.SLC_PORT_UNCORR_COUNT : Fld := ⟨.SLC_PORT_UNCORR, 0, 64, .ro, false⟩
def F.SLC_PORT_CW_COUNT : Fld := ⟨.SLC_PORT_CW, 0, 64, .ro, false⟩
def F.SLC_PORT_TEST_MODE : Fld := ⟨.SLC_PORT_TEST, 0, 2, .rw, false⟩
def F.SLC_PORT_TEST_PRBS_LOCK : Fld := ⟨.SLC_PORT_TEST, 2, 1, .ro, false⟩
def F.SLC_PORT_TEST_LOOPING : Fld := ⟨.SLC_PORT_TEST, 3, 1, .ro, false⟩
def F.SLC_PORT_TEST_ERRORS : Fld := ⟨.SLC_PORT_TEST, 16, 48, .ro, false⟩
def F.SLC_LANE_STAT_LSTATE : Fld := ⟨.SLC_LANE_STAT, 0, 2, .ro, false⟩
def F.SLC_LANE_STAT_LIGHT : Fld := ⟨.SLC_LANE_STAT, 2, 1, .ro, false⟩
def F.SLC_LANE_STAT_BAD : Fld := ⟨.SLC_LANE_STAT, 3, 1, .ro, false⟩
def F.SLC_LANE_STAT_LANE_RX : Fld := ⟨.SLC_LANE_STAT, 4, 3, .ro, false⟩
def F.SLC_LANE_STAT_WIN_INVALID : Fld := ⟨.SLC_LANE_STAT, 8, 7, .ro, false⟩
def F.SLC_LANE_STAT_UNLOCKS : Fld := ⟨.SLC_LANE_STAT, 32, 32, .ro, false⟩
def F.SLC_LSR_CTRL_EN : Fld := ⟨.SLC_LSR_CTRL, 0, 1, .rw, false⟩
def F.SLC_LSR_CTRL_OUT_EN : Fld := ⟨.SLC_LSR_CTRL, 8, 8, .rw, false⟩
def F.SLC_LSR_STAT_PRESENT : Fld := ⟨.SLC_LSR_STAT, 0, 1, .ro, false⟩
def F.SLC_LSR_STAT_MSTATE : Fld := ⟨.SLC_LSR_STAT, 1, 3, .ro, false⟩
def F.SLC_LSR_STAT_READY : Fld := ⟨.SLC_LSR_STAT, 8, 8, .ro, false⟩
def F.SLC_LSR_STAT_ALARM : Fld := ⟨.SLC_LSR_STAT, 16, 1, .ro, false⟩
def F.SLC_LSR_STAT_I2C_ERR : Fld := ⟨.SLC_LSR_STAT, 17, 1, .w1c, false⟩
def F.SLC_LNK_CFG_RACK_ISOLATED : Fld := ⟨.SLC_LNK_CFG, 0, 1, .ro, true⟩
def F.SLC_WLK_CFG_ACK_INT : Fld := ⟨.SLC_WLK_CFG, 0, 11, .rw, false⟩
def F.SLC_WLK_STAT_VER : Fld := ⟨.SLC_WLK_STAT, 0, 16, .ro, false⟩
def F.SLC_WLK_STAT_EFF_MINOR : Fld := ⟨.SLC_WLK_STAT, 16, 8, .ro, false⟩
def F.SLC_WLK_STAT_EPISODE : Fld := ⟨.SLC_WLK_STAT, 24, 1, .ro, false⟩
def F.SLC_WLK_STAT_HUNTING : Fld := ⟨.SLC_WLK_STAT, 25, 1, .ro, false⟩
def F.SLC_WLK_STAT_KEY_WAIT : Fld := ⟨.SLC_WLK_STAT, 26, 1, .ro, false⟩
def F.SLC_WLK_STAT_TX_NEXT : Fld := ⟨.SLC_WLK_STAT, 32, 16, .ro, false⟩
def F.SLC_WLK_STAT_RX_EXPECT : Fld := ⟨.SLC_WLK_STAT, 48, 16, .ro, false⟩
def F.SLC_WLK_EPIS_COUNT : Fld := ⟨.SLC_WLK_EPIS, 0, 64, .ro, false⟩
def F.SLC_WLK_RETX_COUNT : Fld := ⟨.SLC_WLK_RETX, 0, 64, .ro, false⟩
def F.SLC_WLK_DISC_COUNT : Fld := ⟨.SLC_WLK_DISC, 0, 64, .ro, false⟩
def F.SLC_WLK_NACK_TX : Fld := ⟨.SLC_WLK_NACK, 0, 32, .ro, false⟩
def F.SLC_WLK_NACK_RX : Fld := ⟨.SLC_WLK_NACK, 32, 32, .ro, false⟩
def F.SLC_WLK_MAXEP_TK : Fld := ⟨.SLC_WLK_MAXEP, 0, 32, .ro, false⟩
def F.SLC_WLK_TAG_OUTSTANDING : Fld := ⟨.SLC_WLK_TAG, 0, 13, .ro, false⟩
def F.SLC_WLK_TAGREJ_COUNT : Fld := ⟨.SLC_WLK_TAGREJ, 0, 32, .ro, false⟩
def F.SLC_WLK_TAGSTRAY_COUNT : Fld := ⟨.SLC_WLK_TAGSTRAY, 0, 32, .ro, false⟩
def F.SLC_CRD_TX_AVAIL : Fld := ⟨.SLC_CRD, 0, 32, .ro, false⟩
def F.SLC_CRD_RX_AVAIL : Fld := ⟨.SLC_CRD, 32, 32, .ro, false⟩
def F.CFG_STAGE_STAT_STATE : Fld := ⟨.CFG_STAGE_STAT, 0, 3, .ro, false⟩
def F.CFG_STAGE_STAT_KIND : Fld := ⟨.CFG_STAGE_STAT, 3, 1, .ro, false⟩
def F.CFG_STAGE_STAT_PART : Fld := ⟨.CFG_STAGE_STAT, 4, 4, .ro, false⟩
def F.CFG_STAGE_STAT_STATUS : Fld := ⟨.CFG_STAGE_STAT, 16, 16, .ro, false⟩
def F.CFG_STAGE_STAT_COVERED : Fld := ⟨.CFG_STAGE_STAT, 32, 32, .ro, false⟩
def F.CFG_STAGE_CTRL_DISCARD : Fld := ⟨.CFG_STAGE_CTRL, 0, 1, .wo, false⟩
def F.CFG_ERR_LOC_SECTION : Fld := ⟨.CFG_ERR_LOC, 0, 16, .ro, false⟩
def F.CFG_ERR_LOC_PART : Fld := ⟨.CFG_ERR_LOC, 16, 4, .ro, false⟩
def F.CFG_ERR_LOC_INDEX : Fld := ⟨.CFG_ERR_LOC, 32, 32, .ro, false⟩
def F.CFG_COMMIT_AT_COUNT : Fld := ⟨.CFG_COMMIT_AT, 0, 64, .rw, false⟩
def F.CFG_COMMIT_CTRL_ARM : Fld := ⟨.CFG_COMMIT_CTRL, 0, 1, .wo, false⟩
def F.CFG_COMMIT_CTRL_NOW : Fld := ⟨.CFG_COMMIT_CTRL, 1, 1, .wo, false⟩
def F.CFG_COMMIT_CTRL_CANCEL : Fld := ⟨.CFG_COMMIT_CTRL, 2, 1, .wo, false⟩
def F.CFG_COMMIT_STAT_LAST_STATUS : Fld := ⟨.CFG_COMMIT_STAT, 0, 16, .ro, false⟩
def F.CFG_COMMIT_STAT_LAST_KIND : Fld := ⟨.CFG_COMMIT_STAT, 16, 1, .ro, false⟩
def F.CFG_COMMIT_STAT_LAST_PART : Fld := ⟨.CFG_COMMIT_STAT, 17, 4, .ro, false⟩
def F.CFG_COMMIT_TICK_COUNT : Fld := ⟨.CFG_COMMIT_TICK, 0, 64, .ro, false⟩
def F.CFG_COMMITS_COUNT : Fld := ⟨.CFG_COMMITS, 0, 32, .ro, false⟩
def F.CFG_PART_DEFINED_MASK : Fld := ⟨.CFG_PART_DEFINED, 0, 16, .ro, true⟩
def F.CFG_DEV_DIGEST_DIGEST : Fld := ⟨.CFG_DEV_DIGEST, 0, 64, .ro, true⟩
def F.CFG_STAGED_DIGEST_DIGEST : Fld := ⟨.CFG_STAGED_DIGEST, 0, 64, .ro, false⟩
def F.CFG_PART_DIGEST_DIGEST : Fld := ⟨.CFG_PART_DIGEST, 0, 64, .ro, true⟩
def F.GLB_ID_VENDOR : Fld := ⟨.GLB_ID, 0, 16, .ro, false⟩
def F.GLB_ID_DEVICE : Fld := ⟨.GLB_ID, 16, 16, .ro, false⟩
def F.GLB_ID_STEPPING : Fld := ⟨.GLB_ID, 32, 8, .ro, false⟩
def F.GLB_ID_GRADE : Fld := ⟨.GLB_ID, 40, 1, .ro, false⟩
def F.GLB_ID_CHIP : Fld := ⟨.GLB_ID, 48, 4, .ro, false⟩
def F.GLB_SERIAL_SERIAL : Fld := ⟨.GLB_SERIAL, 0, 64, .ro, false⟩
def F.GLB_FW_VERSION_VERSION : Fld := ⟨.GLB_FW_VERSION, 0, 64, .ro, false⟩
def F.GLB_FW_DIGEST_DIGEST : Fld := ⟨.GLB_FW_DIGEST, 0, 64, .ro, false⟩
def F.GLB_STATUS_MP_READY : Fld := ⟨.GLB_STATUS, 0, 1, .ro, false⟩
def F.GLB_STATUS_RECOVERY : Fld := ⟨.GLB_STATUS, 1, 1, .ro, false⟩
def F.GLB_STATUS_SAFE : Fld := ⟨.GLB_STATUS, 2, 1, .ro, false⟩
def F.GLB_STATUS_STANDBY : Fld := ⟨.GLB_STATUS, 3, 1, .ro, false⟩
def F.GLB_SCRATCH_VALUE : Fld := ⟨.GLB_SCRATCH, 0, 64, .rw, false⟩
def F.MGT_HP_STAT_LINK_UP : Fld := ⟨.MGT_HP_STAT, 0, 1, .ro, false⟩
def F.MGT_HP_STAT_WIDTH : Fld := ⟨.MGT_HP_STAT, 1, 4, .ro, false⟩
def F.MGT_HP_STAT_SPEED : Fld := ⟨.MGT_HP_STAT, 5, 3, .ro, false⟩
def F.MGT_HP_STAT_RSP_LOST : Fld := ⟨.MGT_HP_STAT, 16, 16, .ro, false⟩
def F.MGT_FWD_CFG_TMO : Fld := ⟨.MGT_FWD_CFG, 0, 14, .rw, false⟩
def F.MGT_FWD_STAT_OUTSTANDING : Fld := ⟨.MGT_FWD_STAT, 0, 11, .ro, false⟩
def F.MGT_FWD_STAT_LATE : Fld := ⟨.MGT_FWD_STAT, 16, 16, .ro, false⟩
def F.MGT_BOARD_COORD : Fld := ⟨.MGT_BOARD, 0, 12, .rw, false⟩
def F.MGT_BOARD_VALID : Fld := ⟨.MGT_BOARD, 12, 1, .rw, false⟩
def F.MGT_SQ_BASE_ADDR : Fld := ⟨.MGT_SQ_BASE, 0, 64, .rw, false⟩
def F.MGT_SQ_CFG_LOG2 : Fld := ⟨.MGT_SQ_CFG, 0, 5, .rw, false⟩
def F.MGT_SQ_TAIL_TAIL : Fld := ⟨.MGT_SQ_TAIL, 0, 16, .rw, false⟩
def F.MGT_SQ_HEAD_HEAD : Fld := ⟨.MGT_SQ_HEAD, 0, 16, .ro, false⟩
def F.MGT_CQ_BASE_ADDR : Fld := ⟨.MGT_CQ_BASE, 0, 64, .rw, false⟩
def F.MGT_CQ_CFG_LOG2 : Fld := ⟨.MGT_CQ_CFG, 0, 5, .rw, false⟩
def F.MGT_CQ_HEAD_HEAD : Fld := ⟨.MGT_CQ_HEAD, 0, 16, .rw, false⟩
def F.MGT_CQ_TAIL_TAIL : Fld := ⟨.MGT_CQ_TAIL, 0, 16, .ro, false⟩
def F.MGT_QP_CTRL_EN : Fld := ⟨.MGT_QP_CTRL, 0, 1, .rw, false⟩
def F.MGT_QP_CTRL_VECTOR : Fld := ⟨.MGT_QP_CTRL, 1, 4, .rw, false⟩
def F.MGT_QP_CTRL_IRQ_EN : Fld := ⟨.MGT_QP_CTRL, 5, 1, .rw, false⟩
def F.MGT_QP_STAT_STOPPED : Fld := ⟨.MGT_QP_STAT, 0, 1, .ro, false⟩
def F.MGT_QP_STAT_TAKEN : Fld := ⟨.MGT_QP_STAT, 16, 16, .ro, false⟩
def F.SEC_POLICY_HOST_OPEN : Fld := ⟨.SEC_POLICY, 0, 1, .ro, true⟩
def F.SEC_POLICY_EP_AUTH_DEFAULT : Fld := ⟨.SEC_POLICY, 1, 1, .ro, true⟩
def F.SEC_FUSE_JTAG_LOCK : Fld := ⟨.SEC_FUSE, 0, 1, .ro, false⟩
def F.SEC_FUSE_IDENT_VALID : Fld := ⟨.SEC_FUSE, 1, 1, .ro, false⟩
def F.SEC_FUSE_OPKEY0_FUSED : Fld := ⟨.SEC_FUSE, 2, 1, .ro, false⟩
def F.SEC_FUSE_OPKEY0_REVOKED : Fld := ⟨.SEC_FUSE, 3, 1, .ro, false⟩
def F.SEC_FUSE_FW_KEY_VALID : Fld := ⟨.SEC_FUSE, 4, 1, .ro, false⟩
def F.SEC_DEBUG_JTAG_USED : Fld := ⟨.SEC_DEBUG, 0, 1, .ros, false⟩
def F.SEC_SESSIONS_OPEN : Fld := ⟨.SEC_SESSIONS, 0, 7, .ro, false⟩
def F.SEC_OPKEY_STATE : Fld := ⟨.SEC_OPKEY, 0, 2, .ro, false⟩
def F.SEC_OPKEY_DIG_DIGEST : Fld := ⟨.SEC_OPKEY_DIG, 0, 64, .ro, false⟩
def F.SEC_PART_STAT_STATE : Fld := ⟨.SEC_PART_STAT, 0, 3, .ro, false⟩
def F.SEC_PART_STAT_ZEROISING : Fld := ⟨.SEC_PART_STAT, 3, 1, .ro, false⟩
def F.SEC_PART_STAT_DEBUG : Fld := ⟨.SEC_PART_STAT, 4, 2, .ro, false⟩
def F.SEC_PART_STAT_OPERATOR_ACCESS : Fld := ⟨.SEC_PART_STAT, 6, 1, .ro, true⟩
def F.SEC_PART_STAT_EP_AUTH : Fld := ⟨.SEC_PART_STAT, 7, 1, .ro, true⟩
def F.SEC_PART_STAT_SESSIONS : Fld := ⟨.SEC_PART_STAT, 8, 8, .ro, false⟩
def F.SEC_PART_RM_DEADLINE : Fld := ⟨.SEC_PART_RM, 0, 14, .ro, false⟩
def F.SEC_PART_RM_ABORTED : Fld := ⟨.SEC_PART_RM, 16, 12, .ro, false⟩
def F.SEC_PART_RM_MG_DISCARDED : Fld := ⟨.SEC_PART_RM, 32, 13, .ro, false⟩
def F.SEC_PART_DROP_DROP_TX : Fld := ⟨.SEC_PART_DROP, 0, 32, .ro, false⟩
def F.SEC_PART_DROP_DROP_RX : Fld := ⟨.SEC_PART_DROP, 32, 32, .ro, false⟩
def F.SEC_LKEY_TX_EPOCH : Fld := ⟨.SEC_LKEY, 0, 2, .ro, false⟩
def F.SEC_LKEY_TX_VALID : Fld := ⟨.SEC_LKEY, 2, 1, .ro, false⟩
def F.SEC_LKEY_REKEY_PENDING : Fld := ⟨.SEC_LKEY, 3, 1, .ro, false⟩
def F.SEC_LKEY_RX_STATE : Fld := ⟨.SEC_LKEY, 4, 8, .ro, false⟩
def F.SEC_LKEY_GEN : Fld := ⟨.SEC_LKEY, 16, 32, .ro, false⟩
def F.SEC_PVIOL_COUNT : Fld := ⟨.SEC_PVIOL, 0, 32, .ro, false⟩
def F.FC_CTRL_IRQ_EN : Fld := ⟨.FC_CTRL, 0, 1, .rw, false⟩
def F.FC_ERR_ERR_MIN : Fld := ⟨.FC_ERR, 0, 2, .rw, false⟩
def F.FC_ERR_HOLD : Fld := ⟨.FC_ERR, 2, 1, .rw, false⟩
def F.FC_ERR_PULSE : Fld := ⟨.FC_ERR, 4, 10, .rw, false⟩
def F.FC_ERR_ASSERTED : Fld := ⟨.FC_ERR, 14, 1, .ro, false⟩
def F.FC_ERR_PULSING : Fld := ⟨.FC_ERR, 15, 1, .ro, false⟩
def F.FC_SAFE_SAFE : Fld := ⟨.FC_SAFE, 0, 1, .ro, false⟩
def F.FC_SAFE_CAUSE : Fld := ⟨.FC_SAFE, 1, 6, .ro, false⟩
def F.FC_SAFE_EXIT_REFUSED : Fld := ⟨.FC_SAFE, 7, 1, .w1c, false⟩
def F.FC_SAFE_EXIT : Fld := ⟨.FC_SAFE, 8, 1, .wo, false⟩
def F.FC_INJ_CHECKER : Fld := ⟨.FC_INJ, 0, 4, .rw, false⟩
def F.FC_INJ_MODE : Fld := ⟨.FC_INJ, 4, 2, .rw, false⟩
def F.FC_INJ_INSTANCE : Fld := ⟨.FC_INJ, 6, 10, .rw, false⟩
def F.FC_INJ_GO : Fld := ⟨.FC_INJ, 16, 1, .wo, false⟩
def F.FC_INJ_ARMED : Fld := ⟨.FC_INJ, 17, 1, .ro, false⟩
def F.FC_INJ_INJ_IGNORED : Fld := ⟨.FC_INJ, 18, 1, .w1c, false⟩
def F.FC_STAT_STATUS : Fld := ⟨.FC_STAT, 0, 64, .w1c, false⟩
def F.FC_SEV_SEV : Fld := ⟨.FC_SEV, 0, 32, .rw, false⟩
def F.FC_EVQ_STAT_FILL : Fld := ⟨.FC_EVQ_STAT, 0, 17, .ro, false⟩
def F.FC_EVQ_STAT_NEXT_SEQ : Fld := ⟨.FC_EVQ_STAT, 32, 32, .ro, false⟩
def F.FC_EVQ_LOST_LOST : Fld := ⟨.FC_EVQ_LOST, 0, 32, .ro, false⟩
def F.FC_QECC_EVQ_CORR : Fld := ⟨.FC_QECC, 0, 16, .ro, false⟩
def F.FC_QECC_MG_CORR : Fld := ⟨.FC_QECC, 16, 16, .ro, false⟩
def F.FC_QECC_EVQ_UE : Fld := ⟨.FC_QECC, 32, 16, .ro, false⟩
def F.FC_QECC_MG_UE : Fld := ⟨.FC_QECC, 48, 16, .ro, false⟩
def F.FC_SRC_CNT_COUNT : Fld := ⟨.FC_SRC_CNT, 0, 32, .ro, false⟩
def F.FC_SRC_FIRST_TICK : Fld := ⟨.FC_SRC_FIRST, 0, 64, .ro, false⟩
def F.FC_SRC_INST_FIRST : Fld := ⟨.FC_SRC_INST, 0, 16, .ro, false⟩
def F.FC_SRC_INST_LAST : Fld := ⟨.FC_SRC_INST, 16, 16, .ro, false⟩
def F.TEL_SNAP_STAT_STATE : Fld := ⟨.TEL_SNAP_STAT, 0, 2, .ro, false⟩
def F.TEL_SNAP_STAT_SLICES : Fld := ⟨.TEL_SNAP_STAT, 16, 16, .ro, false⟩
def F.TEL_SNAP_STAT_SAMPLES : Fld := ⟨.TEL_SNAP_STAT, 32, 1, .ro, false⟩
def F.TEL_SNAP_STAT_LENGTH : Fld := ⟨.TEL_SNAP_STAT, 33, 20, .ro, false⟩
def F.TEL_SNAP_STAT_COUNT : Fld := ⟨.TEL_SNAP_STAT, 53, 11, .ro, false⟩
def F.TEL_SNAP_TICK_TICK : Fld := ⟨.TEL_SNAP_TICK, 0, 64, .ro, false⟩
def F.PWR_STATUS_SEQ : Fld := ⟨.PWR_STATUS, 0, 3, .ro, false⟩
def F.PWR_STATUS_FAIL_RAIL : Fld := ⟨.PWR_STATUS, 4, 6, .ro, false⟩
def F.PWR_STATUS_FAIL_KIND : Fld := ⟨.PWR_STATUS, 10, 2, .ro, false⟩
def F.PWR_STATUS_ERR_DRIVE : Fld := ⟨.PWR_STATUS, 12, 1, .ro, false⟩
def F.PWR_RST_CAUSE_VIN : Fld := ⟨.PWR_RST_CAUSE, 0, 1, .w1c, false⟩
def F.PWR_RST_CAUSE_BROWNOUT : Fld := ⟨.PWR_RST_CAUSE, 1, 1, .w1c, false⟩
def F.PWR_RST_CAUSE_POWER_CYCLE : Fld := ⟨.PWR_RST_CAUSE, 2, 1, .w1c, false⟩
def F.PWR_RST_CAUSE_RAIL_CLEAR : Fld := ⟨.PWR_RST_CAUSE, 3, 1, .w1c, false⟩
def F.PWR_RST_CAUSE_THERM_SHUTDOWN : Fld := ⟨.PWR_RST_CAUSE, 4, 1, .w1c, false⟩
def F.PWR_RST_CAUSE_WARM : Fld := ⟨.PWR_RST_CAUSE, 5, 1, .w1c, false⟩
def F.PWR_RST_CAUSE_WARM_SMBUS : Fld := ⟨.PWR_RST_CAUSE, 6, 1, .w1c, false⟩
def F.PWR_RST_CAUSE_MP : Fld := ⟨.PWR_RST_CAUSE, 7, 1, .w1c, false⟩
def F.PWR_RST_CAUSE_WDT : Fld := ⟨.PWR_RST_CAUSE, 8, 1, .w1c, false⟩
def F.PWR_RST_CAUSE_SLICE : Fld := ⟨.PWR_RST_CAUSE, 9, 1, .w1c, false⟩
def F.PWR_RST_CAUSE_BROWNOUTS : Fld := ⟨.PWR_RST_CAUSE, 16, 8, .ro, false⟩
def F.PWR_RST_CMD_WARM : Fld := ⟨.PWR_RST_CMD, 0, 1, .wo, false⟩
def F.PWR_RST_CMD_MP : Fld := ⟨.PWR_RST_CMD, 1, 1, .wo, false⟩
def F.PWR_RST_CMD_KEY : Fld := ⟨.PWR_RST_CMD, 8, 8, .wo, false⟩
def F.PWR_RST_CMD_SLICE : Fld := ⟨.PWR_RST_CMD, 16, 16, .wo, false⟩
def F.PWR_STANDBY_REQ : Fld := ⟨.PWR_STANDBY, 0, 1, .wo, false⟩
def F.PWR_STANDBY_EXIT : Fld := ⟨.PWR_STANDBY, 1, 1, .wo, false⟩
def F.PWR_STANDBY_ACTIVE : Fld := ⟨.PWR_STANDBY, 2, 1, .ro, false⟩
def F.PWR_STANDBY_REFUSED : Fld := ⟨.PWR_STANDBY, 3, 1, .w1c, false⟩
def F.PWR_CAP_CFG_LIMIT : Fld := ⟨.PWR_CAP_CFG, 0, 10, .rw, false⟩
def F.PWR_CAP_CFG_HYST : Fld := ⟨.PWR_CAP_CFG, 10, 6, .rw, false⟩
def F.PWR_CAP_STAT_ACTIVE : Fld := ⟨.PWR_CAP_STAT, 0, 1, .ro, false⟩
def F.PWR_CAP_STAT_FLOOR : Fld := ⟨.PWR_CAP_STAT, 1, 1, .ro, false⟩
def F.PWR_CAP_STAT_FAST_TRIP : Fld := ⟨.PWR_CAP_STAT, 2, 1, .w1c, false⟩
def F.PWR_CAP_STAT_STEPS : Fld := ⟨.PWR_CAP_STAT, 16, 16, .ro, false⟩
def F.PWR_VIN_VOLT : Fld := ⟨.PWR_VIN, 0, 16, .ro, false⟩
def F.PWR_VIN_CURR : Fld := ⟨.PWR_VIN, 16, 16, .ro, false⟩
def F.PWR_VIN_POWER : Fld := ⟨.PWR_VIN, 32, 16, .ro, false⟩
def F.PWR_WDT_TMO : Fld := ⟨.PWR_WDT, 0, 16, .rw, false⟩
def F.PWR_WDT_KICK : Fld := ⟨.PWR_WDT, 16, 1, .wo, false⟩
def F.PWR_WDT_EN : Fld := ⟨.PWR_WDT, 17, 1, .rw, false⟩
def F.PWR_THERM_THROTTLE : Fld := ⟨.PWR_THERM, 0, 8, .rw, false⟩
def F.PWR_THERM_TRIP : Fld := ⟨.PWR_THERM, 8, 8, .ro, false⟩
def F.PWR_COMMIT_GO : Fld := ⟨.PWR_COMMIT, 0, 16, .wo, false⟩
def F.PWR_SLICE_REQ_PLVL : Fld := ⟨.PWR_SLICE_REQ, 0, 2, .rwc, false⟩
def F.PWR_SLICE_REQ_SLEEP : Fld := ⟨.PWR_SLICE_REQ, 2, 2, .rwc, false⟩
def F.PWR_SLICE_AT_AT : Fld := ⟨.PWR_SLICE_AT, 0, 64, .rwc, false⟩
def F.PWR_SLICE_STAT_STATE : Fld := ⟨.PWR_SLICE_STAT, 0, 3, .ro, false⟩
def F.PWR_SLICE_STAT_PLVL : Fld := ⟨.PWR_SLICE_STAT, 3, 2, .ro, false⟩
def F.PWR_SLICE_STAT_CAP_PLVL : Fld := ⟨.PWR_SLICE_STAT, 5, 2, .ro, false⟩
def F.PWR_SLICE_STAT_LATE : Fld := ⟨.PWR_SLICE_STAT, 7, 1, .w1c, false⟩
def F.PWR_SLICE_STAT_RSN : Fld := ⟨.PWR_SLICE_STAT, 8, 4, .ro, false⟩
def F.PWR_SLICE_STAT_THERM_PLVL : Fld := ⟨.PWR_SLICE_STAT, 12, 2, .ro, false⟩
def F.PWR_SLICE_STAT_REFUSALS : Fld := ⟨.PWR_SLICE_STAT, 16, 16, .ro, false⟩
def F.PWR_SLICE_STAT_CHANGES : Fld := ⟨.PWR_SLICE_STAT, 32, 32, .ro, false⟩
def F.PWR_SLICE_TEMP_TEMP : Fld := ⟨.PWR_SLICE_TEMP, 0, 8, .ro, false⟩
def F.PWR_SLICE_TEMP_MAX : Fld := ⟨.PWR_SLICE_TEMP, 8, 8, .ro, false⟩
def F.PWR_RAIL_STAT_STATE : Fld := ⟨.PWR_RAIL_STAT, 0, 2, .ro, false⟩
def F.PWR_RAIL_STAT_LOWPWR : Fld := ⟨.PWR_RAIL_STAT, 2, 1, .ro, false⟩
def F.PWR_RAIL_STAT_FAIL_WINDOW : Fld := ⟨.PWR_RAIL_STAT, 8, 1, .ro, false⟩
def F.PWR_RAIL_STAT_FAIL_CURRENT : Fld := ⟨.PWR_RAIL_STAT, 9, 1, .ro, false⟩
def F.PWR_RAIL_STAT_MV : Fld := ⟨.PWR_RAIL_STAT, 16, 16, .ro, false⟩
def F.PWR_RAIL_STAT_CURR : Fld := ⟨.PWR_RAIL_STAT, 32, 16, .ro, false⟩
def F.PWR_RAIL_STAT_TRIPS : Fld := ⟨.PWR_RAIL_STAT, 48, 16, .ro, false⟩
def F.GLB_BOOT_STAT_SLOT : Fld := ⟨.GLB_BOOT_STAT, 0, 1, .ro, false⟩
def F.GLB_BOOT_STAT_TRIAL : Fld := ⟨.GLB_BOOT_STAT, 1, 1, .ro, false⟩
def F.GLB_BOOT_STAT_CONFIRMED : Fld := ⟨.GLB_BOOT_STAT, 2, 1, .ro, false⟩
def F.GLB_BOOT_STAT_EXPIRED : Fld := ⟨.GLB_BOOT_STAT, 3, 1, .ro, false⟩
def F.GLB_BOOT_STAT_FELL_BACK : Fld := ⟨.GLB_BOOT_STAT, 4, 1, .ro, false⟩
def F.GLB_BOOT_STAT_INSTALLED : Fld := ⟨.GLB_BOOT_STAT, 5, 1, .ro, false⟩
def F.GLB_BOOT_STAT_STAGE_REJECTED : Fld := ⟨.GLB_BOOT_STAT, 6, 1, .ro, false⟩
def F.GLB_BOOT_STAT_SETTINGS_RESET : Fld := ⟨.GLB_BOOT_STAT, 7, 1, .ro, false⟩
def F.GLB_BOOT_STAT_FAILS : Fld := ⟨.GLB_BOOT_STAT, 8, 4, .ro, false⟩
def F.GLB_BOOT_STAT_RECOVERY_CAUSE : Fld := ⟨.GLB_BOOT_STAT, 12, 4, .ro, false⟩
def F.GLB_BOOT_STAT_MIN_SVN : Fld := ⟨.GLB_BOOT_STAT, 16, 8, .ro, false⟩
def F.GLB_BOOT_STAT_RUN_SVN : Fld := ⟨.GLB_BOOT_STAT, 24, 8, .ro, false⟩
def F.GLB_BOOT_CTRL_HEALTH_CONFIRM : Fld := ⟨.GLB_BOOT_CTRL, 0, 1, .wo, false⟩
def F.GLB_BOOT_TIMER_LEFT : Fld := ⟨.GLB_BOOT_TIMER, 0, 10, .ro, false⟩
def F.GLB_FW_SLOT_STATE : Fld := ⟨.GLB_FW_SLOT, 0, 3, .ro, false⟩
def F.GLB_FW_SLOT_SVN : Fld := ⟨.GLB_FW_SLOT, 8, 8, .ro, false⟩
def F.GLB_FW_SLOT_VER_VERSION : Fld := ⟨.GLB_FW_SLOT_VER, 0, 64, .ro, false⟩
def F.GLB_FW_STAGE_STATE : Fld := ⟨.GLB_FW_STAGE, 0, 3, .ro, false⟩
def F.GLB_FW_STAGE_BLOCKS : Fld := ⟨.GLB_FW_STAGE, 32, 11, .ro, false⟩
def F.GLB_FW_STAGE_VER_VERSION : Fld := ⟨.GLB_FW_STAGE_VER, 0, 64, .ro, false⟩
def F.GLB_FW_RELAY_STATE : Fld := ⟨.GLB_FW_RELAY, 0, 2, .ro, false⟩
def F.GLB_FW_RELAY_TRIES : Fld := ⟨.GLB_FW_RELAY, 2, 2, .ro, false⟩
def F.GLB_FW_RELAY_LAST_STATUS : Fld := ⟨.GLB_FW_RELAY, 16, 16, .ro, false⟩

/-- The fields of each register. -/
def RegName.fields : RegName → List Fld
  | .GLB_REPLAY_CLASS => [F.GLB_REPLAY_CLASS_CODE_FMT, F.GLB_REPLAY_CLASS_BEHAV_STEP, F.GLB_REPLAY_CLASS_ARITH_REV, F.GLB_REPLAY_CLASS_TIMING_REV, F.GLB_REPLAY_CLASS_SR_REV, F.GLB_REPLAY_CLASS_CHECK]
  | .GLB_DISABLED_SLICE => [F.GLB_DISABLED_SLICE_SLICE]
  | .GLB_DISABLED_PORT => [F.GLB_DISABLED_PORT_PORT]
  | .GLB_DISABLED_CORE => [F.GLB_DISABLED_CORE_CORE]
  | .GLB_FMASK_SLICE => [F.GLB_FMASK_SLICE_SLICE]
  | .GLB_FMASK_PORT => [F.GLB_FMASK_PORT_PORT]
  | .GLB_FMASK_CORE => [F.GLB_FMASK_CORE_CORE]
  | .GLB_MG_MODE => [F.GLB_MG_MODE_MODE, F.GLB_MG_MODE_REPLAY_REQ, F.GLB_MG_MODE_STALLED]
  | .GLB_MG_SEQ => [F.GLB_MG_SEQ_SEQ]
  | .GLB_MG_LOST => [F.GLB_MG_LOST_LOST]
  | .GLB_MG_FILL => [F.GLB_MG_FILL_FILL]
  | .GLB_MG_DRAIN_DEST => [F.GLB_MG_DRAIN_DEST_DEST, F.GLB_MG_DRAIN_DEST_DRAIN_HOST]
  | .GLB_MG_DRAIN_TMO => [F.GLB_MG_DRAIN_TMO_TMO]
  | .GLB_MG_HEAD_CHAIN => [F.GLB_MG_HEAD_CHAIN_CHAIN]
  | .GLB_MG_TAIL_CHAIN => [F.GLB_MG_TAIL_CHAIN_CHAIN]
  | .GLB_MG_CONTRACT => [F.GLB_MG_CONTRACT_DIGEST]
  | .SCH_CTX_CFG => [F.SCH_CTX_CFG_PART, F.SCH_CTX_CFG_KIND, F.SCH_CTX_CFG_OP, F.SCH_CTX_CFG_ARITH, F.SCH_CTX_CFG_TRANSPORT, F.SCH_CTX_CFG_ROUND, F.SCH_CTX_CFG_OUT_SCALED, F.SCH_CTX_CFG_IN_FMT, F.SCH_CTX_CFG_OUT_FMT, F.SCH_CTX_CFG_SCALED, F.SCH_CTX_CFG_B32, F.SCH_CTX_CFG_TILE_BLK, F.SCH_CTX_CFG_TILES, F.SCH_CTX_CFG_TEMPLATE, F.SCH_CTX_CFG_ACLASS]
  | .SCH_CTX_GROUP => [F.SCH_CTX_GROUP_GROUP, F.SCH_CTX_GROUP_MEMBERS, F.SCH_CTX_GROUP_EPOCH]
  | .SCH_CTX_PRESENT0 => [F.SCH_CTX_PRESENT0_INPUT]
  | .SCH_CTX_PRESENT1 => [F.SCH_CTX_PRESENT1_INPUT]
  | .SCH_CTX_START => [F.SCH_CTX_START_START]
  | .SCH_CTX_CMD => [F.SCH_CTX_CMD_ARM, F.SCH_CTX_CMD_CANCEL, F.SCH_CTX_CMD_ABORT, F.SCH_CTX_CMD_UNBIND, F.SCH_CTX_CMD_LAUNCHES]
  | .SCH_CTX_COMMIT => [F.SCH_CTX_COMMIT_GO]
  | .SCH_CTX_STATUS => [F.SCH_CTX_STATUS_STATE, F.SCH_CTX_STATUS_COMPLETED, F.SCH_CTX_STATUS_ABORT_IGNORED, F.SCH_CTX_STATUS_ABORTED, F.SCH_CTX_STATUS_SLIPPED, F.SCH_CTX_STATUS_RES_NAN, F.SCH_CTX_STATUS_RES_OVF, F.SCH_CTX_STATUS_CMD_IGNORED, F.SCH_CTX_STATUS_ABORT_RSN, F.SCH_CTX_STATUS_BIND_RSN, F.SCH_CTX_STATUS_REJ_RSN, F.SCH_CTX_STATUS_LEFT]
  | .SCH_CTX_LAUNCH => [F.SCH_CTX_LAUNCH_LCOUNT]
  | .SCH_CTX_CLAMP => [F.SCH_CTX_CLAMP_PHX_CLAMP]
  | .SCH_CTX_STALE => [F.SCH_CTX_STALE_STALE]
  | .SCH_CTX_REJECT => [F.SCH_CTX_REJECT_REJECT]
  | .SCH_CTX_TMO => [F.SCH_CTX_TMO_TMO]
  | .SCH_COUNT => [F.SCH_COUNT_COUNT]
  | .SCH_SYNC_CFG => [F.SCH_SYNC_CFG_SOURCE, F.SCH_SYNC_CFG_PARENT, F.SCH_SYNC_CFG_PARENT_VALID, F.SCH_SYNC_CFG_BACKUP, F.SCH_SYNC_CFG_BACKUP_VALID, F.SCH_SYNC_CFG_HOLD_EPOCHS]
  | .SCH_SYNC_STATUS => [F.SCH_SYNC_STATUS_STATE, F.SCH_SYNC_STATUS_ACTIVE, F.SCH_SYNC_STATUS_ON_BACKUP, F.SCH_SYNC_STATUS_MISSED, F.SCH_SYNC_STATUS_EARLY_PULSES]
  | .SCH_LOAD => [F.SCH_LOAD_LOAD]
  | .SCH_LOAD_CMD => [F.SCH_LOAD_CMD_ARM]
  | .SCH_OFFSET => [F.SCH_OFFSET_THETA, F.SCH_OFFSET_VALID]
  | .SCH_PATH_DELAY => [F.SCH_PATH_DELAY_DELAY]
  | .SCH_PULSE_OFS => [F.SCH_PULSE_OFS_PHI, F.SCH_PULSE_OFS_SEEN]
  | .SCH_CORR => [F.SCH_CORR_STEPS]
  | .SCH_ASYM => [F.SCH_ASYM_PARENT_ASYM, F.SCH_ASYM_BACKUP_ASYM]
  | .SCH_ROUND_CFG => [F.SCH_ROUND_CFG_LOG2_LEN, F.SCH_ROUND_CFG_GUARD, F.SCH_ROUND_CFG_CATCHUP]
  | .SCH_LAG => [F.SCH_LAG_LAG, F.SCH_LAG_RUN, F.SCH_LAG_PAUSED, F.SCH_LAG_PAUSE_PORT, F.SCH_LAG_PAUSE_CTX]
  | .SCH_SLIP => [F.SCH_SLIP_SLIPS]
  | .SCH_PAUSE => [F.SCH_PAUSE_PAUSED_TK]
  | .SCH_SLOT => [F.SCH_SLOT_OFFSET, F.SCH_SLOT_LEN, F.SCH_SLOT_CTX, F.SCH_SLOT_NFR, F.SCH_SLOT_VALID]
  | .SCH_CTX_PERIOD => [F.SCH_CTX_PERIOD_PERIOD]
  | .RC_ID => [F.RC_ID_PHYS, F.RC_ID_SLICE, F.RC_ID_PART, F.RC_ID_ENABLED]
  | .RC_CTRL => [F.RC_CTRL_HALT_REQ, F.RC_CTRL_RESUME, F.RC_CTRL_STEP, F.RC_CTRL_BREAK_EN]
  | .RC_STATUS => [F.RC_STATUS_STATE, F.RC_STATUS_CMD_IGNORED, F.RC_STATUS_CTX, F.RC_STATUS_ENTRY, F.RC_STATUS_WAIT_SE, F.RC_STATUS_WAIT_DRAIN, F.RC_STATUS_INSPECT_REFUSED, F.RC_STATUS_WIN_REFUSED, F.RC_STATUS_FORCED]
  | .RC_PC => [F.RC_PC_PC]
  | .RC_HALT => [F.RC_HALT_ADDR, F.RC_HALT_CAUSE, F.RC_HALT_REASON, F.RC_HALT_SLOT, F.RC_HALT_AFTER_ISSUE, F.RC_HALT_VALID, F.RC_HALT_INFO]
  | .RC_CYCLE => [F.RC_CYCLE_CYCLE]
  | .RC_BREAK => [F.RC_BREAK_ADDR]
  | .RC_ECC => [F.RC_ECC_CORR, F.RC_ECC_UNCORR]
  | .RC_PEND => [F.RC_PEND_PENDING]
  | .RC_BIND => [F.RC_BIND_CTX, F.RC_BIND_STAGE, F.RC_BIND_ENTRY, F.RC_BIND_WIN_BASE, F.RC_BIND_WIN_SIZE, F.RC_BIND_VALID]
  | .RC_SE_STAT => [F.RC_SE_STAT_STATE, F.RC_SE_STAT_DIR, F.RC_SE_STAT_CTX, F.RC_SE_STAT_TARGET, F.RC_SE_STAT_FAULT_RSN, F.RC_SE_STAT_DESC]
  | .RC_SE_COUNT => [F.RC_SE_COUNT_COUNT, F.RC_SE_COUNT_REL]
  | .RC_S => [F.RC_S_VALUE]
  | .RC_A => [F.RC_A_VALUE]
  | .RC_P => [F.RC_P_VALUE]
  | .RC_V => [F.RC_V_LANE]
  | .SLC_BUF_CTRL => [F.SLC_BUF_CTRL_AUDIT_LOG2, F.SLC_BUF_CTRL_AUDIT_EN, F.SLC_BUF_CTRL_DRAIN_TMO]
  | .SLC_DRAIN => [F.SLC_DRAIN_STATE, F.SLC_DRAIN_TARGET, F.SLC_DRAIN_EARLY, F.SLC_DRAIN_DROPPED]
  | .SLC_DROP => [F.SLC_DROP_COUNT]
  | .SLC_POOL_CFG => [F.SLC_POOL_CFG_BASE, F.SLC_POOL_CFG_SIZE, F.SLC_POOL_CFG_RESERVE, F.SLC_POOL_CFG_ORIG_RSV]
  | .SLC_POOL_STAT => [F.SLC_POOL_STAT_FREE, F.SLC_POOL_STAT_CACHED, F.SLC_POOL_STAT_LOSSY, F.SLC_POOL_STAT_ORIG]
  | .SLC_POOL_ERR => [F.SLC_POOL_ERR_BAD_PTR, F.SLC_POOL_ERR_DOUBLE_FREE]
  | .SLC_POOL_AUDIT => [F.SLC_POOL_AUDIT_DEFICIT, F.SLC_POOL_AUDIT_AUDITS_FAILED, F.SLC_POOL_AUDIT_RECLAIM_REFUSED, F.SLC_POOL_AUDIT_DONE]
  | .SLC_POOL_CMD => [F.SLC_POOL_CMD_RECLAIM]
  | .SLC_STAGE => [F.SLC_STAGE_SIZE_KIB, F.SLC_STAGE_LOSSLESS_KIB, F.SLC_STAGE_USED_KIB]
  | .SLC_QTHR => [F.SLC_QTHR_MARK_LO, F.SLC_QTHR_MARK_HI, F.SLC_QTHR_QMAX]
  | .SLC_RT_CFG => [F.SLC_RT_CFG_X, F.SLC_RT_CFG_Y, F.SLC_RT_CFG_Z, F.SLC_RT_CFG_XSIZE, F.SLC_RT_CFG_YSIZE, F.SLC_RT_CFG_ZSIZE, F.SLC_RT_CFG_HOP_LIMIT, F.SLC_RT_CFG_LIFE]
  | .SLC_RT_FLOW => [F.SLC_RT_FLOW_IDLE_TK, F.SLC_RT_FLOW_MAX]
  | .SLC_RT_CMD => [F.SLC_RT_CMD_FLUSH]
  | .SLC_RT_STATUS => [F.SLC_RT_STATUS_FLUSH_BUSY, F.SLC_RT_STATUS_FLUSH_IGNORED]
  | .SLC_RT_ORD => [F.SLC_RT_ORD_ORD]
  | .SLC_RT_HIT => [F.SLC_RT_HIT_COUNT]
  | .SLC_RT_MISS => [F.SLC_RT_MISS_COUNT]
  | .SLC_RT_COLLIDE => [F.SLC_RT_COLLIDE_COUNT]
  | .SLC_RT_EXPIRE => [F.SLC_RT_EXPIRE_COUNT]
  | .SLC_RT_ECHO_RX => [F.SLC_RT_ECHO_RX_COUNT]
  | .SLC_RT_ECHO_TX => [F.SLC_RT_ECHO_TX_COUNT]
  | .SLC_EDGE => [F.SLC_EDGE_PORT, F.SLC_EDGE_VALID]
  | .SLC_NBR => [F.SLC_NBR_PORTS]
  | .SLC_NBRM => [F.SLC_NBRM_NLINKS, F.SLC_NBRM_MASK, F.SLC_NBRM_UP]
  | .SLC_C7RT => [F.SLC_C7RT_CTX, F.SLC_C7RT_DEST_Y5, F.SLC_C7RT_PORT, F.SLC_C7RT_VALID]
  | .SCH_CTX_RATE => [F.SCH_CTX_RATE_RATE, F.SCH_CTX_RATE_ECHOES]
  | .SCH_CTX_RLIM => [F.SCH_CTX_RLIM_RATE_MAX, F.SCH_CTX_RLIM_RATE_MIN]
  | .SLC_SCHED_CFG => [F.SLC_SCHED_CFG_MODE]
  | .SLC_SHP_COMMIT => [F.SLC_SHP_COMMIT_GO]
  | .SLC_QSAMP_CMD => [F.SLC_QSAMP_CMD_CLEAR_MAX]
  | .SLC_PWGT => [F.SLC_PWGT_PW]
  | .SLC_CWGT => [F.SLC_CWGT_CW, F.SLC_CWGT_CW6]
  | .SLC_PSHP => [F.SLC_PSHP_RATE, F.SLC_PSHP_BURST, F.SLC_PSHP_EN, F.SLC_PSHP_TOKENS]
  | .SLC_TSHP => [F.SLC_TSHP_RATE, F.SLC_TSHP_BURST, F.SLC_TSHP_EN, F.SLC_TSHP_TOKENS]
  | .SLC_POLMAP => [F.SLC_POLMAP_POL, F.SLC_POLMAP_POL_EN]
  | .SLC_QSHP => [F.SLC_QSHP_RATE, F.SLC_QSHP_BURST, F.SLC_QSHP_EN, F.SLC_QSHP_TOKENS]
  | .SLC_POL_CFG => [F.SLC_POL_CFG_CIR, F.SLC_POL_CFG_PIR, F.SLC_POL_CFG_AWARE, F.SLC_POL_CFG_EN]
  | .SLC_POL_SIZE => [F.SLC_POL_SIZE_CBS, F.SLC_POL_SIZE_PBS]
  | .SLC_POL_TOK => [F.SLC_POL_TOK_TC, F.SLC_POL_TOK_TP]
  | .SLC_POL_GREEN => [F.SLC_POL_GREEN_COUNT]
  | .SLC_POL_YELLOW => [F.SLC_POL_YELLOW_COUNT]
  | .SLC_POL_RED => [F.SLC_POL_RED_COUNT]
  | .SLC_QCOL => [F.SLC_QCOL_YMAX, F.SLC_QCOL_RMAX]
  | .SLC_QSAMP => [F.SLC_QSAMP_DEPTH, F.SLC_QSAMP_HOL]
  | .SLC_QMAX => [F.SLC_QMAX_MAX_DEPTH, F.SLC_QMAX_MAX_HOL]
  | .SLC_TXF => [F.SLC_TXF_COUNT]
  | .SLC_TXB => [F.SLC_TXB_COUNT]
  | .SLC_RXF => [F.SLC_RXF_COUNT]
  | .SLC_RXB => [F.SLC_RXB_COUNT]
  | .SLC_MARK => [F.SLC_MARK_COUNT]
  | .SLC_RXD => [F.SLC_RXD_COUNT]
  | .SLC_TXD => [F.SLC_TXD_COUNT]
  | .SLC_STALL => [F.SLC_STALL_TICKS]
  | .SLC_PORT_CFG => [F.SLC_PORT_CFG_LPORT, F.SLC_PORT_CFG_FIRST_LANE, F.SLC_PORT_CFG_WIDTH, F.SLC_PORT_CFG_VALID, F.SLC_PORT_CFG_ROLE, F.SLC_PORT_CFG_FEC_STD, F.SLC_PORT_CFG_EP_CHECK, F.SLC_PORT_CFG_FAR_LOOP_OK, F.SLC_PORT_CFG_PEER_ADDR, F.SLC_PORT_CFG_PEER_PORT]
  | .SLC_PORT_EPID => [F.SLC_PORT_EPID_EPID]
  | .SLC_PORT_CTRL => [F.SLC_PORT_CTRL_EN, F.SLC_PORT_CTRL_RETRAIN, F.SLC_PORT_CTRL_LOCATE]
  | .SLC_PORT_TMR => [F.SLC_PORT_TMR_ALIGN_TMO, F.SLC_PORT_TMR_HOLD, F.SLC_PORT_TMR_RETRAIN_TMO, F.SLC_PORT_TMR_UNC_LIM]
  | .SLC_PORT_STAT => [F.SLC_PORT_STAT_STATE, F.SLC_PORT_STAT_ACTIVE, F.SLC_PORT_STAT_FEC_NOW, F.SLC_PORT_STAT_QRSN, F.SLC_PORT_STAT_REDUCED, F.SLC_PORT_STAT_FW_DIFF, F.SLC_PORT_STAT_MINOR_DIFF, F.SLC_PORT_STAT_DIGEST_DIFF, F.SLC_PORT_STAT_REPLAY_DIFF, F.SLC_PORT_STAT_PEER_QUARANTINED, F.SLC_PORT_STAT_LOOP_REFUSED, F.SLC_PORT_STAT_DOWNS]
  | .SLC_PORT_PEER0 => [F.SLC_PORT_PEER0_ADDR, F.SLC_PORT_PEER0_PORT, F.SLC_PORT_PEER0_ROLE, F.SLC_PORT_PEER0_WALHA_VER, F.SLC_PORT_PEER0_RX_OK]
  | .SLC_PORT_PEER1 => [F.SLC_PORT_PEER1_REPLAY_CLASS]
  | .SLC_PORT_PEER2 => [F.SLC_PORT_PEER2_FW_VERSION]
  | .SLC_PORT_PEER3 => [F.SLC_PORT_PEER3_SERIAL]
  | .SLC_PORT_PDIG => [F.SLC_PORT_PDIG_DIGEST]
  | .SLC_PORT_RTT => [F.SLC_PORT_RTT_RTT]
  | .SLC_PORT_FREQ => [F.SLC_PORT_FREQ_OFFSET]
  | .SLC_PORT_CORR => [F.SLC_PORT_CORR_COUNT]
  | .SLC_PORT_UNCORR => [F.SLC_PORT_UNCORR_COUNT]
  | .SLC_PORT_CW => [F.SLC_PORT_CW_COUNT]
  | .SLC_PORT_TEST => [F.SLC_PORT_TEST_MODE, F.SLC_PORT_TEST_PRBS_LOCK, F.SLC_PORT_TEST_LOOPING, F.SLC_PORT_TEST_ERRORS]
  | .SLC_LANE_STAT => [F.SLC_LANE_STAT_LSTATE, F.SLC_LANE_STAT_LIGHT, F.SLC_LANE_STAT_BAD, F.SLC_LANE_STAT_LANE_RX, F.SLC_LANE_STAT_WIN_INVALID, F.SLC_LANE_STAT_UNLOCKS]
  | .SLC_LSR_CTRL => [F.SLC_LSR_CTRL_EN, F.SLC_LSR_CTRL_OUT_EN]
  | .SLC_LSR_STAT => [F.SLC_LSR_STAT_PRESENT, F.SLC_LSR_STAT_MSTATE, F.SLC_LSR_STAT_READY, F.SLC_LSR_STAT_ALARM, F.SLC_LSR_STAT_I2C_ERR]
  | .SLC_LNK_CFG => [F.SLC_LNK_CFG_RACK_ISOLATED]
  | .SLC_WLK_CFG => [F.SLC_WLK_CFG_ACK_INT]
  | .SLC_WLK_STAT => [F.SLC_WLK_STAT_VER, F.SLC_WLK_STAT_EFF_MINOR, F.SLC_WLK_STAT_EPISODE, F.SLC_WLK_STAT_HUNTING, F.SLC_WLK_STAT_KEY_WAIT, F.SLC_WLK_STAT_TX_NEXT, F.SLC_WLK_STAT_RX_EXPECT]
  | .SLC_WLK_EPIS => [F.SLC_WLK_EPIS_COUNT]
  | .SLC_WLK_RETX => [F.SLC_WLK_RETX_COUNT]
  | .SLC_WLK_DISC => [F.SLC_WLK_DISC_COUNT]
  | .SLC_WLK_NACK => [F.SLC_WLK_NACK_TX, F.SLC_WLK_NACK_RX]
  | .SLC_WLK_MAXEP => [F.SLC_WLK_MAXEP_TK]
  | .SLC_WLK_TAG => [F.SLC_WLK_TAG_OUTSTANDING]
  | .SLC_WLK_TAGREJ => [F.SLC_WLK_TAGREJ_COUNT]
  | .SLC_WLK_TAGSTRAY => [F.SLC_WLK_TAGSTRAY_COUNT]
  | .SLC_CRD => [F.SLC_CRD_TX_AVAIL, F.SLC_CRD_RX_AVAIL]
  | .CFG_STAGE_STAT => [F.CFG_STAGE_STAT_STATE, F.CFG_STAGE_STAT_KIND, F.CFG_STAGE_STAT_PART, F.CFG_STAGE_STAT_STATUS, F.CFG_STAGE_STAT_COVERED]
  | .CFG_STAGE_CTRL => [F.CFG_STAGE_CTRL_DISCARD]
  | .CFG_ERR_LOC => [F.CFG_ERR_LOC_SECTION, F.CFG_ERR_LOC_PART, F.CFG_ERR_LOC_INDEX]
  | .CFG_COMMIT_AT => [F.CFG_COMMIT_AT_COUNT]
  | .CFG_COMMIT_CTRL => [F.CFG_COMMIT_CTRL_ARM, F.CFG_COMMIT_CTRL_NOW, F.CFG_COMMIT_CTRL_CANCEL]
  | .CFG_COMMIT_STAT => [F.CFG_COMMIT_STAT_LAST_STATUS, F.CFG_COMMIT_STAT_LAST_KIND, F.CFG_COMMIT_STAT_LAST_PART]
  | .CFG_COMMIT_TICK => [F.CFG_COMMIT_TICK_COUNT]
  | .CFG_COMMITS => [F.CFG_COMMITS_COUNT]
  | .CFG_PART_DEFINED => [F.CFG_PART_DEFINED_MASK]
  | .CFG_DEV_DIGEST => [F.CFG_DEV_DIGEST_DIGEST]
  | .CFG_STAGED_DIGEST => [F.CFG_STAGED_DIGEST_DIGEST]
  | .CFG_PART_DIGEST => [F.CFG_PART_DIGEST_DIGEST]
  | .GLB_ID => [F.GLB_ID_VENDOR, F.GLB_ID_DEVICE, F.GLB_ID_STEPPING, F.GLB_ID_GRADE, F.GLB_ID_CHIP]
  | .GLB_SERIAL => [F.GLB_SERIAL_SERIAL]
  | .GLB_FW_VERSION => [F.GLB_FW_VERSION_VERSION]
  | .GLB_FW_DIGEST => [F.GLB_FW_DIGEST_DIGEST]
  | .GLB_STATUS => [F.GLB_STATUS_MP_READY, F.GLB_STATUS_RECOVERY, F.GLB_STATUS_SAFE, F.GLB_STATUS_STANDBY]
  | .GLB_SCRATCH => [F.GLB_SCRATCH_VALUE]
  | .MGT_HP_STAT => [F.MGT_HP_STAT_LINK_UP, F.MGT_HP_STAT_WIDTH, F.MGT_HP_STAT_SPEED, F.MGT_HP_STAT_RSP_LOST]
  | .MGT_FWD_CFG => [F.MGT_FWD_CFG_TMO]
  | .MGT_FWD_STAT => [F.MGT_FWD_STAT_OUTSTANDING, F.MGT_FWD_STAT_LATE]
  | .MGT_BOARD => [F.MGT_BOARD_COORD, F.MGT_BOARD_VALID]
  | .MGT_SQ_BASE => [F.MGT_SQ_BASE_ADDR]
  | .MGT_SQ_CFG => [F.MGT_SQ_CFG_LOG2]
  | .MGT_SQ_TAIL => [F.MGT_SQ_TAIL_TAIL]
  | .MGT_SQ_HEAD => [F.MGT_SQ_HEAD_HEAD]
  | .MGT_CQ_BASE => [F.MGT_CQ_BASE_ADDR]
  | .MGT_CQ_CFG => [F.MGT_CQ_CFG_LOG2]
  | .MGT_CQ_HEAD => [F.MGT_CQ_HEAD_HEAD]
  | .MGT_CQ_TAIL => [F.MGT_CQ_TAIL_TAIL]
  | .MGT_QP_CTRL => [F.MGT_QP_CTRL_EN, F.MGT_QP_CTRL_VECTOR, F.MGT_QP_CTRL_IRQ_EN]
  | .MGT_QP_STAT => [F.MGT_QP_STAT_STOPPED, F.MGT_QP_STAT_TAKEN]
  | .SEC_POLICY => [F.SEC_POLICY_HOST_OPEN, F.SEC_POLICY_EP_AUTH_DEFAULT]
  | .SEC_FUSE => [F.SEC_FUSE_JTAG_LOCK, F.SEC_FUSE_IDENT_VALID, F.SEC_FUSE_OPKEY0_FUSED, F.SEC_FUSE_OPKEY0_REVOKED, F.SEC_FUSE_FW_KEY_VALID]
  | .SEC_DEBUG => [F.SEC_DEBUG_JTAG_USED]
  | .SEC_SESSIONS => [F.SEC_SESSIONS_OPEN]
  | .SEC_OPKEY => [F.SEC_OPKEY_STATE]
  | .SEC_OPKEY_DIG => [F.SEC_OPKEY_DIG_DIGEST]
  | .SEC_PART_STAT => [F.SEC_PART_STAT_STATE, F.SEC_PART_STAT_ZEROISING, F.SEC_PART_STAT_DEBUG, F.SEC_PART_STAT_OPERATOR_ACCESS, F.SEC_PART_STAT_EP_AUTH, F.SEC_PART_STAT_SESSIONS]
  | .SEC_PART_RM => [F.SEC_PART_RM_DEADLINE, F.SEC_PART_RM_ABORTED, F.SEC_PART_RM_MG_DISCARDED]
  | .SEC_PART_DROP => [F.SEC_PART_DROP_DROP_TX, F.SEC_PART_DROP_DROP_RX]
  | .SEC_LKEY => [F.SEC_LKEY_TX_EPOCH, F.SEC_LKEY_TX_VALID, F.SEC_LKEY_REKEY_PENDING, F.SEC_LKEY_RX_STATE, F.SEC_LKEY_GEN]
  | .SEC_PVIOL => [F.SEC_PVIOL_COUNT]
  | .FC_CTRL => [F.FC_CTRL_IRQ_EN]
  | .FC_ERR => [F.FC_ERR_ERR_MIN, F.FC_ERR_HOLD, F.FC_ERR_PULSE, F.FC_ERR_ASSERTED, F.FC_ERR_PULSING]
  | .FC_SAFE => [F.FC_SAFE_SAFE, F.FC_SAFE_CAUSE, F.FC_SAFE_EXIT_REFUSED, F.FC_SAFE_EXIT]
  | .FC_INJ => [F.FC_INJ_CHECKER, F.FC_INJ_MODE, F.FC_INJ_INSTANCE, F.FC_INJ_GO, F.FC_INJ_ARMED, F.FC_INJ_INJ_IGNORED]
  | .FC_STAT => [F.FC_STAT_STATUS]
  | .FC_SEV => [F.FC_SEV_SEV]
  | .FC_EVQ_STAT => [F.FC_EVQ_STAT_FILL, F.FC_EVQ_STAT_NEXT_SEQ]
  | .FC_EVQ_LOST => [F.FC_EVQ_LOST_LOST]
  | .FC_QECC => [F.FC_QECC_EVQ_CORR, F.FC_QECC_MG_CORR, F.FC_QECC_EVQ_UE, F.FC_QECC_MG_UE]
  | .FC_SRC_CNT => [F.FC_SRC_CNT_COUNT]
  | .FC_SRC_FIRST => [F.FC_SRC_FIRST_TICK]
  | .FC_SRC_INST => [F.FC_SRC_INST_FIRST, F.FC_SRC_INST_LAST]
  | .TEL_SNAP_STAT => [F.TEL_SNAP_STAT_STATE, F.TEL_SNAP_STAT_SLICES, F.TEL_SNAP_STAT_SAMPLES, F.TEL_SNAP_STAT_LENGTH, F.TEL_SNAP_STAT_COUNT]
  | .TEL_SNAP_TICK => [F.TEL_SNAP_TICK_TICK]
  | .PWR_STATUS => [F.PWR_STATUS_SEQ, F.PWR_STATUS_FAIL_RAIL, F.PWR_STATUS_FAIL_KIND, F.PWR_STATUS_ERR_DRIVE]
  | .PWR_RST_CAUSE => [F.PWR_RST_CAUSE_VIN, F.PWR_RST_CAUSE_BROWNOUT, F.PWR_RST_CAUSE_POWER_CYCLE, F.PWR_RST_CAUSE_RAIL_CLEAR, F.PWR_RST_CAUSE_THERM_SHUTDOWN, F.PWR_RST_CAUSE_WARM, F.PWR_RST_CAUSE_WARM_SMBUS, F.PWR_RST_CAUSE_MP, F.PWR_RST_CAUSE_WDT, F.PWR_RST_CAUSE_SLICE, F.PWR_RST_CAUSE_BROWNOUTS]
  | .PWR_RST_CMD => [F.PWR_RST_CMD_WARM, F.PWR_RST_CMD_MP, F.PWR_RST_CMD_KEY, F.PWR_RST_CMD_SLICE]
  | .PWR_STANDBY => [F.PWR_STANDBY_REQ, F.PWR_STANDBY_EXIT, F.PWR_STANDBY_ACTIVE, F.PWR_STANDBY_REFUSED]
  | .PWR_CAP_CFG => [F.PWR_CAP_CFG_LIMIT, F.PWR_CAP_CFG_HYST]
  | .PWR_CAP_STAT => [F.PWR_CAP_STAT_ACTIVE, F.PWR_CAP_STAT_FLOOR, F.PWR_CAP_STAT_FAST_TRIP, F.PWR_CAP_STAT_STEPS]
  | .PWR_VIN => [F.PWR_VIN_VOLT, F.PWR_VIN_CURR, F.PWR_VIN_POWER]
  | .PWR_WDT => [F.PWR_WDT_TMO, F.PWR_WDT_KICK, F.PWR_WDT_EN]
  | .PWR_THERM => [F.PWR_THERM_THROTTLE, F.PWR_THERM_TRIP]
  | .PWR_COMMIT => [F.PWR_COMMIT_GO]
  | .PWR_SLICE_REQ => [F.PWR_SLICE_REQ_PLVL, F.PWR_SLICE_REQ_SLEEP]
  | .PWR_SLICE_AT => [F.PWR_SLICE_AT_AT]
  | .PWR_SLICE_STAT => [F.PWR_SLICE_STAT_STATE, F.PWR_SLICE_STAT_PLVL, F.PWR_SLICE_STAT_CAP_PLVL, F.PWR_SLICE_STAT_LATE, F.PWR_SLICE_STAT_RSN, F.PWR_SLICE_STAT_THERM_PLVL, F.PWR_SLICE_STAT_REFUSALS, F.PWR_SLICE_STAT_CHANGES]
  | .PWR_SLICE_TEMP => [F.PWR_SLICE_TEMP_TEMP, F.PWR_SLICE_TEMP_MAX]
  | .PWR_RAIL_STAT => [F.PWR_RAIL_STAT_STATE, F.PWR_RAIL_STAT_LOWPWR, F.PWR_RAIL_STAT_FAIL_WINDOW, F.PWR_RAIL_STAT_FAIL_CURRENT, F.PWR_RAIL_STAT_MV, F.PWR_RAIL_STAT_CURR, F.PWR_RAIL_STAT_TRIPS]
  | .GLB_BOOT_STAT => [F.GLB_BOOT_STAT_SLOT, F.GLB_BOOT_STAT_TRIAL, F.GLB_BOOT_STAT_CONFIRMED, F.GLB_BOOT_STAT_EXPIRED, F.GLB_BOOT_STAT_FELL_BACK, F.GLB_BOOT_STAT_INSTALLED, F.GLB_BOOT_STAT_STAGE_REJECTED, F.GLB_BOOT_STAT_SETTINGS_RESET, F.GLB_BOOT_STAT_FAILS, F.GLB_BOOT_STAT_RECOVERY_CAUSE, F.GLB_BOOT_STAT_MIN_SVN, F.GLB_BOOT_STAT_RUN_SVN]
  | .GLB_BOOT_CTRL => [F.GLB_BOOT_CTRL_HEALTH_CONFIRM]
  | .GLB_BOOT_TIMER => [F.GLB_BOOT_TIMER_LEFT]
  | .GLB_FW_SLOT => [F.GLB_FW_SLOT_STATE, F.GLB_FW_SLOT_SVN]
  | .GLB_FW_SLOT_VER => [F.GLB_FW_SLOT_VER_VERSION]
  | .GLB_FW_STAGE => [F.GLB_FW_STAGE_STATE, F.GLB_FW_STAGE_BLOCKS]
  | .GLB_FW_STAGE_VER => [F.GLB_FW_STAGE_VER_VERSION]
  | .GLB_FW_RELAY => [F.GLB_FW_RELAY_STATE, F.GLB_FW_RELAY_TRIES, F.GLB_FW_RELAY_LAST_STATUS]

/-- All registers. -/
def allRegs0 : List RegName :=
  [.GLB_REPLAY_CLASS, .GLB_DISABLED_SLICE, .GLB_DISABLED_PORT, .GLB_DISABLED_CORE, .GLB_FMASK_SLICE, .GLB_FMASK_PORT, .GLB_FMASK_CORE, .GLB_MG_MODE, .GLB_MG_SEQ, .GLB_MG_LOST, .GLB_MG_FILL, .GLB_MG_DRAIN_DEST, .GLB_MG_DRAIN_TMO, .GLB_MG_HEAD_CHAIN, .GLB_MG_TAIL_CHAIN, .GLB_MG_CONTRACT, .SCH_CTX_CFG, .SCH_CTX_GROUP, .SCH_CTX_PRESENT0, .SCH_CTX_PRESENT1, .SCH_CTX_START, .SCH_CTX_CMD, .SCH_CTX_COMMIT, .SCH_CTX_STATUS, .SCH_CTX_LAUNCH, .SCH_CTX_CLAMP, .SCH_CTX_STALE, .SCH_CTX_REJECT, .SCH_CTX_TMO, .SCH_COUNT, .SCH_SYNC_CFG, .SCH_SYNC_STATUS, .SCH_LOAD, .SCH_LOAD_CMD, .SCH_OFFSET, .SCH_PATH_DELAY, .SCH_PULSE_OFS, .SCH_CORR, .SCH_ASYM, .SCH_ROUND_CFG]
def allRegs1 : List RegName :=
  [.SCH_LAG, .SCH_SLIP, .SCH_PAUSE, .SCH_SLOT, .SCH_CTX_PERIOD, .RC_ID, .RC_CTRL, .RC_STATUS, .RC_PC, .RC_HALT, .RC_CYCLE, .RC_BREAK, .RC_ECC, .RC_PEND, .RC_BIND, .RC_SE_STAT, .RC_SE_COUNT, .RC_S, .RC_A, .RC_P, .RC_V, .SLC_BUF_CTRL, .SLC_DRAIN, .SLC_DROP, .SLC_POOL_CFG, .SLC_POOL_STAT, .SLC_POOL_ERR, .SLC_POOL_AUDIT, .SLC_POOL_CMD, .SLC_STAGE, .SLC_QTHR, .SLC_RT_CFG, .SLC_RT_FLOW, .SLC_RT_CMD, .SLC_RT_STATUS, .SLC_RT_ORD, .SLC_RT_HIT, .SLC_RT_MISS, .SLC_RT_COLLIDE, .SLC_RT_EXPIRE]
def allRegs2 : List RegName :=
  [.SLC_RT_ECHO_RX, .SLC_RT_ECHO_TX, .SLC_EDGE, .SLC_NBR, .SLC_NBRM, .SLC_C7RT, .SCH_CTX_RATE, .SCH_CTX_RLIM, .SLC_SCHED_CFG, .SLC_SHP_COMMIT, .SLC_QSAMP_CMD, .SLC_PWGT, .SLC_CWGT, .SLC_PSHP, .SLC_TSHP, .SLC_POLMAP, .SLC_QSHP, .SLC_POL_CFG, .SLC_POL_SIZE, .SLC_POL_TOK, .SLC_POL_GREEN, .SLC_POL_YELLOW, .SLC_POL_RED, .SLC_QCOL, .SLC_QSAMP, .SLC_QMAX, .SLC_TXF, .SLC_TXB, .SLC_RXF, .SLC_RXB, .SLC_MARK, .SLC_RXD, .SLC_TXD, .SLC_STALL, .SLC_PORT_CFG, .SLC_PORT_EPID, .SLC_PORT_CTRL, .SLC_PORT_TMR, .SLC_PORT_STAT, .SLC_PORT_PEER0]
def allRegs3 : List RegName :=
  [.SLC_PORT_PEER1, .SLC_PORT_PEER2, .SLC_PORT_PEER3, .SLC_PORT_PDIG, .SLC_PORT_RTT, .SLC_PORT_FREQ, .SLC_PORT_CORR, .SLC_PORT_UNCORR, .SLC_PORT_CW, .SLC_PORT_TEST, .SLC_LANE_STAT, .SLC_LSR_CTRL, .SLC_LSR_STAT, .SLC_LNK_CFG, .SLC_WLK_CFG, .SLC_WLK_STAT, .SLC_WLK_EPIS, .SLC_WLK_RETX, .SLC_WLK_DISC, .SLC_WLK_NACK, .SLC_WLK_MAXEP, .SLC_WLK_TAG, .SLC_WLK_TAGREJ, .SLC_WLK_TAGSTRAY, .SLC_CRD, .CFG_STAGE_STAT, .CFG_STAGE_CTRL, .CFG_ERR_LOC, .CFG_COMMIT_AT, .CFG_COMMIT_CTRL, .CFG_COMMIT_STAT, .CFG_COMMIT_TICK, .CFG_COMMITS, .CFG_PART_DEFINED, .CFG_DEV_DIGEST, .CFG_STAGED_DIGEST, .CFG_PART_DIGEST, .GLB_ID, .GLB_SERIAL, .GLB_FW_VERSION]
def allRegs4 : List RegName :=
  [.GLB_FW_DIGEST, .GLB_STATUS, .GLB_SCRATCH, .MGT_HP_STAT, .MGT_FWD_CFG, .MGT_FWD_STAT, .MGT_BOARD, .MGT_SQ_BASE, .MGT_SQ_CFG, .MGT_SQ_TAIL, .MGT_SQ_HEAD, .MGT_CQ_BASE, .MGT_CQ_CFG, .MGT_CQ_HEAD, .MGT_CQ_TAIL, .MGT_QP_CTRL, .MGT_QP_STAT, .SEC_POLICY, .SEC_FUSE, .SEC_DEBUG, .SEC_SESSIONS, .SEC_OPKEY, .SEC_OPKEY_DIG, .SEC_PART_STAT, .SEC_PART_RM, .SEC_PART_DROP, .SEC_LKEY, .SEC_PVIOL, .FC_CTRL, .FC_ERR, .FC_SAFE, .FC_INJ, .FC_STAT, .FC_SEV, .FC_EVQ_STAT, .FC_EVQ_LOST, .FC_QECC, .FC_SRC_CNT, .FC_SRC_FIRST, .FC_SRC_INST]
def allRegs5 : List RegName :=
  [.TEL_SNAP_STAT, .TEL_SNAP_TICK, .PWR_STATUS, .PWR_RST_CAUSE, .PWR_RST_CMD, .PWR_STANDBY, .PWR_CAP_CFG, .PWR_CAP_STAT, .PWR_VIN, .PWR_WDT, .PWR_THERM, .PWR_COMMIT, .PWR_SLICE_REQ, .PWR_SLICE_AT, .PWR_SLICE_STAT, .PWR_SLICE_TEMP, .PWR_RAIL_STAT, .GLB_BOOT_STAT, .GLB_BOOT_CTRL, .GLB_BOOT_TIMER, .GLB_FW_SLOT, .GLB_FW_SLOT_VER, .GLB_FW_STAGE, .GLB_FW_STAGE_VER, .GLB_FW_RELAY]
def allRegs : List RegName :=
  allRegs0 ++ allRegs1 ++ allRegs2 ++ allRegs3 ++ allRegs4 ++ allRegs5

/-- The value a register holds at reset: the map's hex values; the stated default of an Img field other than GLB_MG_MODE
(log entry 3); fuse and strap values of log entry 4; severities of R409 and R443; 0 elsewhere. -/
def RegName.resetAt (r : RegName) (i : Nat) : Word :=
  match r with
  | .GLB_REPLAY_CLASS => 0x01A10202010000A1#64
  | .SCH_SYNC_CFG => 0x100000#64
  | .SCH_ROUND_CFG => 0x4000800c#64
  | .SLC_RT_CFG => 0x3cf04000000#64
  | .SLC_PWGT => 0x1010101010101010#64
  | .SLC_CWGT => 0x10101010101010#64
  | .SLC_QTHR => 0x300004000100#64
  | .SLC_QCOL => 0x30003000#64
  | .SCH_CTX_RLIM => 0x401900#64
  | .SEC_POLICY => 0x3#64
  | .SEC_FUSE => 0x13#64
  | .GLB_ID => 0xa100000000#64
  | .RC_ID => BitVec.ofNat 64 (i % 32 + i / 32 * 256)
  | .FC_SEV => if i = 0 then 0x35550007#64 else if i = 1 then 0x50015#64 else if i = 2 then 0x55140055#64 else 0x1F520501#64
  | .GLB_MG_DRAIN_TMO => 0x32#64
  | .SCH_CTX_TMO => 0x2710#64
  | .SLC_BUF_CTRL => 0x6434#64
  | .SLC_RT_FLOW => 0x10007D0#64
  | .SLC_PORT_CTRL => 0x1#64
  | .SLC_PORT_CFG => 0x20000#64
  | .SLC_PORT_TMR => 0x400A0A0A#64
  | .SLC_LSR_CTRL => 0xFF00#64
  | .SLC_WLK_CFG => 0x80#64
  | .SLC_WLK_STAT => 0x101#64
  | .MGT_FWD_CFG => 0x64#64
  | .MGT_SQ_CFG => 0x6#64
  | .MGT_CQ_CFG => 0x8#64
  | .FC_ERR => 0x102#64
  | .PWR_RST_CAUSE => 0x1#64
  | .PWR_CAP_CFG => 0x52BC#64
  | .PWR_WDT => 0x207D0#64
  | .PWR_THERM => 0x6964#64
  | .PWR_SLICE_REQ => 0xD#64
  | .PWR_SLICE_STAT => 0xC#64
  | _ => 0#64

/-- The chip-window offset of a register (R378). -/
def RegName.addr (r : RegName) (i : Nat := 0) (j : Nat := 0) (k : Nat := 0) : Nat :=
  r.row.base + i * r.row.s1 + j * r.row.s2 + k * r.row.s3

/-- The index of a row that gives an offset, when the offset is one of its places. -/
def RegRow.placeOf (row : RegRow) (off : Nat) : Option (Nat × Nat × Nat) :=
  if off < row.base then none
  else
    let d := off - row.base
    let i := if row.s1 = 0 then 0 else min (d / row.s1) (row.c1 - 1)
    let d1 := d - i * row.s1
    let j := if row.s2 = 0 then 0 else min (d1 / row.s2) (row.c2 - 1)
    let d2 := d1 - j * row.s2
    let k := if row.s3 = 0 then 0 else min (d2 / row.s3) (row.c3 - 1)
    if d2 - k * row.s3 = 0 then some (i, j, k) else none

/-- The register at an offset of the chip window, if the offset is the first byte of one. -/
def regAt (off : Nat) : Option (RegName × Nat × Nat × Nat) :=
  allRegs.findSome? fun r => (r.row.placeOf off).map fun p => (r, p)

/-- The mask of the fields of a register with an access code. -/
def RegName.mask (r : RegName) (a : Access) : Nat :=
  (r.fields.filter fun f => f.acc == a).foldl (fun m f => m + (2 ^ f.w - 1) * 2 ^ f.lo) 0

end Sys2Proof.Machine
end

