-- ==== Sys2Proof/Machine/State.lean ====
section
/-! DEFINITION. The state of one Y5. -/

namespace Sys2Proof.Machine

/-- Reasons the machine stops. -/
inductive Fault where
  /-- An access to a core, slice or port number the Y5 does not have: no command of the manual names one. Raised by no
  meaning as long as commands are well formed. Safe. -/
  | noSuchUnit
  deriving DecidableEq, Repr

/-- Reasons a command has no meaning. -/
inductive Refusal where
  /-- The command's meaning is not written; raised by its arm of `exec`. Safe. -/
  | notModelled (mnemonic : String)
  deriving DecidableEq, Repr

/-- The machine. -/
structure State where
  regs : List (Nat × BitVec 64) := []
  shadow : List (Nat × BitVec 64) := []
  mem : List Host.Cell := []
  /-- words of core SRAM that hold a bit error (R167), by core × 0x1_0000 + word -/
  upsets : List (Nat × SramUpset) := []
  cores : List (Nat × CoreX) := []
  fc : FaultX := {}
  image : Image := {}
  stage : StageX := {}
  copies : List Copy := []
  arrivals : List Arrival := []
  pools : List (Nat × PoolX) := []
  slices : List (Nat × SliceX) := []
  ports : List (Nat × PortX) := []
  /-- shaper token counts in 1/16 byte, by register offset (R281) -/
  tokens : List (Nat × Int) := []
  /-- context limiter token counts in 1/16 byte (R270), contexts whose limiter took an echo since the last raise -/
  limiter : List (Nat × Nat) := []
  echoed : List Nat := []
  /-- echoes that take effect in the next tick (R270), as (context, epoch, MARK) -/
  cuts : List (Nat × Nat × Nat) := []
  echoes : List EchoX := []
  /-- copies that hold FLUSH_BUSY (R273) -/
  flushing : List Nat := []
  /-- local tick of the last FLUSH that acted (R273) -/
  flushedAt : Option Nat := none
  serial : Nat := 0
  ctxs : List (Nat × CtxRun) := []
  /-- aborts of the tick not yet decided (R119) -/
  aborts : List AbortX := []
  /-- the commands given to each context in the tick, and what they can change as it stood before and after them (R118) -/
  ctxWrites : List (Nat × CtxBits × CtxView × CtxView) := []
  /-- contexts unbound in the tick, whose buffers and core state are freed at its end (R116, R118) -/
  unbound : List Nat := []
  groups : List Nat := []
  resetEnd : Nat := 0
  mg : List (Nat × MgX) := []
  sync : SyncX := {}
  lanes : List (Nat × LaneX) := []
  pcs : List (Nat × PcsLane) := []
  /-- failed transactions in a row with each laser module (R292) -/
  i2cFails : List (Nat × Nat) := []
  svc : SvcX := {}
  cmd : CmdX := {}
  sec : SecX := {}
  tel : TelX := {}
  pwr : PwrX := {}
  nv : NvX := {}
  boot : BootX := {}
  outbox : List Output := []
  free : Nat := 0
  pending : List Instr := []
  deriving DecidableEq, Repr

/-- CFG_DEV_DIGEST and CFG_PART_DIGESTp of the empty image, in two lists: H(0x20) and H(0x21 ‖ p ‖ D) (R346, R360). -/
def emptyDigests0 : List (Nat × BitVec 64) :=
  [(0x400040, 0x26854DD5E693E860#64), (0x400048, 0xDAC5FA8BF9815AE5#64), (0x400050, 0x96D54EE803B26B23#64), (0x400058, 0xA4D4F35B7D528F7A#64),
   (0x400100, 0xC4A5BB8EC71E0482#64), (0x400108, 0x6D8721F534D9758D#64), (0x400110, 0x7F276045FEF6647E#64), (0x400118, 0x9EC309F77A2EB0FA#64),
   (0x400120, 0x254D670C5D251E57#64), (0x400128, 0x9ECCA804ECE941F0#64), (0x400130, 0x8F9CF504D88B59E1#64), (0x400138, 0x562D2A48AA09ED46#64),
   (0x400140, 0x4F528B3E34B0FC7F#64), (0x400148, 0xB1162AB94E3ECB10#64), (0x400150, 0x03A8BA323BF4D2C9#64), (0x400158, 0x7C3C40C1602A1EEF#64),
   (0x400160, 0xAEB3186A480E42C1#64), (0x400168, 0x8AA0036880AA0E40#64), (0x400170, 0x9F06157C66392940#64), (0x400178, 0xDD167D60BFC1656A#64),
   (0x400180, 0x3400BF630E11A9F2#64), (0x400188, 0x244EA9699F20AD54#64), (0x400190, 0xF63E1B5FDC0F1DD3#64), (0x400198, 0xB98D6A75C8850BBB#64),
   (0x4001A0, 0xF234C4A81AD00642#64), (0x4001A8, 0xC29A059D92583B39#64), (0x4001B0, 0x2787A6E72AC9053D#64), (0x4001B8, 0x89EFE56D6D6E1048#64),
   (0x4001C0, 0x7E6F9D802FDD2CD8#64), (0x4001C8, 0xF61A8AF50EC7BF45#64), (0x4001D0, 0x387FECE2E2A302B0#64), (0x4001D8, 0x08245F52DB258C94#64),
   (0x4001E0, 0xA9471AD2BEA1EBDF#64), (0x4001E8, 0x20F81269D0B90904#64), (0x4001F0, 0xE071C8EBA5708523#64), (0x4001F8, 0xC48420AA396FF5B7#64)]
def emptyDigests1 : List (Nat × BitVec 64) :=
  [(0x400200, 0xE1BEDD1D0BECC4D9#64), (0x400208, 0x430FD387150EC7C8#64), (0x400210, 0x5BF0F6E959509BE5#64), (0x400218, 0x1B6EAFB200E828C0#64),
   (0x400220, 0x6BA409B16BE87356#64), (0x400228, 0x7570FA9E2925C03E#64), (0x400230, 0x99657DD46334D1E8#64), (0x400238, 0xDD6D6163BEA12BA8#64),
   (0x400240, 0xE05A6060D6CA70A2#64), (0x400248, 0xC9921010D23C16CE#64), (0x400250, 0xF6E2B329F8B8F351#64), (0x400258, 0x1C6AC206D08696BB#64),
   (0x400260, 0x38F745202A8B71EC#64), (0x400268, 0x28771D1176DFDAD8#64), (0x400270, 0x10E9F7BBA2769088#64), (0x400278, 0x479DAF0A06A1EA38#64),
   (0x400280, 0x008D13E1B857CB98#64), (0x400288, 0x81D1A588EA0D29FB#64), (0x400290, 0xF0C097A7AAEF7789#64), (0x400298, 0xD0BF8E997213A594#64),
   (0x4002A0, 0x21804FB81E71CA15#64), (0x4002A8, 0x43172460B4A3EEE7#64), (0x4002B0, 0xD7A993BF8DE0047C#64), (0x4002B8, 0x45837E494E3041FD#64),
   (0x4002C0, 0x47C0F86BE69169BA#64), (0x4002C8, 0x4C352804E5769DCF#64), (0x4002D0, 0x19439A290E2571B2#64), (0x4002D8, 0xC43B0F3076A52C64#64),
   (0x4002E0, 0xA31E500A9A089836#64), (0x4002E8, 0xBD1B5E2510C598C4#64), (0x4002F0, 0xCA6B8044D86EE7A1#64), (0x4002F8, 0x77B23CBC8FFC84BB#64)]

/-- The machine right after reset: every register at its reset value, the digests of the empty image, nothing else
(R11, R360). -/
def State.reset : State := { regs := emptyDigests0 ++ emptyDigests1 }

end Sys2Proof.Machine
end

