-- ==== Sys2Proof/Machine/Ops.lean ====
section
/-! DEFINITION. Named operations over registers, core SRAM, core records and raises. -/

namespace Sys2Proof.Machine

namespace State

/-- A register's value (R378): its reset value with the bits that differ from it applied. -/
def rd (s : State) (r : RegName) (i : Nat := 0) (j : Nat := 0) (k : Nat := 0) : Nat :=
  (readKey 0#64 s.regs (r.addr i j k) ^^^ r.resetAt i).toNat

/-- A register written whole. -/
def wr (s : State) (r : RegName) (v : Nat) (i : Nat := 0) (j : Nat := 0) (k : Nat := 0) : State :=
  { s with regs := writeKey 0#64 s.regs (r.addr i j k) (BitVec.ofNat 64 v ^^^ r.resetAt i) }

/-- A field of a register. -/
def fld (s : State) (f : Fld) (i : Nat := 0) (j : Nat := 0) (k : Nat := 0) : Nat :=
  bitsOf (s.rd f.reg i j k) f.lo f.w

/-- A one-bit field. -/
def flag (s : State) (f : Fld) (i : Nat := 0) (j : Nat := 0) (k : Nat := 0) : Bool :=
  s.fld f i j k == 1

/-- A field written, the register's other bits kept. -/
def setFld (s : State) (f : Fld) (v : Nat) (i : Nat := 0) (j : Nat := 0) (k : Nat := 0) : State :=
  s.wr f.reg (putBits (s.rd f.reg i j k) f.lo f.w v) i j k

/-- A count that saturates at the field's width. -/
def bump (s : State) (f : Fld) (n : Nat := 1) (i : Nat := 0) (j : Nat := 0) (k : Nat := 0) : State :=
  s.setFld f (satAdd f.w (s.fld f i j k) n) i j k

/-- A count modulo the field's width. -/
def wrap (s : State) (f : Fld) (n : Nat := 1) (i : Nat := 0) (j : Nat := 0) (k : Nat := 0) : State :=
  s.setFld f (s.fld f i j k + n) i j k

/-- A shadowed (RWC) register's pending value (R8). -/
def rdShadow (s : State) (r : RegName) (i : Nat := 0) (j : Nat := 0) (k : Nat := 0) : Nat :=
  (readKey 0#64 s.shadow (r.addr i j k) ^^^ r.resetAt i).toNat

/-- The pending value written. -/
def wrShadow (s : State) (r : RegName) (v : Nat) (i : Nat := 0) (j : Nat := 0) (k : Nat := 0) : State :=
  { s with shadow := writeKey 0#64 s.shadow (r.addr i j k) (BitVec.ofNat 64 v ^^^ r.resetAt i) }

/-- The pending value takes effect. -/
def commitShadow (s : State) (r : RegName) (i : Nat := 0) (j : Nat := 0) (k : Nat := 0) : State :=
  s.wr r (s.rdShadow r i j k) i j k

/-- A register back at its reset value. -/
def resetReg (s : State) (r : RegName) (i : Nat := 0) (j : Nat := 0) (k : Nat := 0) : State :=
  { s with regs := writeKey 0#64 s.regs (r.addr i j k) 0#64,
           shadow := writeKey 0#64 s.shadow (r.addr i j k) 0#64 }

/-- The schedule count (R140). -/
def count (s : State) : Nat := s.fld F.SCH_COUNT_COUNT

/-- Whether an action defined at every count that leaves rest `r` modulo `p` falls in this tick: the tick reached such a
count, or passed one that the counter skipped; a held count brings it once (R142). -/
def falls (s : State) (p r : Nat) : Bool := decide (r ≤ s.count) && decide (s.sync.since ≤ s.count - (s.count - r) % p)

/-- Ticks of local time since power came up (R7). -/
def now (s : State) : Nat := s.pwr.now

/-- The key of a byte of core SRAM (R164). -/
def sramKey (n a : Nat) : Nat := n * 0x80000 + a

/-- One byte of core SRAM; an unlisted byte reads 0x00 (log entry 5). -/
def sram (s : State) (n a : Nat) : Byte := readKey 0#8 s.mem (sramKey n a)

/-- Bytes of core SRAM in ascending address. -/
def sramBytes (s : State) (n a : Nat) : (count : Nat) → Bytes
  | 0 => []
  | c + 1 => s.sram n a :: sramBytes s n (a + 1) c

/-- One byte of core SRAM written. -/
def setSram (s : State) (n a : Nat) (b : Byte) : State :=
  { s with mem := writeKey 0#8 s.mem (sramKey n a) b }

/-- Bytes of core SRAM set in ascending address. -/
def setSramBytes (s : State) (n a : Nat) : Bytes → State
  | [] => s
  | b :: bs => (s.setSram n a b).setSramBytes n (a + 1) bs

/-- The key of the 64-bit word that holds a byte of core SRAM (R167). -/
def wordKey (n a : Nat) : Nat := n * 0x10000 + a / 8

/-- A write of a range of core SRAM makes new check bits: errors go from the words it covers, and an error that SECDED
corrects goes from every word it touches (log entry 77). -/
def clearUpsets (s : State) (n a len : Nat) : State :=
  let lo := n * 0x80000 + a
  { s with upsets := s.upsets.filter fun u =>
      decide (lo + len ≤ u.1 * 8) || decide (u.1 * 8 + 8 ≤ lo)
        || (u.2.both && (decide (u.1 * 8 < lo) || decide (lo + len < u.1 * 8 + 8))) }

/-- Bytes of core SRAM written in ascending address, with new check bits. -/
def writeSram (s : State) (n a : Nat) (bs : Bytes) : State := (s.setSramBytes n a bs).clearUpsets n a bs.length

/-- A range of core SRAM, its last byte included, set to 0x00. -/
def zeroSram (s : State) (n lo hi : Nat) : State :=
  ({ s with mem := s.mem.filter fun c => decide (c.1 < sramKey n lo ∨ sramKey n hi < c.1) } : State).clearUpsets n lo (hi + 1 - lo)

/-- The bit errors in the words that a read of core SRAM touches, by word. -/
def upsetsIn (s : State) (n a len : Nat) : List (Nat × SramUpset) :=
  s.upsets.filter fun u => decide (wordKey n a ≤ u.1) && decide (u.1 ≤ wordKey n (a + len - 1)) && decide (0 < len)

/-- The local address of the first word of a read that holds an uncorrectable error (R228). -/
def badWord (s : State) (n a len : Nat) : Option Nat :=
  ((s.upsetsIn n a len).find? (·.2.both)).map fun u => u.1 % 0x10000 * 8

/-- The bytes a chip-window read shows: those of a word with an uncorrectable error are free values (log entry 77). -/
def sramShown (s : State) (n a len : Nat) : Bytes :=
  (List.range len).map fun i =>
    match (s.upsetsIn n (a + i) 1).find? (·.2.both) with
    | some u => BitVec.ofNat 8 ((Config.freeValue u.2.free).toNat / 256 ^ ((a + i) % 8))
    | none => s.sram n (a + i)

/-- The record of core n. -/
def core (s : State) (n : Nat) : CoreX := readKey {} s.cores n

/-- The record of core n replaced. -/
def setCore (s : State) (n : Nat) (c : CoreX) : State := { s with cores := writeKey {} s.cores n c }

/-- The next free value (log entry 1). -/
def freeNat (s : State) (w : Nat) : Nat := (Config.freeValue s.free).toNat % 2 ^ w

/-- The free-value counter moved on. -/
def useFree (s : State) : State := { s with free := s.free + 1 }

/-- A bit error arises in a word of core SRAM; a second one makes it uncorrectable (R167; log entry 77). -/
def upsetWord (s : State) (n word : Nat) (both : Bool) : State :=
  let k := n * 0x10000 + word % 0x10000
  ({ s with upsets := insertKey s.upsets k ⟨both || (lookupKey s.upsets k).isSome, s.free⟩ } : State).useFree

/-- A raise leaves its source for the collector with the tick at the source (R407). -/
def report (s : State) (src inst : Nat) (info : Bytes := List.replicate 16 0#8) (injected : Bool := false) : State :=
  { s with fc := { s.fc with wires := s.fc.wires ++ [⟨src, inst, s.count, info, injected⟩] } }

/-- Whether an injection is armed into a checker's next check of an instance (R419): its MODE, 0 for none. -/
def injected (s : State) (checker inst : Nat) : Nat :=
  match s.fc.inject with
  | some (c, i, m) => if c = checker ∧ i = inst then m else 0
  | none => 0

/-- Whether a read of data words by a core or an engine meets an uncorrectable error, real or injected (R167, R419). -/
def badRead (s : State) (n a len : Nat) : Bool := (s.badWord n a len).isSome || decide (2 ≤ s.injected 1 n)

/-- The check has happened: the injection is spent. -/
def injectSpent (s : State) (checker inst : Nat) : State :=
  if s.injected checker inst = 0 then s
  else ({ s with fc := { s.fc with inject := none } } : State).setFld F.FC_INJ_ARMED 0

/-- The ECC checks of a read of core SRAM: corrected errors counted, each uncorrectable one counted and raised (R167). -/
def noteUpsets (s : State) (n a len : Nat) : State :=
  (s.upsetsIn n a len).foldl (fun t u =>
    if u.2.both then (t.bump F.RC_ECC_UNCORR 1 n).report 0x19 n else t.bump F.RC_ECC_CORR 1 n) s

/-- The check of the data words that a core or an engine reads, with the injection into it (R167, R419). -/
def noteRead (s : State) (n a len : Nat) : State :=
  let t := s.noteUpsets n a len
  match s.injected 1 n with
  | 0 => t
  | 1 => (t.injectSpent 1 n).bump F.RC_ECC_CORR 1 n
  | _ => ((t.injectSpent 1 n).bump F.RC_ECC_UNCORR 1 n).report 0x19 n (injected := true)

end State

end Sys2Proof.Machine
end

