-- ==== Sys2Proof/Machine/Flags.lean ====
section
/-! DEFINITION. The arithmetic flags and counts of a launch (R98, R115): RES_OVF, RES_NAN and PHX_CLAMP of the running
binding's context. -/

namespace Sys2Proof.Machine

namespace State

/-- Whether a context's results are arithmetic: an arithmetic kind (R121) whose operation is not bitwise (R98). -/
def arithmetic (s : State) (c : Nat) : Bool :=
  [0, 1, 3, 7, 9].contains (s.fld F.SCH_CTX_CFG_KIND c) && decide (s.fld F.SCH_CTX_CFG_OP c < 3)

/-- Whether this Y5 is the root of a tree of the context (R86). -/
def isRoot (s : State) (c : Nat) : Bool := (s.image.treesOf c).any fun t => t.parent == 0xFF

/-- RES_OVF set for a context. -/
def noteOvf (s : State) (c : Nat) (ovf : Bool) : State :=
  if ovf && s.arithmetic c then s.setFld F.SCH_CTX_STATUS_RES_OVF 1 c else s

/-- RES_NAN set for a context. -/
def noteNan (s : State) (c : Nat) (nan : Bool) : State :=
  if nan && s.arithmetic c then s.setFld F.SCH_CTX_STATUS_RES_NAN 1 c else s

/-- Limited conversions counted for a context, saturating. -/
def noteClamp (s : State) (c : Nat) (n : Nat) : State :=
  if n = 0 then s else s.bump F.SCH_CTX_CLAMP_PHX_CLAMP n c

/-- The context of the program a core runs. -/
def runCtx (s : State) (n : Nat) : Option Nat := (s.core n).run.map (·.ctx)

/-- The flags of one operation on core n. -/
def noteOp (s : State) (n : Nat) (ovf : Bool) (clamps : Nat) : State :=
  match s.runCtx n with
  | some c => (s.noteOvf c ovf).noteClamp c clamps
  | none => s

/-- RES_NAN where the root's core converts a NaN to unscaled INT8, the result format that holds no NaN and no block scale:
the element written is the substitute 0 of R62 (R98; log entry 65). -/
def noteSubst (s : State) (n code : Nat) (nan : Bool) : State :=
  match s.runCtx n with
  | some c =>
    if code = 8 && s.isRoot c && decide (s.fld F.SCH_CTX_CFG_OUT_FMT c = 8) && !s.flag F.SCH_CTX_CFG_OUT_SCALED c then
      s.noteNan c nan
    else s
  | none => s

end State

end Sys2Proof.Machine
end

