-- ==== Sys2Proof/Machine/Tiles.lean ====
section
/-! DEFINITION. What each kind of collective sends where (R112, R121 to R126, R487): ranks, shards, tiles due, inputs. -/

namespace Sys2Proof.Machine

namespace State

/-- The Y5's own coordinates as address bits [16:5] (R15, R254). -/
def coord (s : State) : Nat := s.fld F.SLC_RT_CFG_X * 256 + s.fld F.SLC_RT_CFG_Y * 16 + s.fld F.SLC_RT_CFG_Z

/-- The Y5's own address, edge bits 0. -/
def ownAddr (s : State) : Nat := s.coord * 32

/-- Kind code of a context (R121). -/
def kind (s : State) (c : Nat) : Nat := s.fld F.SCH_CTX_CFG_KIND c
/-- Tiles per launch. -/
def tiles (s : State) (c : Nat) : Nat := s.fld F.SCH_CTX_CFG_TILES c
/-- State code of a context (R116). -/
def ctxState (s : State) (c : Nat) : Nat := s.fld F.SCH_CTX_STATUS_STATE c
/-- Epoch of a context's binding. -/
def epoch (s : State) (c : Nat) : Nat := s.fld F.SCH_CTX_GROUP_EPOCH c
/-- Owning partition of a context. -/
def ctxPart (s : State) (c : Nat) : Nat := s.fld F.SCH_CTX_CFG_PART c
/-- Launch count of the launch in progress or next. -/
def lcount (s : State) (c : Nat) : Nat := s.fld F.SCH_CTX_LAUNCH_LCOUNT c

/-- Whether input i of a context is present (R112). -/
def present (s : State) (c i : Nat) : Bool :=
  if i < 64 then bitOf (s.fld F.SCH_CTX_PRESENT0_INPUT c) i else bitOf (s.fld F.SCH_CTX_PRESENT1_INPUT c) (i - 64)

/-- Member-table size M. -/
def ranks (s : State) (c : Nat) : Nat := (s.image.membersOf c).length

/-- The address of a rank. -/
def rankAddr (s : State) (c r : Nat) : Option Nat := (s.image.membersOf c)[r]?

/-- The rank of an address. -/
def rankOf (s : State) (c a : Nat) : Option Nat := (s.image.membersOf c).findIdx? (· == a)

/-- The rank of the local member on edge port e. -/
def localRank (s : State) (c e : Nat) : Option Nat := s.rankOf c (s.ownAddr + e)

/-- The local member ranks, by edge port. -/
def localMembers (s : State) (c : Nat) : List (Nat × Nat) :=
  (List.range 32).filterMap fun e => (s.localRank c e).map fun r => (e, r)

/-- The present local members, by edge port. -/
def presentMembers (s : State) (c : Nat) : List (Nat × Nat) := (s.localMembers c).filter fun m => s.present c m.1

/-- First tile of shard r, and the tile after its last (R123). -/
def shard (s : State) (c r : Nat) : Nat × Nat :=
  let m := max 1 (s.ranks c)
  (r * s.tiles c / m, (r + 1) * s.tiles c / m)

/-- TB of an ALLTOALL (R121). -/
def tb (s : State) (c : Nat) : Nat := s.tiles c / max 1 (s.ranks c)

/-- The tiles a member contributes in one launch, first and one past the last (R121); equal when it sends none. -/
def sends (s : State) (c r : Nat) : Nat × Nat :=
  match s.kind c with
  | 2 => s.shard c r
  | 4 => if r = (s.image.ctxX c).srcRank then (0, s.tiles c) else (0, 0)
  | 5 => (0, 1)
  | 6 => (0, s.ranks c * s.tb c)
  | _ => (0, s.tiles c)

/-- The result tiles due to a member in one launch (R121, R122). -/
def due (s : State) (c r : Nat) : Nat × Nat :=
  match s.kind c with
  | 1 => s.shard c r
  | 3 => if r = (s.image.ctxX c).dstRank then (0, s.tiles c) else (0, 0)
  | 4 => if r = (s.image.ctxX c).srcRank then (0, 0) else (0, s.tiles c)
  | 5 => (0, 1)
  | 6 => (0, s.ranks c * s.tb c)
  | 8 => (0, s.ranks c * s.tiles c)
  | _ => (0, s.tiles c)

/-- The end of the tile ranges of the trees that satisfy a condition. -/
def treesEnd (s : State) (c : Nat) (p : Tree → Bool) : Nat :=
  ((s.image.treesOf c).filter p).foldl (fun m t => max m (t.last + 1)) 0



/-- Whether a stage of a plan of the context lists input i. -/
def planHas (s : State) (c i : Nat) : Bool :=
  (s.image.treesOf c).any fun t => t.plan.any fun g => g.inputs.contains i

/-- The target codes of R177 that a context has at this Y5, for a direction (0 in, 1 out) and a plan stage; with the end
of the tiles that input or output carries in one launch (R181). -/
def targetEnd (s : State) (c dir stage t : Nat) : Option Nat :=
  if t < 32 then
    match s.localRank c t with
    | some r =>
      if dir = 0 then (if s.planHas c t then some (s.sends c r).2 else none) else some (s.due c r).2
    | none => none
  else if t < 0x4D then
    let k := t - 32
    let p : Tree → Bool := fun r => decide (k < r.children.length)
    if (s.image.treesOf c).any p then some (s.treesEnd c p) else none
  else if t = 0x4D then
    let p : Tree → Bool := fun r => r.parent != 0xFF
    if (s.image.treesOf c).any p then some (s.treesEnd c p) else none
  else if t = 0x4E then
    if dir = 1 ∧ (s.image.treesOf c) ≠ [] then some (s.treesEnd c fun _ => true) else none
  else if t = 0x4F then
    let p : Tree → Bool := fun r =>
      if dir = 0 then decide (0 < stage) && decide (stage < r.plan.length) else decide (stage + 1 < r.plan.length)
    if (s.image.treesOf c).any p then some (s.treesEnd c fun _ => true) else none
  else none

/-- Whether a partition is defined (R345). -/
def partDefined (s : State) (p : Nat) : Bool := bitOf (s.fld F.CFG_PART_DEFINED_MASK) p

/-- Bytes of one tile of the contribution (`out` false) or result (`out` true) format: R59, R66. -/
def tileBytes (s : State) (c : Nat) (out : Bool) : Nat :=
  let f := Fmt.ofCode (if out then s.fld F.SCH_CTX_CFG_OUT_FMT c else s.fld F.SCH_CTX_CFG_IN_FMT c)
  let scaled := if out then s.flag F.SCH_CTX_CFG_OUT_SCALED c else s.flag F.SCH_CTX_CFG_SCALED c
  let bl := if s.flag F.SCH_CTX_CFG_B32 c then 32 else 16
  let n := s.fld F.SCH_CTX_CFG_TILE_BLK c + 1
  n * bl * f.width / 8 + (if scaled then ceilDiv n 16 * 16 else 0)

/-- Elements of one tile. -/
def tileElems (s : State) (c : Nat) : Nat :=
  (s.fld F.SCH_CTX_CFG_TILE_BLK c + 1) * (if s.flag F.SCH_CTX_CFG_B32 c then 32 else 16)

/-- The class of a context's frames (R489). -/
def ctxClass (s : State) (c : Nat) : Nat :=
  if s.flag F.SCH_CTX_CFG_TRANSPORT c then s.fld F.SCH_CTX_CFG_ACLASS c else 7

/-- Whether a context is Scheduled. -/
def scheduled (s : State) (c : Nat) : Bool := !s.flag F.SCH_CTX_CFG_TRANSPORT c

end State

end Sys2Proof.Machine
end

