-- ==== Sys2Proof/Machine/Ports.lean ====
section
/-! DEFINITION. Logical ports, their slices, partitions and credits (R13, R256, R333 to R337). -/

namespace Sys2Proof.Machine

/-- A count in a keyed list raised. -/
def addKey (m : List (Nat × Nat)) (k n : Nat) : List (Nat × Nat) := writeKey 0 m k (readKey 0 m k + n)

namespace State

/-- The record of a port, slice, pool, context, Marigold record. -/
def port (s : State) (p : Nat) : PortX := readKey {} s.ports p
def setPort (s : State) (p : Nat) (x : PortX) : State := { s with ports := writeKey {} s.ports p x }
def slice (s : State) (n : Nat) : SliceX := readKey {} s.slices n
def setSlice (s : State) (n : Nat) (x : SliceX) : State := { s with slices := writeKey {} s.slices n x }
def pool (s : State) (n i : Nat) : PoolX := readKey {} s.pools (n * 32 + i)
def setPool (s : State) (n i : Nat) (x : PoolX) : State := { s with pools := writeKey {} s.pools (n * 32 + i) x }
def ctx (s : State) (c : Nat) : CtxRun := readKey {} s.ctxs c
def setCtx (s : State) (c : Nat) (x : CtxRun) : State := { s with ctxs := writeKey {} s.ctxs c x }
def mgOf (s : State) (p : Nat) : MgX := readKey {} s.mg p
def setMg (s : State) (p : Nat) (x : MgX) : State := { s with mg := writeKey {} s.mg p x }

def rxLane (s : State) (l : Nat) : LaneX := readKey {} s.lanes l
def setRxLane (s : State) (l : Nat) (x : LaneX) : State := { s with lanes := writeKey {} s.lanes l x }

/-- Something leaves the Y5. -/
def emit (s : State) (o : Output) : State := { s with outbox := s.outbox ++ [o] }

/-- The slice and local index of a logical port of the image. -/
def portAt (s : State) (p : Nat) : Option (Nat × Nat) :=
  (List.range 256).findSome? fun i =>
    if s.flag F.SLC_PORT_CFG_VALID (i / 16) (i % 16) && s.fld F.SLC_PORT_CFG_LPORT (i / 16) (i % 16) == p then
      some (i / 16, i % 16)
    else none

/-- The slice of a logical port. -/
def sliceOf (s : State) (p : Nat) : Nat := ((s.portAt p).map (·.1)).getD (p / 8 % 16)

/-- The local ports of a slice, as (logical port, local index), in ascending logical port number (R243). -/
def slicePorts (s : State) (n : Nat) : List (Nat × Nat) :=
  ((List.range 16).filterMap fun j =>
    if s.flag F.SLC_PORT_CFG_VALID n j then some (s.fld F.SLC_PORT_CFG_LPORT n j, j) else none).foldl
      (fun m e => insertKey m e.1 e.2) []

/-- Every logical port of the image. -/
def allPorts (s : State) : List Nat := (List.range 16).flatMap fun n => (s.slicePorts n).map (·.1)

/-- State code of a port (R305); 0 when the image has none. -/
def portState (s : State) (p : Nat) : Nat :=
  match s.portAt p with
  | some (n, j) => s.fld F.SLC_PORT_STAT_STATE n j
  | none => 0

/-- A port that is up (R305). -/
def portUp (s : State) (p : Nat) : Bool := s.portState p == 4 || s.portState p == 5

/-- Whether a port is a fabric port. -/
def fabric (s : State) (p : Nat) : Bool :=
  match s.portAt p with
  | some (n, j) => s.fld F.SLC_PORT_CFG_ROLE n j == 0
  | none => false

/-- Whether a slice is ACTIVE (R248). -/
def sliceActive (s : State) (n : Nat) : Bool := s.fld F.SLC_DRAIN_STATE n == 0

/-- INFO of a LINK source: SLCn_PORTj_STAT [31:0] and SLCn_PORTj_PEER0 (R416). -/
def linkInfo (s : State) (x : Nat) : Bytes :=
  match s.portAt x with
  | some (n, j) => leBytes 4 (s.rd .SLC_PORT_STAT n j) ++ leBytes 8 (s.rd .SLC_PORT_PEER0 n j) ++ leBytes 4 0
  | none => leBytes 16 0

/-- A LINK source raised for a port. -/
def raiseLink (s : State) (src x : Nat) : State := s.report src x (s.linkInfo x)

/-- A live link: up, not quarantined, its slice neither DRAINING nor DOWN (R256). -/
def linkLive (s : State) (p : Nat) : Bool := s.portUp p && s.sliceActive (s.sliceOf p)

/-- Whether a class of a partition is lossless (R234). -/
def lossless (s : State) (p c : Nat) : Bool := decide (6 ≤ c) || (s.image.partOf p).lossless.contains c

/-- Whether a port may carry a partition (R384): its grant, the partition defined and not retired by a removal (R403). -/
def carries (s : State) (x p : Nat) : Bool :=
  s.partDefined p && s.image.device.ports.contains (x, p) && s.fld F.SEC_PART_STAT_STATE p != 4

/-- The pool that holds a frame (R237). -/
def poolOf (f : Frame) : Nat := if Frame.command f.typ then 16 else f.part

/-- The credit pair a frame is charged on at a port: partition × 8 + class, 128 for the management grant, none for a lossy
class (R333, R336). -/
def pairOf (s : State) (x : Nat) (f : Frame) : Option Nat :=
  if Frame.command f.typ && s.fabric x then some (if s.carries x f.part then f.part * 8 + 6 else 128)
  else if s.lossless f.part f.cls then some (f.part * 8 + f.cls)
  else none

/-- KiB, buffers and credits of a frame of `n` payload bytes: 64 bytes of header and trailer included (R231). -/
def kib (n : Nat) : Nat := ceilDiv (n + 64) 1024

/-- The views of a credit pair in SLCn_CRDj_p_c. -/
def showCredit (s : State) (x pair : Nat) : State :=
  match s.portAt x with
  | some (n, j) =>
    if pair < 128 then
      let t := readKey {} (s.port x).tx pair
      let r := readKey {} (s.port x).rx pair
      (s.setFld F.SLC_CRD_TX_AVAIL (t.granted + 2 ^ 32 - t.used) n j pair).setFld F.SLC_CRD_RX_AVAIL
        (r.granted + 2 ^ 32 - r.used) n j pair
    else s
  | none => s

/-- The image's grant of a credit pair at a port in KiB (R235, R336). -/
def imageGrant (s : State) (x pair : Nat) : Nat :=
  if pair = 128 then 16
  else (((s.image.partOf (pair / 8)).credits.find? fun g => g.1 == x && g.2.1 == pair % 8).map (·.2.2)).getD 0

/-- Credits of a pair returned to the sender: own GRANTED rises (R234, R333), not past a grant that a commit lowered (R359),
and not while the slice is draining (R249). -/
def returnCredit (s : State) (x pair k : Nat) : State :=
  if s.fld F.SLC_DRAIN_STATE (s.sliceOf x) ≠ 0 then s
  else
    let q := s.port x
    let r := readKey {} q.rx pair
    let up := min k (s.imageGrant x pair - (r.granted + 2 ^ 32 - r.used) % 2 ^ 32)
    if up = 0 then s
    else
      (s.setPort x { q with rx := writeKey {} q.rx pair { r with granted := (r.granted + up) % 2 ^ 32 },
                            changed := if q.changed.contains pair then q.changed else q.changed ++ [pair] }).showCredit x pair

/-- A drop counted in SLCn_DROPc (R252). -/
def drop (s : State) (n cause : Nat) : State := s.bump F.SLC_DROP_COUNT 1 n cause

/-- The index of queue (port, partition, class) in a slice. -/
def queueIx (j p c : Nat) : Nat := j * 128 + p * 8 + c

/-- The depth of an output queue in buffers: the copies committed in it and not yet sent (R245; log
entry 36). -/
def depth (s : State) (x p c : Nat) : Nat :=
  let starting := (s.port x).wire
  (s.copies.filter fun k => (k.phase == .queued || (k.phase == .wire && starting == some (.copy k.id true)))
    && k.out == .port x && k.frame.part == p && k.frame.cls == c).foldl (fun a k => a + k.need) 0

/-- The frames of a port that hold staging (R233): those from the first frame that is still to be copied on. -/
def stagedAt (s : State) (x : Nat) : List Arrival := (s.arrivals.filter fun a => a.port == x).dropWhile fun a => !a.staged

/-- Staging in use at a port (R233). -/
def showStaging (s : State) (x : Nat) : State :=
  match s.portAt x with
  | some (n, j) => s.setFld F.SLC_STAGE_USED_KIB ((s.stagedAt x).foldl (fun a k => a + k.kib) 0) n j
  | none => s

/-- The staging that lossy frames hold at a port, in KiB (R234). -/
def lossyStaged (s : State) (x : Nat) : Nat := ((s.stagedAt x).filter (·.lossy)).foldl (fun a k => a + k.kib) 0

/-- Frames of which nothing is left go from the list, but not past an earlier frame of their port that is still to be
copied: frames of one port leave staging in the order of their arrival (R233). -/
def leaveStaging (x : Nat) : (held : Bool) → List Arrival → List Arrival
  | _, [] => []
  | held, a :: r =>
    if a.port = x ∧ a.done = true ∧ held = false then leaveStaging x held r
    else a :: leaveStaging x (held || (a.port == x && a.staged)) r

/-- A frame's staging and credits are settled after a change of its copies: staging is freed when every copy is written,
credits are returned when every copy is freed (R233, R234). -/
def settle (s : State) (g : Nat) : State :=
  match s.arrivals.find? fun a => a.group == g && !a.done with
  | none => s
  | some a =>
    let mine := s.copies.filter fun c => c.group == g
    let writing := mine.any fun c => [Phase.asking, .granted, .copying].contains c.phase
    let put (b : Arrival) : State :=
      ({ s with arrivals := leaveStaging a.port false (s.arrivals.map fun k => if k.group = g then b else k) } : State).showStaging
        a.port
    if mine.isEmpty then
      let s1 := put { a with pair := none, staged := false, done := true }
      match a.pair with
      | some q => s1.returnCredit a.port q a.kib
      | none => s1
    else if !writing && a.staged then put { a with staged := false }
    else s

/-- The frame's stamp of time (R264). -/
def lifeNow (s : State) : Nat := s.count / 1024 % 2 ^ 16

/-- Whether a frame's lifetime has expired in slice n (R264, R266). -/
def expired (s : State) (n : Nat) (f : Frame) : Bool :=
  decide (2 ≤ s.fld F.SCH_SYNC_STATUS_STATE)
    && decide (s.fld F.SLC_RT_CFG_LIFE n < (s.lifeNow + 2 ^ 16 - f.life) % 2 ^ 16)

/-- The fabric lifetime limit (R265). -/
def lifeLimit (s : State) : Nat := (s.fld F.SLC_RT_CFG_LIFE 0 + 2) * 1024

/-- Bytes a port sends per tick on its active lanes: 50 for each (R290). -/
def portRate (s : State) (x : Nat) : Nat :=
  match s.portAt x with
  | some (n, j) =>
    50 * ((List.range 8).countP fun b => bitOf (s.fld F.SLC_PORT_STAT_ACTIVE n j) b)
  | none => 0

/-- Ticks a frame of `n` payload bytes takes on a port, rounded up (R38, R158). -/
def frameTicks (s : State) (x n : Nat) : Nat := ceilDiv (n + 64) (max 1 (s.portRate x))

end State

end Sys2Proof.Machine
end

