-- ==== Sys2Proof/Machine/Pools.lean ====
section
/-! DEFINITION. Buffer pools: admission, pointers, free ring and cache, freeing (R236 to R243, R247). -/

namespace Sys2Proof.Machine

namespace State

/-- The pointer word of a buffer (R240). -/
def ptrWord (n b : Nat) : Nat := n * 2 ^ 24 + b * 2 ^ 10

/-- The first three conditions of R240. -/
def ptrOk (s : State) (n i w : Nat) : Bool :=
  w % 1024 == 0 && w / 2 ^ 28 == 0 && bitsOf w 24 4 == n
    && decide (s.fld F.SLC_POOL_CFG_BASE n i ≤ bitsOf w 10 14)
    && decide (bitsOf w 10 14 < s.fld F.SLC_POOL_CFG_BASE n i + s.fld F.SLC_POOL_CFG_SIZE n i)

/-- CACHED and FREE follow the pool's lists. -/
def showPool (s : State) (n i : Nat) : State :=
  let x := s.pool n i
  (s.setFld F.SLC_POOL_STAT_CACHED x.cache.length n i).setFld F.SLC_POOL_STAT_FREE
    (x.ring.length + x.cache.length + x.refill.length) n i

/-- INFO of a BUF raise (R416). -/
def poolInfo (s : State) (n i : Nat) : Bytes := leBytes 16 (s.rd .SLC_POOL_STAT n i)

/-- A refill starts when the cache holds 32 or fewer, none is in flight and the ring holds pointers (R242). -/
def startRefill (s : State) (n i : Nat) : State :=
  let x := s.pool n i
  if x.cache.length ≤ 32 ∧ x.refill = [] then s.setPool n i { x with ring := x.ring.drop 32, refill := x.ring.take 32 }
  else s

/-- A pointer enters the cache of 64; one that finds it full goes to the tail of the ring (R242; log entry 79). -/
def putPtr (x : PoolX) (w : Nat) : PoolX :=
  if x.cache.length < 64 then { x with cache := x.cache ++ [w] } else { x with ring := x.ring ++ [w] }

/-- One pointer read from the ring enters the cache, or is discarded under R240. `bad` says its ring word was
uncorrectable. -/
def cachePtr (s : State) (n i w : Nat) (bad injected : Bool) : State :=
  if bad || !s.ptrOk n i w then
    (s.bump F.SLC_POOL_ERR_BAD_PTR 1 n i).report 0x20 (n * 32 + i) (s.poolInfo n i) injected
  else if (s.slice n).alloc.contains (bitsOf w 10 14) then
    (s.bump F.SLC_POOL_ERR_DOUBLE_FREE 1 n i).report 0x21 (n * 32 + i) (s.poolInfo n i)
  else s.setPool n i (putPtr (s.pool n i) w)

/-- The refill in flight arrives (R242); the injection of R419 hits its first word. -/
def refillArrives (s : State) (n i : Nat) : State :=
  let x := s.pool n i
  let m := if x.refill = [] then 0 else s.injected 2 (n * 32 + i)
  let s0 := if x.refill = [] then s else s.injectSpent 2 (n * 32 + i)
  let s1 := (s0.setPool n i { x with refill := [] })
  let s2 := x.refill.zipIdx.foldl (fun a w => a.cachePtr n i w.1 (m == 2 && w.2 == 0) (m == 2 && w.2 == 0)) s1
  (s2.startRefill n i).showPool n i

/-- A pool built or rebuilt: every buffer of it free, in ascending order, and its cache empty (R247); the first refill
starts (R242). -/
def buildPool (s : State) (n i : Nat) : State :=
  let b := s.fld F.SLC_POOL_CFG_BASE n i
  let z := s.fld F.SLC_POOL_CFG_SIZE n i
  let x := s.slice n
  let s1 := (s.setSlice n { x with alloc := x.alloc.filter fun k => !(decide (b ≤ k) && decide (k < b + z)) }).setPool n i
    { ring := (List.range z).map fun k => ptrWord n (b + k), cache := [], refill := [] }
  (((((s1.setFld F.SLC_POOL_ERR_BAD_PTR 0 n i).setFld F.SLC_POOL_ERR_DOUBLE_FREE 0 n i).setFld F.SLC_POOL_STAT_LOSSY 0 n
    i).setFld F.SLC_POOL_STAT_ORIG 0 n i).startRefill n i).showPool n i

/-- Buffers held by copies of a pool that have been admitted. -/
def heldBy (s : State) (n i : Nat) : Nat :=
  (s.copies.filter fun c => c.slice == n && c.pool == i).foldl (fun a c => a + c.ptrs.length) 0

/-- FREE not yet promised to an admitted copy (R238, R243). -/
def freeLeft (s : State) (n i : Nat) : Nat :=
  s.fld F.SLC_POOL_STAT_FREE n i -
    (s.copies.filter fun c => c.slice == n && c.pool == i && c.phase == .granted).foldl
      (fun a c => a + (c.need - c.ptrs.length)) 0

/-- One freed pointer goes back to the cache, or is discarded (R240). -/
def freePtr (s : State) (n i w : Nat) : State :=
  let x := s.pool n i
  let v := s.slice n
  if !s.ptrOk n i w then (s.bump F.SLC_POOL_ERR_BAD_PTR 1 n i).report 0x20 (n * 32 + i) (s.poolInfo n i)
  else if !v.alloc.contains (bitsOf w 10 14) then
    (s.bump F.SLC_POOL_ERR_DOUBLE_FREE 1 n i).report 0x21 (n * 32 + i) (s.poolInfo n i)
  else (s.setSlice n { v with alloc := v.alloc.erase (bitsOf w 10 14) }).setPool n i (putPtr x w)

/-- 32 pointers of a cache of 56 or more go to the tail of the ring (R242). -/
def writeBack (s : State) (n i : Nat) : State :=
  let x := s.pool n i
  if 56 ≤ x.cache.length then s.setPool n i { x with ring := x.ring ++ x.cache.take 32, cache := x.cache.drop 32 } else s

/-- A copy leaves the Y5: its buffers are freed together, its counts fall, its frame is settled (R234, R241). -/
def freeCopy (s : State) (id : Nat) : State :=
  match s.copies.find? fun c => c.id == id with
  | none => s
  | some c =>
    let s1 : State := { s with copies := s.copies.filter (fun k => k.id != id), flushing := s.flushing.filter (· != id) }
    let s2 := c.ptrs.foldl (fun a w => a.freePtr c.slice c.pool w) s1
    let s3 := ((s2.writeBack c.slice c.pool).startRefill c.slice c.pool).showPool c.slice c.pool
    let s4 := if c.lossless || c.orig || c.phase == .asking then s3
      else s3.setFld F.SLC_POOL_STAT_LOSSY (s3.fld F.SLC_POOL_STAT_LOSSY c.slice c.pool - c.need) c.slice c.pool
    let s5 := if c.orig && c.phase != .asking then
        s4.setFld F.SLC_POOL_STAT_ORIG (s4.fld F.SLC_POOL_STAT_ORIG c.slice c.pool - c.need) c.slice c.pool
      else s4
    s5.settle c.group

/-- Copies that satisfy a condition are dropped. -/
def freeWhere (s : State) (p : Copy → Bool) : State :=
  ((s.copies.filter p).map (·.id)).foldl freeCopy s

/-- Whether an order of R243 comes before another. -/
def before : List Nat → List Nat → Bool
  | [], _ => true
  | _ :: _, [] => false
  | a :: as, b :: bs => if a < b then true else if b < a then false else before as bs

/-- The first of some copies in the order of R243. -/
def firstOf (l : List Copy) : Option Copy :=
  l.foldl (fun m c =>
    match m with
    | none => some c
    | some d => if before c.order d.order && c.order != d.order then some c else some d) none

/-- A copy of the list replaced. -/
def setCopy (s : State) (c : Copy) : State :=
  { s with copies := s.copies.map fun k => if k.id = c.id then c else k }

/-- Pointers a slice has handed over in this tick (R243). -/
def handedNow (s : State) (n : Nat) : Nat := if (s.slice n).handedAt = s.now then (s.slice n).handed else 0

/-- One pointer of a pool's cache handed to a copy (R241, R243). -/
def handOne (s : State) (c : Copy) : State :=
  let x := s.pool c.slice c.pool
  match x.cache with
  | [] => s
  | w :: rest =>
    let v := s.slice c.slice
    let last := c.need ≤ c.ptrs.length + 1
    let s1 := (s.setPool c.slice c.pool { x with cache := rest }).setSlice c.slice
      { v with alloc := bitsOf w 10 14 :: v.alloc, nextSeq := if last then v.nextSeq + 1 else v.nextSeq,
               handedAt := s.now, handed := s.handedNow c.slice + 1 }
    let s2 := s1.setCopy { c with ptrs := c.ptrs ++ [w], phase := if last then .copying else .granted, seq := v.nextSeq }
    (s2.startRefill c.slice c.pool).showPool c.slice c.pool

/-- At most `fuel` pointers of a slice handed over in the order of R243; a copy whose pool's cache is empty waits and keeps
its place. -/
def handOver (s : State) (n : Nat) : (fuel : Nat) → State
  | 0 => s
  | k + 1 =>
    match firstOf (s.copies.filter fun c => c.slice == n && c.phase == .granted && (s.pool n c.pool).cache != []) with
    | none => s
    | some c => (s.handOne c).handOver n k

/-- The copies of a slice that have all their pointers, in the order of the write port (R236). -/
def writing (s : State) (n : Nat) : List Copy :=
  (s.copies.filter fun c => c.slice == n && c.phase == .copying).foldl
    (fun l c => (l.takeWhile fun d => decide (d.seq < c.seq)) ++ c :: l.dropWhile fun d => decide (d.seq < c.seq)) []

/-- The place of a request under R243: tick, requesting slice, source within it, serial. -/
def orderKey (s : State) (reqSlice src serial : Nat) : List Nat :=
  let k := s.count / 2 ^ s.fld F.SCH_ROUND_CFG_LOG2_LEN
  [s.now, (reqSlice + 16 - k % 16) % 16, src, serial]

/-- The place of a port's request within its slice (R243). -/
def portPlace (s : State) (x : Nat) : Nat :=
  let n := s.sliceOf x
  let l := (s.slicePorts n).map (·.1)
  let m := max 1 l.length
  let k := s.count / 2 ^ s.fld F.SCH_ROUND_CFG_LOG2_LEN
  ((l.findIdx (· == x)) + m - k % m) % m

/-- Whether the switch core admits new copies (R412). -/
def safe (s : State) : Bool := s.flag F.FC_SAFE_SAFE

/-- Whether a partition's pools are contained, through the partition or through one of them (R410). -/
def poolContained (s : State) (i : Nat) : Bool :=
  s.fc.held.any fun h => ((h.1 == 0x11 || h.1 == 0x12) && h.2 == i)
    || (decide (0x20 ≤ h.1) && decide (h.1 ≤ 0x23) && h.2 % 32 == i)

/-- The queue limit of a lossy copy (R285). -/
def queueLimit (s : State) (n q colour : Nat) : Nat :=
  if colour = 0 then s.fld F.SLC_QTHR_QMAX n q
  else if colour = 1 then s.fld F.SLC_QCOL_YMAX n q
  else s.fld F.SLC_QCOL_RMAX n q

/-- A copy refused at admission: counted, and TXD at its port (R238, R288). -/
def refuse (s : State) (n cause : Nat) (f : Frame) (o : OutPort) : State :=
  let s1 := s.drop n cause
  match o with
  | .port x =>
    match s.portAt x with
    | some (m, j) => s1.wrap F.SLC_TXD_COUNT 1 m j f.cls
    | none => s1
  | _ => s1

/-- The slice of an output. -/
def outSlice (s : State) : OutPort → Nat
  | .port y => s.sliceOf y
  | .core k => k / 32
  | .pool n => n

/-- A request for the buffers of one copy of a frame received on port x (R238, R243, R244); `ix` is the copy's place among
those of its frame, `launch` the launch of its context it belongs to, where this Y5 consumes the frame. It is decided in the
same tick (R357; log entry 10). -/
def request (s : State) (f : Frame) (x group ix : Nat) (o : OutPort) (launch : Option Nat := none)
    (span : Option (Nat × Nat) := none) : State :=
  let c : Copy :=
    { id := s.serial, frame := f, out := o, slice := s.outSlice o, pool := poolOf f, need := kib f.len, phase := .asking,
      lossless := s.lossless f.part f.cls, orig := false, inPort := some x, group := group,
      order := s.orderKey (s.sliceOf x) (s.portPlace x) ix, launch := launch, span := span }
  { s with serial := s.serial + 1, copies := s.copies ++ [c] }

/-- A request for the buffers of a copy of a frame the Y5 originates (R238). `m` is the requesting slice and `src` the place
among its originated requests: core and engine, or 4,096 (R243). A collective frame belongs to the launch of the program
that makes it, otherwise to the launch in progress. -/
def ask (s : State) (f : Frame) (m src : Nat) (o : OutPort) (group : Nat) (engine : Option (Nat × Nat) := none)
    (launch : Option Nat := none) : State :=
  let c : Copy :=
    { id := s.serial, frame := f, out := o, slice := s.outSlice o, pool := poolOf f, need := kib f.len, phase := .asking,
      lossless := s.lossless f.part f.cls, orig := true, group := group, order := s.orderKey m (32 + src) s.serial,
      engine := engine,
      launch := if Frame.collective f.typ then launch.orElse fun _ => some (s.lcount f.ctx) else none }
  { s with serial := s.serial + 1, copies := s.copies ++ [c] }

/-- A slice's output takes new copies: its slice is ACTIVE and the device is not in the safe state (R249, R412; log
entry 38). -/
def admitsTo (s : State) (n : Nat) : Bool := s.sliceActive n && !s.safe

/-- Whether an originated request can be admitted (R238, R249, R412). -/
def origFits (s : State) (c : Copy) : Bool :=
  s.admitsTo c.slice
    && decide (s.fld F.SLC_POOL_STAT_ORIG c.slice c.pool + c.need ≤ s.fld F.SLC_POOL_CFG_ORIG_RSV c.slice c.pool)
    && decide (c.need ≤ s.freeLeft c.slice c.pool)

/-- An originated request admitted (R238). -/
def admitOrig (s : State) (c : Copy) : State :=
  (s.setCopy { c with phase := .granted }).setFld F.SLC_POOL_STAT_ORIG
    (s.fld F.SLC_POOL_STAT_ORIG c.slice c.pool + c.need) c.slice c.pool

/-- Whether the queue limit of a lossy copy is kept (R238, R285). -/
def queueRoom (s : State) (c : Copy) : Bool :=
  match c.out with
  | .port y =>
    match s.portAt y with
    | some (n, j) =>
      decide (s.depth y c.frame.part c.frame.cls + c.need ≤ s.queueLimit n (queueIx j c.frame.part c.frame.cls) c.frame.colour)
    | none => true
  | _ => true

/-- The drop cause of a copy of a frame received on a port, where its pool refuses it (R238, R249, R285, R410, R412; log
entry 80). A frame that stays in its slice's pool goes to no output that a drain could close. -/
def refusal (s : State) (c : Copy) : Option Nat :=
  let lossy := s.fld F.SLC_POOL_STAT_LOSSY c.slice c.pool
  let free := decide (c.need ≤ s.freeLeft c.slice c.pool)
  let stays := match c.out with
    | .pool _ => true
    | _ => false
  if !s.sliceActive c.slice && !stays then some 11
  else if s.safe then some 9
  else if c.lossless then (if free then none else some 9)
  else if s.poolContained c.pool || !free
      || decide (s.fld F.SLC_POOL_CFG_SIZE c.slice c.pool - s.fld F.SLC_POOL_CFG_RESERVE c.slice c.pool < lossy + c.need) then
    some 9
  else if s.queueRoom c then none
  else some 10

/-- A copy of a frame received on a port is admitted, or dropped and counted; a lossless one that its pool refuses raises
BUF_EMPTY (R238). -/
def decidePort (s : State) (c : Copy) : State :=
  match s.refusal c with
  | none =>
    let s1 := s.setCopy { c with phase := .granted }
    if c.lossless then s1
    else s1.setFld F.SLC_POOL_STAT_LOSSY (s1.fld F.SLC_POOL_STAT_LOSSY c.slice c.pool + c.need) c.slice c.pool
  | some cause =>
    let s1 := (({ s with copies := s.copies.filter (fun k => k.id != c.id) } : State).refuse c.slice cause c.frame c.out).settle
      c.group
    if c.lossless && cause == 9 && !s.safe then s1.report 0x22 (c.slice * 32 + c.pool) (s.poolInfo c.slice c.pool) else s1

/-- One request is decided; an originated one that is not admitted waits (R238). -/
def decideOne (s : State) (c : Copy) : State :=
  if c.orig then (if s.origFits c then s.admitOrig c else s) else s.decidePort c

/-- A copy put in its place by the order of R243. -/
def insertCopy (c : Copy) : List Copy → List Copy
  | [] => [c]
  | d :: r => if before d.order c.order then d :: insertCopy c r else c :: d :: r

/-- The requests in a slice that are not yet decided, in the order of R243. -/
def openRequests (s : State) (n : Nat) : List Copy :=
  (s.copies.filter fun c => c.slice == n && c.phase == .asking).foldl (fun l c => insertCopy c l) []

/-- The admissions of a slice are decided, in the order of R243 (R238). -/
def admitSlice (s : State) (n : Nat) : State := (s.openRequests n).foldl decideOne s

/-- The admissions of the tick are decided in every slice (R238, R243, R357). -/
def admitAll (s : State) : State := (List.range 16).foldl admitSlice s

/-- The bytes of a copy that its buffer `d` holds (R231): the frame in wire order as it stands committed, from byte 1,024 × d
on; the link fields and the CRC that its port writes afresh at each transmission are those of an unencrypted frame. -/
def storedIn (c : Copy) (d : Nat) : Bytes :=
  let h := encodeHeader c.frame
  let icv : Bytes := List.replicate 12 0
  ((h ++ c.frame.payload ++ icv ++ beBytes 4 (frameCrc h c.frame.payload icv)).drop (1024 * d)).take 1024

/-- What buffer b of slice n holds: its part of the one copy it was handed to (R231). -/
def bufferAt (s : State) (n b : Nat) : Bytes :=
  match s.copies.find? fun c => c.slice == n && c.ptrs.any fun w => bitsOf w 10 14 == b with
  | some c => storedIn c (c.ptrs.findIdx fun w => bitsOf w 10 14 == b)
  | none => []

end State

end Sys2Proof.Machine
end

