-- ==== Sys2Proof/Machine/Routing.lean ====
section
/-! DEFINITION. Coordinate routing (R253 to R263, R267, R271 to R273). -/

namespace Sys2Proof.Machine

/-- Where a lookup sends a frame: an output, the unit of this Y5 its type names, or the drop cause. -/
inductive Route where
  | out (o : OutPort)
  | here
  | fails (cause : Nat)
  deriving DecidableEq, Repr

/-- Coordinate d of an address: X, Y, Z (R15). -/
def coordOf (a d : Nat) : Nat :=
  if d = 0 then bitsOf a 13 4 else if d = 1 then bitsOf a 9 4 else bitsOf a 5 4

/-- The flow hash (R258). -/
def flowHash (f : Frame) : Nat :=
  crc32c (beBytes 3 f.src ++ beBytes 3 f.dest ++ beBytes 1 (f.part * 8 + f.cls))

namespace State

/-- The size of a dimension. -/
def dimSize (s : State) (d : Nat) : Nat :=
  1 + (if d = 0 then s.fld F.SLC_RT_CFG_XSIZE 0 else if d = 1 then s.fld F.SLC_RT_CFG_YSIZE 0 else s.fld F.SLC_RT_CFG_ZSIZE 0)

/-- Whether the destination is this Y5 (R255). -/
def isLocal (s : State) (f : Frame) : Bool := f.dest / 32 == s.coord

/-- Whether every destination coordinate lies within its dimension (R255). -/
def destInRange (s : State) (f : Frame) : Bool := (List.range 3).all fun d => decide (coordOf f.dest d < s.dimSize d)

/-- The links of neighbour entry (d, v) as (k, port), in ascending k (R256). -/
def links (s : State) (n d v : Nat) : List (Nat × Nat) :=
  (List.range (min 8 (s.fld F.SLC_NBRM_NLINKS n d v))).map fun k => (k, bitsOf (s.rd .SLC_NBR n d v) (8 * k) 8)

/-- Whether a difference of replay class bars a port to a frame: classes 6 and 7 of a replay-required partition (R313). -/
def replayBars (s : State) (x : Nat) (f : Frame) : Bool :=
  match s.portAt x with
  | some (n, j) => s.flag F.SLC_PORT_STAT_REPLAY_DIFF n j && decide (6 ≤ f.cls) && s.flag F.GLB_MG_MODE_REPLAY_REQ f.part
  | none => false

/-- The usable links of an entry (R256). -/
def usable (s : State) (n d v : Nat) : List Nat :=
  ((s.links n d v).filter fun l => !bitOf (s.fld F.SLC_NBRM_MASK n d v) l.1 && s.linkLive l.2).map (·.2)

/-- The links of an entry that a frame could use were no slice DRAINING or DOWN (R249, R256, R313). -/
def usableButDrain (s : State) (n d v : Nat) (f : Frame) : Bool :=
  (s.links n d v).any fun l => !bitOf (s.fld F.SLC_NBRM_MASK n d v) l.1 && s.portUp l.2 && !s.replayBars l.2 f

/-- The dimensions in which a destination differs from this Y5, ascending. -/
def differing (s : State) (f : Frame) : List Nat :=
  (List.range 3).filter fun d => coordOf f.dest d != coordOf s.ownAddr d

/-- The cause of a failed lookup: 0xB when only draining slices stand in the way (R249), otherwise 0x7. -/
def failCause (s : State) (n : Nat) (f : Frame) (ds : List Nat) : Nat :=
  if ds.any fun d => s.usableButDrain n d (coordOf f.dest d) f then 11 else 7

/-- Dimension order (R259). -/
def dimRoute (s : State) (n : Nat) (f : Frame) : Route :=
  match (s.differing f).head? with
  | none => .fails 7
  | some d =>
    let u := (s.usable n d (coordOf f.dest d)).filter fun p => !s.replayBars p f
    match u[flowHash f % max 1 u.length]? with
    | some p => .out (.port p)
    | none => .fails (s.failCause n f [d])

/-- The candidate list of R260. -/
def candidates (s : State) (n : Nat) (f : Frame) : List Nat :=
  (s.differing f).flatMap fun d => s.usable n d (coordOf f.dest d)

/-- The candidate of the smallest depth, ties read cyclically from index h mod m (R260). -/
def shallowest (s : State) (f : Frame) (cs : List Nat) : Option Nat :=
  let m := max 1 cs.length
  let h := flowHash f % m
  let cyc := cs.drop h ++ cs.take h
  cyc.foldl (fun b p =>
    match b with
    | none => some p
    | some q => if s.depth p f.part f.cls < s.depth q f.part f.cls then some p else some q) none

/-- Adaptive routing through the flowlet table of the ingress port (R260, R261). -/
def adaptive (s : State) (n x : Nat) (f : Frame) : State × Route :=
  let cs := s.candidates n f
  let h := flowHash f
  let ix := h % 1024
  let tag := h / 1024
  let q := s.port x
  let t := s.count
  let idle := s.fld F.SLC_RT_FLOW_IDLE_TK n
  let maxAge := s.fld F.SLC_RT_FLOW_MAX n * 1000
  let answer (st : State) (p : Option Nat) : State × Route :=
    match p with
    | some a => (st, .out (.port a))
    | none => (st, .fails (s.failCause n f (s.differing f)))
  let miss (st : State) : State × Route :=
    match s.shallowest f cs with
    | some p =>
      answer ((st.setPort x { q with flow := insertKey q.flow ix ⟨tag, p, t, t⟩ }).bump F.SLC_RT_MISS_COUNT 1 n) (some p)
    | none => answer (st.bump F.SLC_RT_MISS_COUNT 1 n) none
  match lookupKey q.flow ix with
  | none => miss s
  | some e =>
    if t - e.last ≤ idle then
      if e.tag = tag then
        let live := s.linkLive e.port && (s.differing f).any fun d =>
          (s.links n d (coordOf f.dest d)).any fun l => l.2 == e.port
        if t - e.birth < maxAge ∧ live then
          answer ((s.setPort x { q with flow := insertKey q.flow ix { e with last := t } }).bump F.SLC_RT_HIT_COUNT 1 n)
            (some e.port)
        else miss (if maxAge ≤ t - e.birth then s.bump F.SLC_RT_EXPIRE_COUNT 1 n else s)
      else answer (s.bump F.SLC_RT_COLLIDE_COUNT 1 n) cs[h % max 1 cs.length]?
    else miss s

/-- The fixed route of a class 7 frame (R263). -/
def fixedRoute (s : State) (n : Nat) (f : Frame) : Route :=
  let hit := s.regs.findSome? fun e =>
    if e.1 < RegName.SLC_C7RT.addr n 0 ∨ RegName.SLC_C7RT.addr n 8192 ≤ e.1 then none
    else
      let i := (e.1 - RegName.SLC_C7RT.addr n 0) / 8
      if s.flag F.SLC_C7RT_VALID n i && s.fld F.SLC_C7RT_CTX n i == f.ctx && s.fld F.SLC_C7RT_DEST_Y5 n i == f.dest / 32 then
        some (s.fld F.SLC_C7RT_PORT n i)
      else none
  match hit with
  | some p => if s.linkLive p && !s.replayBars p f then .out (.port p) else .fails 7
  | none => .fails 7

/-- The lookup of a frame in slice n, arrived on port x (R255, R257, R259 to R263). -/
def route (s : State) (n x : Nat) (f : Frame) : State × Route :=
  if s.isLocal f then
    if Frame.y5Addressed f.typ then (s, .here)
    else
      let e := f.dest % 32
      if s.flag F.SLC_EDGE_VALID n e then
        let p := s.fld F.SLC_EDGE_PORT n e
        if !s.sliceActive (s.sliceOf p) then (s, .fails 11)
        else if s.portUp p then (s, .out (.port p)) else (s, .fails 7)
      else (s, .fails 7)
  else if !s.destInRange f then (s, .fails 7)
  else if f.cls = 7 then (s, s.fixedRoute n f)
  else if f.cls = 6 ∨ s.lossless f.part f.cls ∨ bitOf (s.fld F.SLC_RT_ORD_ORD n f.part) f.cls then (s, s.dimRoute n f)
  else s.adaptive n x f

/-- A frame of the Y5's own making with SRC, LIFE and HOP set as at an edge, by slice n (R253, R254). -/
def ownFrame (s : State) (n : Nat) (f : Frame) : Frame :=
  { f with src := s.ownAddr, life := s.lifeNow, hop := s.fld F.SLC_RT_CFG_HOP_LIMIT n }

/-- A frame the Y5 originates, routed from slice `n`, and asked for buffers after the cores' requests (R238, R243). A frame
with no output is discarded and counted (R252). -/
def originate (s : State) (n : Nat) (f : Frame) : State :=
  let g := s.ownFrame n f
  let r := s.route n 256 g
  match r.2 with
  | .out o => r.1.ask g n 4096 o r.1.serial
  | .here => r.1
  | .fails c => r.1.drop n c

/-- A link-local control frame queued on a port (R331). -/
def sendControl (s : State) (x : Nat) (f : Frame) : State :=
  let q := s.port x
  s.setPort x { q with control := q.control ++ [f] }

end State

end Sys2Proof.Machine
end

