-- ==== Sys2Proof/Machine/Operands.lean ====
section
/-! DEFINITION. Operand forms of core operations (R198 to R201): fields, immediates, register reads, element codes,
the parameter register (R207) and destinations. -/

namespace Sys2Proof.Machine

namespace State

/-- Predicate register k of core n; p0 reads all ones (R172). -/
def preg (s : State) (n k : Nat) : Nat := if k = 0 then 2 ^ 64 - 1 else s.rd .RC_P n k
/-- Scalar register k. -/
def sreg (s : State) (n k : Nat) : Nat := s.rd .RC_S n k
/-- Address register k. -/
def areg (s : State) (n k : Nat) : Nat := s.rd .RC_A n k
/-- Lane `i` of vector register k. -/
def lane (s : State) (n k i : Nat) : Nat := s.rd .RC_V n k i
/-- The 256 bytes of vector register k (R171). -/
def vreg (s : State) (n k : Nat) : Bytes := (List.range 64).flatMap fun i => leBytes 4 (s.lane n k i)

/-- The core's cycle. -/
def cycle (s : State) (n : Nat) : Nat := s.fld F.RC_CYCLE_CYCLE n
/-- The core's state code (R186). -/
def coreState (s : State) (n : Nat) : Nat := s.fld F.RC_STATUS_STATE n

/-- A write cycle that depends on the timing revision (R173). -/
def byTiming (s : State) (w1 w2 : Nat) : Nat := if s.fld F.GLB_REPLAY_CLASS_TIMING_REV = 1 then w1 else w2

/-- A write falls W cycles after the issue in this cycle (R173). -/
def later (s : State) (n w : Nat) (d : Dst) : State :=
  let c := s.core n
  s.setCore n { c with writes := c.writes ++ [⟨s.cycle n + w, s.fld F.RC_PC_PC n, d, 0⟩] }

/-- A halt becomes certain; a fault is not replaced (R188, R227). -/
def halting (s : State) (n : Nat) (r : HaltRep) : State :=
  let c := s.core n
  match c.halting with
  | some h => if h.cause = 4 then s else if r.cause = 4 then s.setCore n { c with halting := some r } else s
  | none => s.setCore n { c with halting := some r }

end State

/-- The data window of a core's running binding: first and last local address (R164, R182). -/
def State.window (s : State) (n : Nat) : Nat × Nat :=
  let e := s.fld F.RC_STATUS_ENTRY n
  let lo := s.fld F.RC_BIND_WIN_BASE n e * 256
  (lo, lo + s.fld F.RC_BIND_WIN_SIZE n e * 256 - 1)

/-- Whether bytes lie in the data region and in the running binding's window (R164). -/
def State.inWindow (s : State) (n a len : Nat) : Bool :=
  let w := s.window n
  decide (0x10000 ≤ a) && decide (a + len ≤ 0x80000) && decide (w.1 ≤ a) && decide (a + len ≤ w.2 + 1)

/-- One operation about to issue: the state, the core, bits [25:0] of its word and the bundle's EXT. -/
structure OpIn where
  s : State
  n : Nat
  w : Nat
  ext : Nat
  deriving DecidableEq, Repr

namespace OpIn

/-- Field of the operation word. -/
def f (o : OpIn) (lo w : Nat) : Nat := bitsOf o.w lo w
def vd (o : OpIn) : Nat := o.f 20 6
def va (o : OpIn) : Nat := o.f 14 6
def vb (o : OpIn) : Nat := o.f 8 6
def pm (o : OpIn) : Nat := o.f 5 3
def fn (o : OpIn) : Nat := o.f 0 5
def code (o : OpIn) : Nat := o.f 0 4
/-- Fields of format R. -/
def rd (o : OpIn) : Nat := o.f 21 5
def ra (o : OpIn) : Nat := o.f 16 5
def rb (o : OpIn) : Nat := o.f 9 5
def immSel (o : OpIn) : Bool := o.f 15 1 == 1

/-- A signed immediate of `w` bits at bit `lo`, extended by EXT when bit `x` is 1 (R200). -/
def signedImm (o : OpIn) (lo w x : Nat) : Int :=
  if o.f x 1 = 1 then signedOf (w + 8) (o.f lo w + o.ext * 2 ^ w) else signedOf w (o.f lo w)

/-- An unsigned immediate extended the same way. -/
def unsignedImm (o : OpIn) (lo w x : Nat) : Nat :=
  if o.f x 1 = 1 then o.f lo w + o.ext * 2 ^ w else o.f lo w

/-- The second operand of a scalar operation modulo 2^64 (R224). -/
def operand2 (o : OpIn) : Nat :=
  if o.immSel then unsignedOf 64 (o.signedImm 0 14 14) else o.s.sreg o.n o.rb

/-- The address of a load, store or descriptor: (a + OFS * s) mod 2^32 (R219, R220). -/
def address (o : OpIn) (size : Nat) : Nat :=
  unsignedOf 32 ((o.s.areg o.n (o.f 16 4) : Int) + o.signedImm 0 11 11 * size)

/-- N of SWAIT and SREL (R221, R222). -/
def tileCount (o : OpIn) : Nat :=
  if o.f 14 1 = 1 then o.unsignedImm 0 13 13 else o.s.sreg o.n (o.f 15 5)

/-- Bytes of the registers a vector operation names. -/
def a (o : OpIn) : Bytes := o.s.vreg o.n o.va
def b (o : OpIn) : Bytes := o.s.vreg o.n o.vb
/-- The lanes a vector operation writes (R172, R204). -/
def lanes (o : OpIn) : Nat := o.s.preg o.n o.pm

end OpIn

/-- Bytes at an offset of a destination register, the others kept. -/
def bytesAt (off : Nat) (bs : Bytes) : List (Option Byte) :=
  List.replicate off none ++ bs.map some ++ List.replicate (256 - off - bs.length) none

/-- Bytes of the written lanes only (R172). -/
def maskLanes (p : Nat) (bs : Bytes) : List (Option Byte) :=
  bs.zipIdx.map fun e => if bitOf p (e.2 / 4) then some e.1 else none

/-- Element format of a code of R201. -/
def fmtOf (code : Nat) : Fmt :=
  match code with
  | 9 => .e4m3
  | 10 => .e5m2
  | 11 => .int8
  | c => Fmt.ofCode c

/-- Whether a code of R201 is block-scaled. -/
def scaledCode (code : Nat) : Bool := [5, 6, 7, 9, 10, 11].contains code

/-- Elements one vector register holds (R201). -/
def capacity (f : Fmt) : Nat :=
  match f with
  | .e3m2 | .e2m3 => 256
  | g => 2048 / g.width

/-- The parameter register's fields (R207). -/
structure Param where
  bytes : Bytes
  deriving DecidableEq, Repr

namespace Param
def scale (p : Param) (k : Nat) : Nat := leAt p.bytes k 1
def e (p : Param) (j : Nat) : Nat := leAt p.bytes (32 + j) 1
def rscale (p : Param) : Nat := leAt p.bytes 40 4
def idx (p : Param) : Nat := leAt p.bytes 44 4
def launch (p : Param) : Nat := leAt p.bytes 48 4
def key (p : Param) : Nat := leAt p.bytes 52 2
def mode (p : Param) : Nat := leAt p.bytes 54 1
def rnd (p : Param) : Nat := bitsOf p.mode 0 2
def block (p : Param) : Nat := if bitOf p.mode 2 then 32 else 16
def rs (p : Param) : Bool := bitOf p.mode 3
def sel (p : Param) : Nat := leAt p.bytes 55 1
/-- MODE is invalid (R207). -/
def bad (p : Param) : Bool := decide (bitsOf p.mode 4 4 ≠ 0) || decide (p.rnd = 3)
/-- The rounding of element `e` of a conversion (R208). -/
def rounding (p : Param) (e : Nat) : Rnd :=
  match p.rnd with
  | 0 => .rne
  | 1 => .rtz
  | _ => .sr (srValue p.key p.launch (p.idx + e))
end Param

/-- The parameter register named in VB. -/
def OpIn.param (o : OpIn) : Param := ⟨o.b⟩

/-- Element `i` of source bytes under a code of R201, block scales from the parameter register (R210). -/
def sourceElem (p : Param) (code : Nat) (bs : Bytes) (i : Nat) : FV :=
  let f := fmtOf code
  if scaledCode code then scaledValue f (p.scale (i / p.block)) (elemAt f bs i) else f.value (elemAt f bs i)

end Sys2Proof.Machine
end

