-- ==== Sys2Proof/Machine/IsaVector.lean ====
section
/-! DEFINITION. Vector, conversion, Phlox and dot-product operations (R204 to R218): for each, the faults found at issue
in the order of R228 and the writes it schedules. -/

namespace Sys2Proof.Machine

/-- A fault condition with its REASON and INFO (R228). -/
abbrev Check := Bool × Nat × Nat

/-- RESERVED: a field that must be 0 (R199). -/
def rsvd (o : OpIn) (lo w : Nat) : Check := (decide (o.f lo w ≠ 0), 0x03, 0)

/-- A reserved encoding (R199). -/
def rsvdIf (c : Bool) : Check := (c, 0x03, 0)

/-- FORMAT. -/
def badFormat (c : Bool) : Check := (c, 0x04, 0)

/-- REG_RANGE. -/
def badRange (c : Bool) : Check := (c, 0x07, 0)

/-- PARAM. -/
def badParam (c : Bool) : Check := (c, 0x0F, 0)

/-- One operation of the opcode map (R202): slots 0 A, 1 B, 2 M, 3 C; unit 0 none, 1 divide, 2 Phlox, 3 dot product; the
checks from RESERVED to SRAM_RANGE, those after RESOURCE, and the effect. -/
structure OpDef where
  slots : List Nat
  unit : Nat := 0
  checks : OpIn → List Check
  late : OpIn → List Check := fun _ => []
  effect : OpIn → State

/-- The checks of FADD, FSUB, FMIN and FMAX (R205). -/
def floatChecks (o : OpIn) : List Check :=
  [rsvd o 4 1, rsvdIf (decide (12 ≤ o.code)), badFormat (decide (4 < o.code))]

/-- Element results of a whole register: the bytes, and whether a written element overflowed. -/
def elementwise (f : Fmt) (lanes : Nat) (g : Nat → Rounded) : Bytes × Bool :=
  let rs := (List.range (2048 / f.width)).map g
  (packElems f (rs.map (·.bits)), rs.zipIdx.any fun e => e.1.ovf && bitOf lanes (e.2 * f.width / 32))

/-- A register result under the predicate, with the overflow flag (R98). -/
def vectorResult (o : OpIn) (w : Nat) (r : Bytes × Bool) : State :=
  (o.s.later o.n w (.vec o.vd (maskLanes o.lanes r.1))).noteOp o.n r.2 0

/-- A rounded result counts as overflow only from finite operands (R98). -/
def fromFinite (a b : FV) (r : Rounded) : Rounded := ⟨r.bits, r.ovf && a.isFin && b.isFin⟩

/-- Two-operand float element by element, one rounding to nearest even (R205). Sums and products report overflow (R98). -/
def floatOp (o : OpIn) (f : Fmt) (w : Nat) (g : FV → FV → FV) (reports : Bool := true) : State :=
  let a := o.a
  let b := o.b
  vectorResult o w (elementwise f o.lanes fun i =>
    let x := f.value (elemAt f a i)
    let y := f.value (elemAt f b i)
    let r := fromFinite x y (roundTo f .rne (g x y))
    ⟨r.bits, r.ovf && reports⟩)

def opFadd : OpDef where
  slots := [0]
  checks := floatChecks
  effect o := floatOp o (fmtOf o.code) (o.s.byTiming 3 2) FV.add

def opFsub : OpDef where
  slots := [0]
  checks := floatChecks
  effect o := floatOp o (fmtOf o.code) (o.s.byTiming 3 2) fun x y => x.add y.negate

def opFmul : OpDef where
  slots := [0]
  checks o := [badFormat (decide (o.fn ≠ 0))]
  effect o := floatOp o .fp32 (o.s.byTiming 4 3) FV.mul

/-- The effect of FMIN and FMAX (R97, R205). -/
def minMaxOp (o : OpIn) (isMax : Bool) : State :=
  let f := fmtOf o.code
  let a := o.a
  let b := o.b
  vectorResult o 2 (elementwise f o.lanes fun i => ⟨minMax f isMax (elemAt f a i) (elemAt f b i), false⟩)

def opFmin : OpDef where
  slots := [0]
  checks := floatChecks
  effect o := minMaxOp o false

def opFmax : OpDef where
  slots := [0]
  checks := floatChecks
  effect o := minMaxOp o true

/-- A unit occupied from this cycle for `occ` cycles (R203). -/
def State.occupy (s : State) (n unit occ : Nat) : State :=
  let c := s.core n
  let u := s.cycle n + occ
  match unit with
  | 1 => s.setCore n { c with divFree := u }
  | 2 => s.setCore n { c with phloxFree := u }
  | 3 => s.setCore n { c with dotFree := u }
  | _ => s

def opFdiv : OpDef where
  slots := [0]
  unit := 1
  checks o := [badFormat (decide (o.fn ≠ 0))]
  effect o := (floatOp o .fp32 (o.s.byTiming 24 20) FV.div false).occupy o.n 1 4

def opFsqrt : OpDef where
  slots := [0]
  unit := 1
  checks o := [rsvd o 8 6, badFormat (decide (o.fn ≠ 0))]
  effect o := (floatOp o .fp32 (o.s.byTiming 20 16) (fun x _ => x.sqrt) false).occupy o.n 1 4

/-- The pairs FCVT converts between (R72, R209). -/
def fcvtPair (src dst : Nat) : Bool :=
  if scaledCode src then [0, 1, 2].contains dst
  else match src with
    | 0 => [1, 2, 3, 4, 8].contains dst || scaledCode dst
    | 1 => [0, 2].contains dst
    | 2 => [0, 1].contains dst
    | 3 => [0, 1, 2].contains dst
    | 4 => [0, 1, 2].contains dst
    | 8 => dst == 0
    | _ => false

/-- Source and destination codes of FCVT. -/
def OpIn.cvtSrc (o : OpIn) : Nat := o.f 4 4
def OpIn.cvtCount (o : OpIn) : Nat := min (capacity (fmtOf o.cvtSrc)) (capacity (fmtOf o.code))

/-- The scale and elements of one block of `vs`, element indices from `e0` (R67). -/
def scaledBlock (f : Fmt) (p : Param) (odd : Bool) (e0 : Nat) (vs : List FV) : Nat × List Rounded :=
  let sc := chooseScale f vs
  (sc, vs.zipIdx.map fun v => scaledElem f sc (p.rounding (e0 + v.2)) odd v.1)

/-- The blocks of `bl` elements of a list, with the index of each block's first element. -/
def blocksOf {α : Type} (bl : Nat) : (count start : Nat) → List α → List (Nat × List α)
  | 0, _, _ => []
  | c + 1, st, l => (st, l.take bl) :: blocksOf bl c (st + bl) (l.drop bl)

/-- Whether a finite source became infinite or saturated. -/
def anyOvf (vs : List FV) (rs : List Rounded) : Bool := (vs.zip rs).any fun e => e.1.isFin && e.2.ovf

def opFcvt : OpDef where
  slots := [0]
  checks o := [rsvdIf (decide (12 ≤ o.cvtSrc) || decide (12 ≤ o.code)),
    badFormat (!fcvtPair o.cvtSrc o.code), badRange (scaledCode o.code && decide (o.vd = 63)),
    badParam (o.param.bad || decide (max (capacity (fmtOf o.cvtSrc)) (capacity (fmtOf o.code)) / o.cvtCount ≤ o.param.sel))]
  effect o :=
    let p := o.param
    let fs := fmtOf o.cvtSrc
    let fd := fmtOf o.code
    let n := o.cvtCount
    let a := o.a
    let s0 := if n < capacity fs then p.sel * n else 0
    let d0 := if n < capacity fd then p.sel * n else 0
    let vs := (List.range n).map fun e => sourceElem p o.cvtSrc a (s0 + e)
    if scaledCode o.code then
      let bl := (blocksOf p.block (n / p.block) 0 vs).map fun b => scaledBlock fd p false b.1 b.2
      let rs := bl.flatMap (·.2)
      let s1 := o.s.later o.n 3 (.vec o.vd (bytesAt (d0 * fd.width / 8) (packElems fd (rs.map (·.bits)))))
      let s2 := s1.later o.n 3 (.vec (o.vd + 1) (bytesAt (d0 / p.block) (bl.map fun b => BitVec.ofNat 8 b.1)))
      s2.noteOp o.n (anyOvf vs rs) 0
    else
      let rs := vs.zipIdx.map fun v => roundTo fd (p.rounding v.2) v.1
      let s1 := o.s.later o.n 3 (.vec o.vd (bytesAt (d0 * fd.width / 8) (packElems fd (rs.map (·.bits)))))
      (s1.noteOp o.n (anyOvf vs rs) 0).noteSubst o.n o.code (vs.any (· == .nan))

def opUnpk : OpDef where
  slots := [0]
  checks o := [rsvd o 8 6, rsvdIf (decide (12 ≤ o.code)), rsvdIf (decide (o.code ≠ 7) && decide (o.f 4 1 ≠ 0)),
    badFormat (!([5, 6, 7].contains o.code))]
  effect o :=
    let f := fmtOf o.code
    let a := o.a
    let i0 := if o.code = 7 then 256 * o.f 4 1 else 0
    vectorResult o 2 (elementwise .e4m3 o.lanes fun i => roundTo .e4m3 .rne (f.value (elemAt f a (i0 + i))))

/-- Integer element width of FN[1:0] (R206). -/
def intWidth (o : OpIn) : Nat := 8 * 2 ^ o.f 0 2

/-- A bitwise or integer operation on elements of `w` bits. -/
def intOp (o : OpIn) (w : Nat) (g : Nat → Nat → Nat) : State :=
  let a := o.a
  let b := o.b
  let k := w / 8
  vectorResult o 1 ((List.range (256 / k)).flatMap (fun i => leBytes k (g (leAt a (i * k) k) (leAt b (i * k) k))), false)

/-- The checks of IADD and ISUB (R206). -/
def intChecks (o : OpIn) : List Check := [rsvdIf (decide (o.f 0 2 = 3)), rsvd o 2 3]

/-- The checks of IMIN and IMAX. -/
def intMinChecks (o : OpIn) : List Check := [rsvdIf (decide (o.f 0 2 = 3)), rsvd o 3 2]

def opIadd : OpDef where
  slots := [0, 1]
  checks := intChecks
  effect o := intOp o (intWidth o) (· + ·)

def opIsub : OpDef where
  slots := [0, 1]
  checks := intChecks
  effect o := intOp o (intWidth o) fun x y => x + 2 ^ intWidth o - y

/-- Whether x is below y, signed when FN[2] is 1 (R206). -/
def intLt (o : OpIn) (x y : Nat) : Bool :=
  if o.f 2 1 = 1 then decide (signedOf (intWidth o) x < signedOf (intWidth o) y) else decide (x < y)

def opImin : OpDef where
  slots := [0, 1]
  checks := intMinChecks
  effect o := intOp o (intWidth o) fun x y => if intLt o y x then y else x

def opImax : OpDef where
  slots := [0, 1]
  checks := intMinChecks
  effect o := intOp o (intWidth o) fun x y => if intLt o x y then y else x

def opAnd : OpDef where
  slots := [0, 1]
  checks o := [rsvd o 0 5]
  effect o := intOp o 32 Nat.land

def opOr : OpDef where
  slots := [0, 1]
  checks o := [rsvd o 0 5]
  effect o := intOp o 32 Nat.lor

def opXor : OpDef where
  slots := [0, 1]
  checks o := [rsvd o 0 5]
  effect o := intOp o 32 Nat.xor

def opMov : OpDef where
  slots := [0, 1]
  checks o := [rsvd o 0 5, rsvd o 8 6]
  effect o := intOp o 32 fun x _ => x

def opBcast : OpDef where
  slots := [0, 1]
  checks o := [rsvd o 0 5, rsvd o 8 6, rsvd o 14 1]
  effect o :=
    let v := leBytes 4 (o.s.sreg o.n (o.f 15 5))
    vectorResult o 1 ((List.range 64).flatMap fun _ => v, false)

/-- Integer j of a Phlox register (R171). -/
def phloxAt (bs : Bytes) (j : Nat) : Int := signedOf 64 (leAt bs (8 * j) 8)

/-- One element of PADD: the stored value, its hold bit and whether it saturated (R214). -/
def paddElem (held : Bool) (h : Nat) (a b : Int) : Int × Nat × Bool :=
  let t := a + 2 ^ 64 * (h : Int) + b
  if -(2 ^ 63) ≤ t ∧ t ≤ 2 ^ 63 - 1 then (t, 0, false)
  else if t = 2 ^ 63 ∧ held then (-(2 ^ 63), 1, false)
  else if t < 0 then (-(2 ^ 63), 0, true)
  else if held then (-(2 ^ 63), 1, true)
  else (2 ^ 63 - 1, 0, true)

def opPadd : OpDef where
  slots := [0, 1]
  checks o := [rsvd o 0 5]
  effect o :=
    let a := o.a
    let b := o.b
    let held := decide (o.pm ≠ 0)
    let hp := if held then o.s.preg o.n o.pm else 0
    let rs := (List.range 32).map fun j => paddElem held (b2n (bitOf hp (2 * j))) (phloxAt a j) (phloxAt b j)
    let s1 := o.s.later o.n 2 (.vec o.vd (bytesAt 0 (rs.flatMap fun r => leBytes 8 (unsignedOf 64 r.1))))
    let s2 := if held then s1.later o.n 2 (.predicate o.pm (rs.foldr (fun r acc => 3 * r.2.1 + 4 * acc) 0)) else s1
    s2.noteOp o.n false (rs.countP fun r => r.2.2)

/-- Source codes of PHLOX.EXP and PHLOX.CVT (R212). -/
def phloxSource (code : Nat) : Bool := [0, 1, 2, 3, 4, 8, 9, 10, 11].contains code

/-- Spans of 32 elements in a register (R212). -/
def spansOf (code : Nat) : Nat := capacity (fmtOf code) / 32

/-- The values of span j of VA. -/
def spanValues (o : OpIn) (j : Nat) : List FV :=
  let p := o.param
  let a := o.a
  (List.range 32).map fun i => sourceElem p o.code a (32 * j + i)

/-- MODE is read for block-scaled sources only (R212; log entry 62). -/
def opPhloxExp : OpDef where
  slots := [0]
  checks o := [rsvd o 25 1, rsvd o 5 3, rsvd o 4 1, rsvdIf (decide (12 ≤ o.code)), badFormat (!phloxSource o.code),
    badParam (scaledCode o.code && o.param.bad)]
  effect o :=
    let es := (List.range (spansOf o.code)).map fun j => BitVec.ofNat 8 (spanExponent (spanValues o j))
    o.s.later o.n 4 (.scalar (o.f 20 5) (leNat es))

def opPhloxCvt : OpDef where
  slots := [0, 1]
  unit := 2
  checks o := [rsvd o 5 3, rsvd o 4 1, rsvdIf (decide (12 ≤ o.code)), badFormat (!phloxSource o.code),
    badRange (decide (63 < o.vd + spansOf o.code - 1)),
    badParam (scaledCode o.code && o.param.bad)]
  effect o :=
    let n := spansOf o.code
    let conv := (List.range n).map fun j => (j, (spanValues o j).map (phloxConv (o.param.e j)))
    let s1 := conv.foldl (fun st c =>
      st.later o.n (8 + 8 * c.1) (.vec (o.vd + c.1) (bytesAt 0 (c.2.flatMap fun r => leBytes 8 (unsignedOf 64 r.1))))) o.s
    (s1.noteOp o.n false (conv.foldl (fun k c => k + c.2.countP (·.2)) 0)).occupy o.n 2 (8 * n)

/-- The exact value PHLOX.NORM rounds for element j (R215). -/
def normValue (o : OpIn) (j : Nat) : FV :=
  let p := o.param
  let h := if o.pm = 0 then 0 else b2n (bitOf (o.s.preg o.n o.pm) (2 * j))
  let v := phloxValue (p.e 0) (phloxAt o.a j + 2 ^ 64 * (h : Int))
  if p.rs then v.mul (Fmt.fp32.value p.rscale) else v

def opPhloxNorm : OpDef where
  slots := [0, 1]
  unit := 2
  checks o := [rsvd o 4 1, rsvdIf (decide (12 ≤ o.code)), badParam o.param.bad]
  effect o :=
    let p := o.param
    let f := fmtOf o.code
    let vs := (List.range 32).map (normValue o)
    let w := o.s.byTiming 44 36
    let out : Bytes × List Rounded :=
      if scaledCode o.code then
        let bl := (blocksOf p.block (32 / p.block) 0 vs).map fun b => scaledBlock f p true b.1 b.2
        let rs := bl.flatMap (·.2)
        (slice (packElems f (rs.map (·.bits))) 0 128 ++ (bl.map fun b => BitVec.ofNat 8 b.1), rs)
      else
        let rs := vs.zipIdx.map fun v => roundTo f (p.rounding v.2) (if f = .fp32 then v.1 else v.1.roundOdd24)
        (packElems f (rs.map (·.bits)), rs)
    (((o.s.later o.n w (.vec o.vd (bytesAt 0 (slice out.1 0 256)))).noteOp o.n (anyOvf vs out.2) 0).noteSubst o.n o.code
      (vs.any (· == .nan))).occupy o.n 2 16

/-- Formats of a PAIR of R216. -/
def pairFmts (pair : Nat) : Fmt × Fmt :=
  match pair with
  | 0 => (.e4m3, .e4m3) | 1 => (.e5m2, .e5m2) | 2 => (.e4m3, .e5m2) | 3 => (.e5m2, .e4m3) | 4 => (.e3m2, .e3m2)
  | 5 => (.e2m3, .e2m3) | 6 => (.e2m1, .e2m1) | 7 => (.int8, .int8) | 8 => (.bf16, .bf16) | _ => (.fp16, .fp16)

/-- Fields of a dot-product operation. -/
def OpIn.pair (o : OpIn) : Nat := o.f 4 4
def OpIn.nblocks (o : OpIn) : Nat := 1 + o.f 3 1
def OpIn.acc (o : OpIn) : Bool := o.f 2 1 == 1
def OpIn.isScaled (o : OpIn) : Bool := o.f 1 1 == 1

/-- Registers of the a group (R217). -/
def dotGroup (o : OpIn) (bl : Nat) : Nat := bl * o.nblocks * (pairFmts o.pair).1.width / 32

/-- Compute cycles k (R218). -/
def dotCycles (o : OpIn) (bl : Nat) : Nat :=
  64 * bl * o.nblocks / (if o.pair = 6 then 512 else if 8 ≤ o.pair then 64 else 256)

/-- The checks of the dot-product operations (R216, R217). -/
def dotChecks (bl : Nat) (phlox : Bool) (o : OpIn) : List Check :=
  [rsvd o 0 1, rsvdIf (decide (10 ≤ o.pair)),
   badFormat (([8, 9].contains o.pair && o.isScaled) || ([4, 5, 6].contains o.pair && !o.isScaled)
     || ([8, 9].contains o.pair && decide (bl = 32) && decide (o.nblocks = 2))),
   badRange (decide (63 < o.va + dotGroup o bl - 1) || decide (o.vb = 63)
     || (phlox && (decide (o.vd % 2 = 1) || decide (o.vd = 63))))]

/-- The block results of lane `i` (R217, R100 to R102). -/
def laneBlocks (o : OpIn) (bl : Nat) (ga b1 sc : Bytes) (i : Nat) : List FV :=
  let fa := (pairFmts o.pair).1
  let fb := (pairFmts o.pair).2
  let len := bl * fa.width / 8
  (List.range o.nblocks).map fun j =>
    let ab := slice ga ((64 * j + i) * len) len
    let bb := slice b1 (128 * j) 128
    blockResult fa fb o.isScaled (leAt sc (64 * j + i) 1) (leAt sc (128 + j) 1)
      ((List.range bl).map (elemAt fa ab)) ((List.range bl).map (elemAt fb bb))

/-- The bytes of the a group. -/
def dotBytes (o : OpIn) (bl : Nat) : Bytes := (List.range (dotGroup o bl)).flatMap fun r => o.s.vreg o.n (o.va + r)

/-- The effect of DOT (R218). -/
def dotEffect (bl : Nat) (o : OpIn) : State :=
  let ga := dotBytes o bl
  let b1 := o.s.vreg o.n (o.vb + 1)
  let sc := o.b
  let acc := o.s.vreg o.n o.vd
  let k := dotCycles o bl
  let rev := o.s.fld F.GLB_REPLAY_CLASS_ARITH_REV
  let rs := (List.range 64).map fun i =>
    let brs := laneBlocks o bl ga b1 sc i
    let c := if o.acc then leAt acc (4 * i) 4 else 0x80000000
    let r := if rev = 1 then dotAcc1 c brs else dotAcc2 c brs
    (r, if rev = 1 then dotOvf1 c brs else dotOvf2 c brs)
  ((o.s.later o.n (k + o.s.byTiming 6 4) (.vec o.vd (bytesAt 0 (rs.flatMap fun r => leBytes 4 r.1)))).noteOp o.n
    (rs.any (·.2)) 0).occupy o.n 3 k

/-- The effect of DOTP (R105, R218). -/
def dotpEffect (bl : Nat) (o : OpIn) : State :=
  let ga := dotBytes o bl
  let b1 := o.s.vreg o.n (o.vb + 1)
  let sc := o.b
  let acc := o.s.vreg o.n o.vd ++ o.s.vreg o.n (o.vd + 1)
  let k := dotCycles o bl
  let w := k + o.s.byTiming 8 6
  let rs := (List.range 64).map fun i =>
    dotPhlox (leAt sc 130 1) (if o.acc then phloxAt acc i else 0) (laneBlocks o bl ga b1 sc i)
  let out (l : List (Int × Nat × Bool)) : List (Option Byte) := bytesAt 0 (l.flatMap fun r => leBytes 8 (unsignedOf 64 r.1))
  let s1 := o.s.later o.n w (.vec o.vd (out (rs.take 32)))
  let s2 := s1.later o.n w (.vec (o.vd + 1) (out (rs.drop 32)))
  let s3 := s2.later o.n w (.predicate 7 (rs.foldr (fun r acc => b2n r.2.2 + 2 * acc) 0))
  (s3.noteOp o.n false (rs.foldl (fun t r => t + r.2.1) 0)).occupy o.n 3 k

def opDot16 : OpDef where
  slots := [1]
  unit := 3
  checks := dotChecks 16 false
  effect := dotEffect 16

def opDot32 : OpDef where
  slots := [1]
  unit := 3
  checks := dotChecks 32 false
  effect := dotEffect 32

def opDotp16 : OpDef where
  slots := [1]
  unit := 3
  checks := dotChecks 16 true
  effect := dotpEffect 16

def opDotp32 : OpDef where
  slots := [1]
  unit := 3
  checks := dotChecks 32 true
  effect := dotpEffect 32

end Sys2Proof.Machine
end

