-- ==== Sys2Proof/Machine/IsaScalar.lean ====
section
/-! DEFINITION. Memory, scalar and branch operations (R219, R224, R225). -/

namespace Sys2Proof.Machine

/-- Bytes of SIZE. -/
def OpIn.size (o : OpIn) : Nat := 2 ^ o.f 12 4

/-- The checks of the loads and stores (R164, R219): scalar forms reserve bit 25 and allow SIZE 0 to 3. -/
def memChecks (scalar : Bool) (o : OpIn) : List Check :=
  let ad := o.address o.size
  [rsvdIf (decide (8 < o.f 12 4)), rsvdIf (scalar && decide (o.f 25 1 ≠ 0)),
   badFormat (scalar && decide (3 < o.f 12 4)), (decide (ad % o.size ≠ 0), 0x09, ad),
   (!o.s.inWindow o.n ad o.size, 0x0A, ad)]

/-- A load: the bytes go to a destination, unless the ECC check of the words read fails (R167, R188, R419). -/
def loadOp (o : OpIn) (d : Bytes → Dst) : State :=
  let a := o.address o.size
  let s1 := o.s.noteRead o.n a o.size
  if o.s.badRead o.n a o.size then s1.halting o.n ⟨4, 0, 0x0C, 2, true, o.s.fld F.RC_PC_PC o.n⟩
  else s1.later o.n 3 (d (o.s.sramBytes o.n a o.size))

/-- A store: visible to loads two cycles on (R166). -/
def storeOp (o : OpIn) (bs : Bytes) : State :=
  let c := o.s.core o.n
  o.s.setCore o.n { c with stores := c.stores ++ [⟨o.s.cycle o.n + 2, o.address o.size, bs⟩] }

def opLdV : OpDef where
  slots := [2]
  checks := memChecks false
  effect o := loadOp o fun bs => .vec o.vd (bytesAt 0 bs)

def opStV : OpDef where
  slots := [2]
  checks := memChecks false
  effect o := storeOp o ((o.s.vreg o.n o.vd).take o.size)

def opLdS : OpDef where
  slots := [2]
  checks := memChecks true
  effect o := loadOp o fun bs => .scalar (o.f 20 5) (leNat bs)

def opStS : OpDef where
  slots := [2]
  checks := memChecks true
  effect o := storeOp o (leBytes o.size (o.s.sreg o.n (o.f 20 5)))

/-- What format R reserves (R199): with I = 0 bits [8:0] and X. -/
def rChecks (o : OpIn) : List Check :=
  [rsvdIf (!o.immSel && (decide (o.f 0 9 ≠ 0) || decide (o.f 14 1 ≠ 0)))]

/-- A scalar operation of W 1 on RA and the second operand, modulo 2^64 (R224). -/
def scalarOp (o : OpIn) (w : Nat) (g : Nat → Nat → Nat) : State :=
  o.s.later o.n w (.scalar o.rd (g (o.s.sreg o.n o.ra) o.operand2 % 2 ^ 64))

def opAddS : OpDef where
  slots := [3]
  checks := rChecks
  effect o := scalarOp o 1 (· + ·)

def opSubS : OpDef where
  slots := [3]
  checks := rChecks
  effect o := scalarOp o 1 fun x y => x + 2 ^ 64 - y

def opMulS : OpDef where
  slots := [3]
  checks := rChecks
  effect o := scalarOp o 3 (· * ·)

def opAndS : OpDef where
  slots := [3]
  checks := rChecks
  effect o := scalarOp o 1 Nat.land

def opOrS : OpDef where
  slots := [3]
  checks := rChecks
  effect o := scalarOp o 1 Nat.lor

def opXorS : OpDef where
  slots := [3]
  checks := rChecks
  effect o := scalarOp o 1 Nat.xor

def opShl : OpDef where
  slots := [3]
  checks := rChecks
  effect o := scalarOp o 1 fun x y => x * 2 ^ (y % 64)

def opShr : OpDef where
  slots := [3]
  checks := rChecks
  effect o := scalarOp o 1 fun x y => x / 2 ^ (y % 64)

def opSra : OpDef where
  slots := [3]
  checks := rChecks
  effect o := scalarOp o 1 fun x y => unsignedOf 64 (signedOf 64 x / ((2 ^ (y % 64) : Nat) : Int))

def opMovi : OpDef where
  slots := [3]
  checks _ := []
  effect o := o.s.later o.n 1 (.scalar o.rd (unsignedOf 64 (o.signedImm 0 20 20)))

def opAadd : OpDef where
  slots := [3]
  checks o := [rsvd o 25 1, rsvd o 20 1] ++ rChecks o
  effect o := o.s.later o.n 1 (.address (o.f 21 4) ((o.s.areg o.n (o.f 16 4) + o.operand2) % 2 ^ 32))

def opMova : OpDef where
  slots := [3]
  checks o := [rsvd o 25 1, rsvd o 0 16]
  effect o := o.s.later o.n 1 (.address (o.f 21 4) (o.s.sreg o.n o.ra % 2 ^ 32))

def opMovs : OpDef where
  slots := [3]
  checks o := [rsvd o 20 1, rsvd o 0 16]
  effect o := o.s.later o.n 1 (.scalar o.rd (o.s.areg o.n (o.f 16 4)))

def opPset : OpDef where
  slots := [3]
  checks o := [rsvd o 24 2, rsvd o 0 16, (decide (o.f 21 3 = 0), 0x05, 0)]
  effect o := o.s.later o.n 1 (.predicate (o.f 21 3) (o.s.sreg o.n o.ra))

/-- Whether BR is taken (R225). -/
def brTaken (cond v : Nat) : Bool :=
  let i := signedOf 64 v
  match cond with
  | 0 => true
  | 1 => decide (i = 0)
  | 2 => decide (i ≠ 0)
  | 3 => decide (i < 0)
  | 4 => decide (0 ≤ i)
  | 5 => decide (0 < i)
  | _ => decide (i ≤ 0)

/-- BR alone has no destination; the sequencer takes the branch (see `branchOf`). -/
def opBr : OpDef where
  slots := [3]
  checks o := [rsvd o 16 2, rsvdIf (decide (o.f 18 3 = 7)), rsvdIf (decide (o.f 18 3 = 0) && decide (o.f 21 5 ≠ 0)),
    (decide (o.f 0 1 = 1), 0x09, o.f 0 16)]
  effect o := o.s

def opLoop : OpDef where
  slots := [3]
  checks o := [rsvd o 16 5, (decide (o.f 0 1 = 1), 0x09, o.f 0 16)]
  effect o := o.s.later o.n 1 (.scalar o.rd ((o.s.sreg o.n o.rd + 2 ^ 64 - 1) % 2 ^ 64))

/-- The target a taken BR (0x3E) or LOOP (0x3F) goes to (R225). -/
def branchOf (opcode : Nat) (o : OpIn) : Option Nat :=
  let v := o.s.sreg o.n (o.f 21 5)
  if opcode = 0x3E then (if brTaken (o.f 18 3) v then some (o.f 0 16) else none)
  else if opcode = 0x3F then (if v = 1 then none else some (o.f 0 16))
  else none

end Sys2Proof.Machine
end

