-- ==== Sys2Proof/Machine/IsaStream.lean ====
section
/-! DEFINITION. Stream operations (R177 to R181, R220 to R223) and the opcode map (R202). -/

namespace Sys2Proof.Machine

namespace State

/-- The descriptor record of engine k. -/
def engine (s : State) (n k : Nat) : EngineX := ((s.core n).engines[k]?).getD {}

/-- The record of engine k of core n replaced. -/
def setEngine (s : State) (n k : Nat) (e : EngineX) : State :=
  s.setCore n { s.core n with engines := setAt (s.core n).engines k e }

/-- Engine state code: 0 IDLE, 1 ACTIVE, 2 DONE, 3 FAULT. -/
def seState (s : State) (n k : Nat) : Nat := s.fld F.RC_SE_STAT_STATE n k
def seDir (s : State) (n k : Nat) : Nat := s.fld F.RC_SE_STAT_DIR n k
def seCount (s : State) (n k : Nat) : Nat := s.fld F.RC_SE_COUNT_COUNT n k
def seRel (s : State) (n k : Nat) : Nat := s.fld F.RC_SE_COUNT_REL n k

/-- An engine faults: FAULT state, sub-reason, and the core's halt after issue, with the slot and the bundle of the faulting
operation (R181, R188). -/
def seFault (s : State) (n k rsn slot bundle : Nat) : State :=
  ((s.setFld F.RC_SE_STAT_STATE 3 n k).setFld F.RC_SE_STAT_FAULT_RSN rsn n k).halting n ⟨4, 0, 0x0D, slot, true, bundle⟩

end State

/-- A stream descriptor's fields (R177). -/
structure Desc where
  bytes : Bytes
  deriving DecidableEq, Repr

namespace Desc
def dir (d : Desc) : Nat := bitsOf (leAt d.bytes 0 2) 0 1
def mode (d : Desc) : Nat := bitsOf (leAt d.bytes 0 2) 1 1
def ctx (d : Desc) : Nat := bitsOf (leAt d.bytes 0 2) 4 12
def target (d : Desc) : Nat := leAt d.bytes 2 1
def first (d : Desc) : Nat := bitsOf (leAt d.bytes 4 3) 0 20
def ntiles (d : Desc) : Nat := bitsOf (leAt d.bytes 8 4) 0 21
def tileBytes (d : Desc) : Nat := bitsOf (leAt d.bytes 12 2) 0 14
def base (d : Desc) : Nat := bitsOf (leAt d.bytes 16 4) 0 19
def ring (d : Desc) : Nat := bitsOf (leAt d.bytes 20 4) 0 19
/-- Slot stride (R178). -/
def stride (d : Desc) : Nat := ceilDiv d.tileBytes 32 * 32
/-- Bytes of the slots (R178). -/
def span (d : Desc) : Nat := if d.ring = 0 then d.ntiles * d.stride else d.ring
/-- A reserved field is not 0. -/
def reservedBad (d : Desc) : Bool :=
  decide (bitsOf (leAt d.bytes 0 2) 2 2 ≠ 0) || decide (leAt d.bytes 3 1 ≠ 0) || decide (bitsOf (leAt d.bytes 4 3) 20 4 ≠ 0)
    || decide (leAt d.bytes 7 1 ≠ 0) || decide (bitsOf (leAt d.bytes 8 4) 21 11 ≠ 0)
    || decide (bitsOf (leAt d.bytes 12 2) 14 2 ≠ 0) || decide (leAt d.bytes 14 2 ≠ 0)
    || decide (bitsOf (leAt d.bytes 16 4) 19 13 ≠ 0) || decide (bitsOf (leAt d.bytes 20 4) 19 13 ≠ 0)
    || decide (leAt d.bytes 24 8 ≠ 0)
/-- FAULT_RSN 0x05. -/
def fieldsBad (d : Desc) : Bool :=
  d.reservedBad || decide (d.tileBytes = 0) || decide (8192 < d.tileBytes) || decide (d.ntiles = 0)
    || (decide (d.ring ≠ 0) && (decide (d.ring < d.stride) || decide (d.ring % d.stride ≠ 0)))
end Desc

/-- The engine an operation names. -/
def OpIn.k (o : OpIn) : Nat := o.f 20 2

/-- The descriptor SSTART reads. -/
def OpIn.desc (o : OpIn) : Desc := ⟨o.s.sramBytes o.n (o.address 32) 32⟩

/-- The first FAULT_RSN that SSTART meets, in the order of R181, an uncorrectable error in the descriptor's words after the
checks of its address (log entry 77); 0 for none. -/
def sstartFault (o : OpIn) : Nat :=
  let a := o.address 32
  let d := o.desc
  let r := (o.s.core o.n).run
  let ctx := (r.map (·.ctx)).getD 0
  let te := o.s.targetEnd ctx d.dir ((r.map (·.stage)).getD 0) d.target
  if o.s.seState o.n o.k = 1 then 6
  else if a % 32 ≠ 0 then 4
  else if !o.s.inWindow o.n a 32 then 3
  else if o.s.badRead o.n a 32 then 9
  else if d.fieldsBad then 5
  else if d.ctx ≠ ctx then 2
  else if te = none then 1
  else if d.base % 32 ≠ 0 then 4
  else if !o.s.inWindow o.n d.base d.span then 3
  else if te.getD 0 < d.first + d.ntiles then 7
  else 0

/-- What a refused SSTART leaves in its engine: FAULT with its sub-reason, the refused descriptor as the current one unless
the engine was ACTIVE; its fields only when it was read (R181; log entry 27). -/
def sstartRefuse (o : OpIn) (s : State) : State :=
  let k := o.k
  let d := o.desc
  let a := o.address 32
  let s1 := (s.setFld F.RC_SE_STAT_STATE 3 o.n k).setFld F.RC_SE_STAT_FAULT_RSN (sstartFault o) o.n k
  if sstartFault o = 6 then s1
  else
    let s2 := s1.setFld F.RC_SE_STAT_DESC a o.n k
    if a % 32 ≠ 0 ∨ o.s.inWindow o.n a 32 = false then s2
    else if sstartFault o = 9 then s2.noteRead o.n a 32
    else (((s2.noteRead o.n a 32).setFld F.RC_SE_STAT_DIR d.dir o.n k).setFld F.RC_SE_STAT_CTX d.ctx o.n k).setFld
      F.RC_SE_STAT_TARGET d.target o.n k

def opSstart : OpDef where
  slots := [2]
  checks o := [rsvd o 22 4, rsvd o 12 4]
  late o := [(decide (sstartFault o ≠ 0), 0x0D, o.address 32)]
  effect o :=
    let d := o.desc
    let k := o.k
    let s1 := (((((((o.s.noteRead o.n (o.address 32) 32).setFld F.RC_SE_STAT_STATE 1 o.n k).setFld F.RC_SE_STAT_DIR d.dir o.n k).setFld
      F.RC_SE_STAT_CTX d.ctx o.n k).setFld F.RC_SE_STAT_TARGET d.target o.n k).setFld F.RC_SE_STAT_FAULT_RSN 0 o.n k).setFld
      F.RC_SE_STAT_DESC (o.address 32) o.n k).wr .RC_SE_COUNT 0 o.n k
    let c := s1.core o.n
    s1.setCore o.n { c with engines := setAt c.engines k ⟨d.mode, d.first, d.ntiles, d.tileBytes, d.base, d.ring,
      o.s.fld F.RC_PC_PC o.n, 0, []⟩ }

/-- What SWAIT and SREL reserve (R199). -/
def swaitChecks (o : OpIn) : List Check :=
  [rsvd o 22 4, if o.f 14 1 = 0 then rsvd o 0 14 else rsvd o 15 5]

def opSwait : OpDef where
  slots := [2]
  checks := swaitChecks
  late o := [(decide (0 < o.tileCount) && (decide (o.s.seState o.n o.k = 0)
    || decide ((o.s.engine o.n o.k).ntiles < o.tileCount)), 0x0E, 0)]
  effect o := o.s

def opSrel : OpDef where
  slots := [2]
  checks := swaitChecks
  effect o :=
    let k := o.k
    if o.s.seState o.n k ≠ 0 ∧ o.s.seState o.n k ≠ 2 then
      let l := if o.s.seDir o.n k = 0 then o.s.seCount o.n k else (o.s.engine o.n k).ntiles
      o.s.later o.n 2 (.release k (min o.tileCount l))
    else o.s

def opEnd : OpDef where
  slots := [3]
  checks o := [rsvd o 0 26]
  effect o := o.s

/-- The opcode map (R202). -/
def opOf : Nat → Option OpDef
  | 0x01 => some opFadd | 0x02 => some opFsub | 0x03 => some opFmul | 0x04 => some opFmin | 0x05 => some opFmax
  | 0x06 => some opFdiv | 0x07 => some opFsqrt | 0x08 => some opFcvt | 0x09 => some opUnpk | 0x0A => some opIadd
  | 0x0B => some opIsub | 0x0C => some opImin | 0x0D => some opImax | 0x0E => some opAnd | 0x0F => some opOr
  | 0x10 => some opXor | 0x11 => some opMov | 0x12 => some opBcast | 0x13 => some opPadd | 0x14 => some opPhloxExp
  | 0x15 => some opPhloxCvt | 0x16 => some opPhloxNorm | 0x18 => some opDot16 | 0x19 => some opDot32
  | 0x1A => some opDotp16 | 0x1B => some opDotp32 | 0x20 => some opLdV | 0x21 => some opStV | 0x22 => some opLdS
  | 0x23 => some opStS | 0x24 => some opSstart | 0x25 => some opSwait | 0x26 => some opSrel | 0x2F => some opEnd
  | 0x30 => some opAddS | 0x31 => some opSubS | 0x32 => some opMulS | 0x33 => some opAndS | 0x34 => some opOrS
  | 0x35 => some opXorS | 0x36 => some opShl | 0x37 => some opShr | 0x38 => some opSra | 0x39 => some opMovi
  | 0x3A => some opAadd | 0x3B => some opMova | 0x3C => some opMovs | 0x3D => some opPset | 0x3E => some opBr
  | 0x3F => some opLoop
  | _ => none

end Sys2Proof.Machine
end

