-- ==== Sys2Proof/Machine/Sequencer.lean ====
section
/-! DEFINITION. The sequencer of a core (R164, R173 to R176, R183 to R191, R194 to R199, R226 to R228): writes in flight,
fetch, the checks of a bundle, issue, drain points, halts, starts and aborts. -/

namespace Sys2Proof.Machine

/-- Lanes a vector write touches. -/
def lanesOf (bs : List (Option Byte)) : List Bool :=
  (List.range 64).map fun i => ((bs.drop (4 * i)).take 4).any Option.isSome

/-- Whether two writes of one cycle fall on the same register (R175). -/
def Dst.collides (a b : Dst) : Bool :=
  match a, b with
  | .vec i x, .vec j y => i == j && ((lanesOf x).zip (lanesOf y)).any fun p => p.1 && p.2
  | .scalar i _, .scalar j _ => i == j
  | .address i _, .address j _ => i == j
  | .predicate i _, .predicate j _ => i == j
  | _, _ => false

namespace State

/-- Lanes of a vector register written from bytes, from lane i on (R171, R172). -/
def writeLanes (s : State) (n k : Nat) : (count i : Nat) → List (Option Byte) → State
  | 0, _, _ => s
  | c + 1, i, bs =>
    let part := bs.take 4
    let s1 :=
      if part.any Option.isSome then
        let old := leBytes 4 (s.lane n k i)
        s.wr .RC_V (leNat ((old.zip part).map fun p => p.2.getD p.1)) n k i
      else s
    s1.writeLanes n k c (i + 1) (bs.drop 4)

/-- One write made (R173). -/
def makeWrite (s : State) (n : Nat) : Dst → State
  | .vec k bs => s.writeLanes n k 64 0 bs
  | .scalar k v => s.wr .RC_S v n k
  | .address k v => s.wr .RC_A v n k
  | .predicate k v => s.wr .RC_P v n k
  | .release k v => s.setFld F.RC_SE_COUNT_REL (max (s.seRel n k) v) n k

/-- Whether a write of the list collides with another of the list (R175). -/
def clash (ws : List PendWrite) (w : PendWrite) (i : Nat) : Bool :=
  ws.zipIdx.any fun e => e.2 != i && w.dst.collides e.1.dst

/-- The core's cycle moves on by one: stores and writes due in it take effect; colliding writes are not made and the core
halts after issue (R166, R173, R175). -/
def tickCore (s : State) (n : Nat) : State :=
  let t := s.cycle n + 1
  let c := s.core n
  let ws := c.writes.filter fun w => w.due == t
  let st := c.stores.filter fun w => w.due == t
  let s1 := (s.setFld F.RC_CYCLE_CYCLE t n).setCore n
    { c with writes := c.writes.filter (fun w => w.due != t), stores := c.stores.filter (fun w => w.due != t) }
  let s2 := st.foldl (fun a w => a.writeSram n w.addr w.bytes) s1
  let s3 := ws.zipIdx.foldl (fun a e => if clash ws e.1 e.2 then a else a.makeWrite n e.1.dst) s2
  match (ws.zipIdx.filter fun e => clash ws e.1 e.2).getLast? with
  | some e => s3.halting n ⟨4, 0, 0x0B, e.1.slot, true, e.1.bundle⟩
  | none => s3

/-- The core's cycle moves on by `k`. -/
def runCycles (s : State) (n : Nat) : Nat → State
  | 0 => s
  | k + 1 => (s.tickCore n).runCycles n k

/-- The last cycle in which something issued takes effect. -/
def lastDue (c : CoreX) (t : Nat) : Nat :=
  max (c.writes.foldl (fun m w => max m w.due) t) (c.stores.foldl (fun m w => max m w.due) t)

/-- Every issued operation writes every destination at its cycle (R226). -/
def drainCore (s : State) (n : Nat) : State := s.runCycles n (lastDue (s.core n) (s.cycle n) - s.cycle n)

/-- Whether anything issued has still to take effect. -/
def inFlight (s : State) (n : Nat) : Bool := !(s.core n).writes.isEmpty || !(s.core n).stores.isEmpty

end State

/-- One operation of a fetched bundle. -/
structure Slotted where
  slot : Nat
  opcode : Nat
  w : Nat
  deriving DecidableEq, Repr

/-- The X bit of an opcode's format (R198). -/
def xBit (opcode : Nat) : Option Nat :=
  if 0x20 ≤ opcode ∧ opcode ≤ 0x24 then some 11
  else if opcode = 0x25 ∨ opcode = 0x26 then some 13
  else if opcode = 0x39 then some 20
  else if 0x30 ≤ opcode ∧ opcode ≤ 0x3D then some 14
  else none

/-- Whether an operation has its X bit set. -/
def Slotted.hasX (o : Slotted) : Bool :=
  match xBit o.opcode with
  | some b => bitOf o.w b
  | none => false

/-- A fetched bundle (R194): its operations in slot order, IDLE, EXT and length. -/
structure Bundle where
  ops : List Slotted
  idle : Nat
  ext : Nat
  len : Nat
  deriving DecidableEq, Repr

/-- The operations of the present slots, from address a on. -/
def fetchOps (s : State) (n mask : Nat) : (left slot a : Nat) → List Slotted
  | 0, _, _ => []
  | k + 1, slot, a =>
    if bitOf mask slot then
      let w := leNat (s.sramBytes n a 4)
      ⟨slot, bitsOf w 26 6, bitsOf w 0 26⟩ :: fetchOps s n mask k (slot + 1) (a + 4)
    else fetchOps s n mask k (slot + 1) a

/-- The bundle at an address (R194). -/
def fetchBundle (s : State) (n a : Nat) : Bundle :=
  let h := leNat (s.sramBytes n a 2)
  let ops := fetchOps s n (bitsOf h 0 4) 4 0 (a + 2)
  ⟨ops, bitsOf h 4 4, bitsOf h 8 8, 2 + 4 * ops.length⟩

/-- Whether the unit an operation needs is occupied (R203). -/
def State.unitBusy (s : State) (n u : Nat) : Bool :=
  let c := s.core n
  match u with
  | 1 => decide (s.cycle n < c.divFree)
  | 2 => decide (s.cycle n < c.phloxFree)
  | 3 => decide (s.cycle n < c.dotFree)
  | _ => false

/-- The first fault of one operation in the order of R228: REASON and INFO. `alone` says it is the only one of its bundle,
`used` lists the units earlier slots need. -/
def opFault (s : State) (n ext : Nat) (alone : Bool) (used : List Nat) (o : Slotted) : Option (Nat × Nat) :=
  match opOf o.opcode with
  | none => some (0x01, 0)
  | some d =>
    let i : OpIn := ⟨s, n, o.w, ext⟩
    if !d.slots.contains o.slot || (o.opcode == 0x2F && !alone) then some (0x02, 0)
    else
      let all := d.checks i ++ [(decide (d.unit ≠ 0) && (s.unitBusy n d.unit || used.contains d.unit), 0x08, 0)] ++ d.late i
      (all.find? (·.1)).map (·.2)

/-- The first fault of the operations of a bundle: slot, REASON, INFO. -/
def opsFault (s : State) (n ext : Nat) (alone : Bool) : (used : List Nat) → List Slotted → Option (Nat × Nat × Nat)
  | _, [] => none
  | used, o :: rest =>
    match opFault s n ext alone used o with
    | some r => some (o.slot, r)
    | none => opsFault s n ext alone (((opOf o.opcode).map (·.unit)).getD 0 :: used) rest

/-- The local address of the next bundle: above the code region when the last one ended at 0x0_FFFF (R195). -/
def State.pcAt (s : State) (n : Nat) : Nat := s.fld F.RC_PC_PC n + b2n (s.core n).pcOver * 0x10000

/-- The rules of a bundle on EXT (R196). -/
def extFault (ext : Nat) (ops : List Slotted) : Option (Nat × Nat × Nat) :=
  if 1 < ops.countP Slotted.hasX then some (0, 0x06, 0)
  else if ops.countP Slotted.hasX = 0 ∧ ext ≠ 0 then some (0, 0x03, 0)
  else none

/-- The fault of fetching a bundle (R195, R228): a byte above the code region, then an uncorrectable word. -/
def fetchFault (s : State) (n a len : Nat) : Option (Nat × Nat × Nat) :=
  if 0x10000 < a + len then some (0, 0x0A, 0x10000)
  else (s.badWord n a len).map fun w => (0, 0x0C, w)

/-- The first fault of a bundle in the order of R228. -/
def bundleFault (s : State) (n a : Nat) (b : Bundle) : Option (Nat × Nat × Nat) :=
  (fetchFault s n a b.len).or ((extFault b.ext b.ops).or (opsFault s n b.ext (b.ops.length == 1) [] b.ops))

/-- The operation that makes a bundle a drain point (R176). -/
def Bundle.drain (b : Bundle) : Option Slotted := b.ops.find? fun o => o.opcode == 0x25 || o.opcode == 0x2F

/-- The stream condition of a drain point (R184, R221). -/
def streamReady (s : State) (n ext : Nat) (o : Slotted) : Bool :=
  if o.opcode = 0x25 then
    let i : OpIn := ⟨s, n, o.w, ext⟩
    decide (i.tileCount ≤ s.seCount n i.k)
  else (List.range 4).all fun k => s.seDir n k == 0 || s.seState n k == 0 || s.seState n k == 2

namespace State

/-- A core begins or goes on waiting at a drain point (R176, R221). -/
def waitAt (s : State) (n : Nat) (o : Slotted) (onlyDrain : Bool) : State :=
  ((s.setFld F.RC_STATUS_STATE 4 n).setFld F.RC_STATUS_WAIT_SE (if o.opcode = 0x25 then bitsOf o.w 20 2 else 0) n).setFld
    F.RC_STATUS_WAIT_DRAIN (b2n onlyDrain) n

/-- A fault at issue (R188): a refused SSTART also puts its engine into FAULT (R181). -/
def issueFault (s : State) (n : Nat) (b : Bundle) (f : Nat × Nat × Nat) : State :=
  let s1 := s.halting n ⟨4, 0, f.2.1, f.1, false, f.2.2⟩
  if f.2.1 = 0x0D then
    match b.ops.find? fun o => o.slot == f.1 with
    | some o => sstartRefuse ⟨s, n, o.w, b.ext⟩ s1
    | none => s1
  else s1

/-- What RCn_STATUS says of a waiting drain point, as a core that does not wait shows it. -/
def clearWait (s : State) (n : Nat) : State := (s.setFld F.RC_STATUS_WAIT_SE 0 n).setFld F.RC_STATUS_WAIT_DRAIN 0 n

/-- The program of a core is over: the core becomes IDLE (R184, R185), and CTX and ENTRY name no program (log entry 28). -/
def leaveProgram (s : State) (n : Nat) : State :=
  let c := s.core n
  let idle : CoreX := { c with run := none, halting := none, stepping := false, skipBreak := false, ended := false,
                               pcOver := false, waitOp := none }
  ((((s.setCore n idle).setFld
    F.RC_STATUS_STATE 1 n).setFld F.RC_STATUS_CTX 0 n).setFld F.RC_STATUS_ENTRY 0 n).clearWait n

/-- END of the bundle at `a` issues: an inbound engine still ACTIVE is a stream fault (R181), otherwise the program is over
(R184). Under STEP the core halts first (R189), and RESUME leaves the program. -/
def endProgram (s : State) (n a : Nat) : State :=
  match (List.range 4).find? fun k => s.seDir n k == 0 && s.seState n k == 1 with
  | some k => s.seFault n k 8 3 a
  | none => if (s.core n).stepping then s.setCore n { s.core n with ended := true } else s.leaveProgram n

/-- The writes in flight from place `i` on belong to an operation of a slot. -/
def tagSlot (s : State) (n i slot : Nat) : State :=
  let c := s.core n
  s.setCore n { c with writes := c.writes.take i ++ (c.writes.drop i).map fun w => { w with slot := slot } }

/-- The effect of one operation of a bundle in its issue cycle. -/
def issueOp (s : State) (n ext : Nat) (o : Slotted) : State :=
  match opOf o.opcode with
  | some d => (d.effect ⟨s, n, o.w, ext⟩).tagSlot n (s.core n).writes.length o.slot
  | none => s

/-- Every operation of a bundle issues in this cycle; the cycles up to the next bundle pass (R174, R197, R225). -/
def issueOps (s : State) (n : Nat) (b : Bundle) : State :=
  let a := s.fld F.RC_PC_PC n
  let taken := b.ops.findSome? fun o => branchOf o.opcode ⟨s, n, o.w, b.ext⟩
  let s1 := b.ops.foldl (fun st o => st.issueOp n b.ext o) s
  let c := s1.core n
  let past := taken.isNone && decide (0x10000 ≤ a + b.len)
  let s2 := ((s1.setCore n { c with skipBreak := false, pcOver := past }).setFld F.RC_STATUS_STATE 3 n).clearWait n
  let ends := b.ops.any fun o => o.opcode == 0x2F
  let s3 := s2.setFld F.RC_PC_PC (taken.getD (a + b.len)) n
  let s4 := s3.runCycles n (1 + b.idle + b2n taken.isSome)
  if ends then s4.endProgram n a else s4

/-- A bundle is fetched at PC and issued, or faults, or waits at its drain point (R176, R188, R194, R228). -/
def issueBundle (s : State) (n : Nat) : State :=
  let a := s.pcAt n
  let b := fetchBundle s n a
  let t := if a + b.len ≤ 0x10000 then s.noteUpsets n a b.len else s
  match fetchFault s n a b.len, b.drain with
  | some f, _ => t.issueFault n b f
  | none, some o =>
    if s.inFlight n then s.waitAt n o (streamReady s n b.ext o)
    else
      match bundleFault s n a b with
      | some f => t.issueFault n b f
      | none => if streamReady s n b.ext o then t.issueOps n b else s.waitAt n o false
  | none, none =>
    match bundleFault s n a b with
    | some f => t.issueFault n b f
    | none => t.issueOps n b

/-- The faults of an operation that is a bundle of its own (R196, R228): slot, REASON, INFO. -/
def rowFault (s : State) (n ext : Nat) (o : Slotted) : Option (Nat × Nat × Nat) :=
  (extFault ext [o]).or ((opFault s n ext true [] o).map fun f => (o.slot, f))

/-- A drain point that is a bundle of its own: while earlier operations are in flight it waits; then it faults, waits for its
stream condition, or issues (R176, R221, R223). -/
def drainRow (s : State) (n : Nat) (r : RowWait) : State :=
  let o : Slotted := ⟨r.slot, r.opcode, r.w⟩
  let held := s.setCore n { s.core n with waitOp := some r }
  let gone := s.setCore n { s.core n with waitOp := none }
  if s.inFlight n then held.waitAt n o (streamReady s n r.ext o)
  else
    match rowFault s n r.ext o with
    | some f => gone.issueFault n ⟨[o], 0, r.ext, 6⟩ f
    | none =>
      if streamReady s n r.ext o then
        let t := (gone.setFld F.RC_STATUS_STATE 3 n).clearWait n
        if r.opcode = 0x2F then t.endProgram n (s.fld F.RC_PC_PC n) else t
      else held.waitAt n o false

/-- What the core issues next: a drain point that a row of its own issued and that still waits (R221), or the bundle at PC. -/
def issueNext (s : State) (n : Nat) : State :=
  match (s.core n).waitOp with
  | some r => s.drainRow n r
  | none => s.issueBundle n

/-- A halt under a cause is recorded: the report, HALTED, and the raise of a fault halt (R187, R188). -/
def enterHalt (s : State) (n : Nat) (h : HaltRep) : State :=
  let v := s.fld F.RC_PC_PC n + h.cause * 2 ^ 16 + h.reason * 2 ^ 20 + h.slot * 2 ^ 28 + b2n h.after * 2 ^ 30 + 2 ^ 31
    + h.info % 2 ^ 32 * 2 ^ 32
  let c := s.core n
  let s1 := (((s.setCore n { c with halting := none, stepping := false }).wr .RC_HALT v n).setFld F.RC_STATUS_STATE 5 n).clearWait n
  if h.cause = 4 then s1.report 0x18 n (leBytes 16 v) else s1

/-- A certain halt is completed: every issued operation writes, then the core is HALTED (R226). -/
def completeHalt (s : State) (n : Nat) : State :=
  if (s.core n).halting.isNone then s
  else
    let s1 := s.drainCore n
    match (s1.core n).halting with
    | some h => s1.enterHalt n h
    | none => s1

/-- Issued operations write; a fault that is certain, or that one of them meets, halts the core first, and the fault's report
stands (R226, R227). -/
def settleCore (s : State) (n : Nat) : State :=
  let s1 := s.drainCore n
  match (s1.core n).halting with
  | some h => if h.cause = 4 then s1.enterHalt n h else s1
  | none => s1

/-- A core halts with CAUSE SLEEP, and keeps what it halted from (R193); a fault keeps its halt instead (R227). -/
def sleepHalt (s : State) (n : Nat) (forced : Bool) : State :=
  let st := s.coreState n
  let c := s.core n
  let s1 := s.settleCore n
  if s1.coreState n = 5 then s1
  else
    let s2 := (s1.setFld F.RC_STATUS_FORCED (b2n forced) n).enterHalt n ⟨5, 0, 0, 0, false, 0⟩
    s2.setCore n { s2.core n with slept := st, sleptStep := c.stepping,
                                  sleptWait := s.fld F.RC_STATUS_WAIT_SE n + 4 * s.fld F.RC_STATUS_WAIT_DRAIN n }

/-- The engines of a core's program stop; their counts stay readable (R185). -/
def haltEngines (s : State) (n : Nat) : State :=
  (List.range 4).foldl (fun a k => (a.setFld F.RC_SE_STAT_STATE 0 n k).setFld F.RC_SE_STAT_FAULT_RSN 0 n k) s

/-- The four engines of a core stop in IDLE with their counts at 0 (R183). -/
def stopEngines (s : State) (n : Nat) : State :=
  (List.range 4).foldl (fun a k => (a.wr .RC_SE_STAT 0 n k).wr .RC_SE_COUNT 0 n k) s

/-- The register file of a core at 0, p0 aside (R183, R193). -/
def clearRegFile (s : State) (n : Nat) : State :=
  let b := 0x2000000 + n * 0x10000
  { s with regs := s.regs.filter fun e => !(decide (b + 0x1000 ≤ e.1) && decide (e.1 < b + 0x10000)) }

/-- Valid binding entries of a context, as (core, entry), in ascending order (R182). -/
def bindingsOf (s : State) (c : Nat) : List (Nat × Nat) :=
  s.regs.filterMap fun e =>
    if e.1 < 0x2000000 ∨ 0x4000000 ≤ e.1 then none
    else
      let n := (e.1 - 0x2000000) / 0x10000
      let o := (e.1 - 0x2000000) % 0x10000
      if 0x100 ≤ o ∧ o < 0x180 then
        let k := (o - 0x100) / 8
        if s.flag F.RC_BIND_VALID n k && s.fld F.RC_BIND_CTX n k == c then some (n, k) else none
      else none

/-- A launch begins: a start pends for every valid binding entry of its context (R183). -/
def markStarts (s : State) (c tick launch : Nat) : State :=
  (s.bindingsOf c).foldl (fun a b =>
    let x := a.core b.1
    (a.setCore b.1 { x with starts := x.starts ++ [⟨b.2, tick, launch⟩] }).setFld F.RC_PEND_PENDING
      (Nat.lor (a.fld F.RC_PEND_PENDING b.1) (2 ^ b.2)) b.1) s

/-- The earliest pending start, ties to the lowest entry (R183). -/
def firstStart (l : List PendStart) : Option PendStart :=
  l.foldl (fun m p =>
    match m with
    | none => some p
    | some q => if p.tick < q.tick ∨ (p.tick = q.tick ∧ p.entry < q.entry) then some p else some q) none

/-- The earliest pending start is taken: registers set, STARTING for 4 cycles (R183). -/
def takeStart (s : State) (n : Nat) (p : PendStart) : State :=
  let x := s.core n
  let e := p.entry
  let c := s.fld F.RC_BIND_CTX n e
  let ep := s.epoch c
  let pt := s.ctxPart c
  let sg := s.fld F.RC_BIND_STAGE n e
  let base := s.fld F.RC_BIND_WIN_BASE n e * 256
  let left := x.starts.filter fun q => !(q.entry == e && q.tick == p.tick)
  let s1 := (s.clearRegFile n).stopEngines n
  let s2 := ((((s1.wr .RC_S (c + ep * 2 ^ 12 + pt * 2 ^ 16 + sg * 2 ^ 20) n 0).wr .RC_S p.launch n 1).wr .RC_S
    (0x10000000 + n * 0x80000 + base) n 2).wr .RC_S (s.fld F.RC_BIND_WIN_SIZE n e * 256) n 3).wr .RC_A base n 0
  let s3 := s2.setCore n { writes := [], stores := [], divFree := 0, phloxFree := 0, dotFree := 0,
                           starts := left, run := some ⟨c, ep, pt, p.launch, sg, e⟩ }
  let s4 := ((((s3.setFld F.RC_STATUS_STATE 2 n).setFld F.RC_STATUS_CTX c n).setFld F.RC_STATUS_ENTRY e n).setFld F.RC_PC_PC
    (s.fld F.RC_BIND_ENTRY n e) n).setFld F.RC_CYCLE_CYCLE (s.cycle n + 4) n
  if left.any fun q => q.entry == e then s4
  else s4.setFld F.RC_PEND_PENDING (bitsOf (s.fld F.RC_PEND_PENDING n) 0 16 - 2 ^ e * b2n (bitOf (s.fld F.RC_PEND_PENDING n) e)) n

/-- A core leaves the program of an aborted context: issued operations complete, engines stop (R185). -/
def abortCore (s : State) (n : Nat) : State := ((s.drainCore n).haltEngines n).leaveProgram n

/-- The context's pending starts are removed from a core. -/
def dropStarts (s : State) (n c : Nat) : State :=
  let x := s.core n
  let gone := (x.starts.filter fun p => s.fld F.RC_BIND_CTX n p.entry == c).map (·.entry)
  let m := gone.eraseDups.foldl (fun a e => a - 2 ^ e * b2n (bitOf a e)) (s.fld F.RC_PEND_PENDING n)
  (s.setCore n { x with starts := x.starts.filter fun p => s.fld F.RC_BIND_CTX n p.entry != c }).setFld F.RC_PEND_PENDING m n

/-- Every core leaves the program of a context and forgets its pending starts (R185); a core in a CONTAIN halt stays
halted (R189). -/
def abortCores (s : State) (c : Nat) : State :=
  (s.cores.map (·.1)).foldl (fun a n =>
    let b := a.dropStarts n c
    if b.runCtx n == some c then
      if b.coreState n = 5 ∧ b.fld F.RC_HALT_CAUSE n = 6 then
        let x := b.core n
        (b.haltEngines n).setCore n { x with run := none }
      else b.abortCore n
    else b) s

end State

end Sys2Proof.Machine
end

