-- ==== Sys2Proof/Machine/Sha3.lean ====
section
/-! DEFINITION. SHA3-256, which the manual names for its digests (R42, R346): the sponge of rate 136 bytes over the permutation
of 24 rounds, its constants made by the generators that define them. A state is the list of its 25 lanes, lane (x, y) at
x + 5y. -/

namespace Sys2Proof.Machine

/-- A lane of 64 bits with every bit moved up by n places, round the end. -/
def rotl64 (v n : Nat) : Nat :=
  let k := 64 - n % 64
  v % 2 ^ k * 2 ^ (n % 64) + v / 2 ^ k

/-- A step of the 8-bit register that generates the constants of iota. -/
def iotaShift (r : Nat) : Nat := if r < 128 then 2 * r else Nat.xor (2 * r) 0x171

/-- The constant of a round whose generator stands at r, from its bit `j` on, and the generator after it: the register's seven
next outputs go to bits 2^j − 1 of the lane. -/
def iotaConst : (left j r : Nat) → Nat × Nat
  | 0, _, r => (0, r)
  | k + 1, j, r =>
    let q := iotaConst k (j + 1) (iotaShift r)
    (r % 2 * 2 ^ (2 ^ j - 1) + q.1, q.2)

/-- The walk of rho from a lane, as pairs of lane and rotation: the t-th lane of the walk turns by the t-th triangular number. -/
def rhoWalk : (left t x y : Nat) → List (Nat × Nat)
  | 0, _, _, _ => []
  | k + 1, t, x, y => (x + 5 * y, (t + 1) * (t + 2) / 2 % 64) :: rhoWalk k (t + 1) y ((2 * x + 3 * y) % 5)

/-- The rotation of each lane: that of the walk from lane (1, 0), and none of lane (0, 0). -/
def rhoTurns : List Nat := (rhoWalk 24 0 1 0).foldl (fun l e => l.set e.1 e.2) (List.replicate 25 0)

/-- The parities of a state's five columns. -/
def columns (a : List Nat) : List Nat :=
  (List.range 5).map fun x => (List.range 5).foldl (fun p y => Nat.xor p (a.getD (x + 5 * y) 0)) 0

/-- Theta: each lane gains the parity of the column before it and of the turned column after it. -/
def theta (a : List Nat) : List Nat :=
  let p := columns a
  a.zipIdx.map fun e => Nat.xor e.1 (Nat.xor (p.getD ((e.2 + 4) % 5) 0) (rotl64 (p.getD ((e.2 + 1) % 5) 0) 1))

/-- Rho and pi: the lane that comes to place (x, y) is that of (x + 3y, x), turned. -/
def rhoPi (turns a : List Nat) : List Nat :=
  (List.range 25).map fun i =>
    let src := (i % 5 + 3 * (i / 5)) % 5 + 5 * (i % 5)
    rotl64 (a.getD src 0) (turns.getD src 0)

/-- Chi, along each row. -/
def chi (a : List Nat) : List Nat :=
  let at_ (row x : Nat) : Nat := a.getD (5 * row + x % 5) 0
  a.zipIdx.map fun e =>
    let row := e.2 / 5
    Nat.xor e.1 (at_ row (e.2 + 2) - Nat.land (at_ row (e.2 + 1)) (at_ row (e.2 + 2)))

/-- Rounds of the permutation, from a generator state. -/
def rounds (turns : List Nat) : (left r : Nat) → List Nat → List Nat
  | 0, _, a => a
  | k + 1, r, a =>
    let c := iotaConst 7 0 r
    rounds turns k c.2 ((chi (rhoPi turns (theta a))).modify 0 (Nat.xor c.1))

/-- The permutation. -/
def permute (a : List Nat) : List Nat := rounds rhoTurns 24 1 a

/-- A block of 17 lanes taken in. -/
def takeBlock (a : List Nat) (block : Bytes) : List Nat :=
  permute (a.zipIdx.map fun e => if e.2 < 17 then Nat.xor e.1 (leAt block (8 * e.2) 8) else e.1)

/-- A message with its suffix bits and padding, which end a block (FIPS 202). -/
def padded (m : Bytes) : Bytes :=
  let room := 135 - m.length % 136
  if room = 0 then m ++ [0x86#8] else m ++ (0x06#8 :: List.replicate (room - 1) 0#8) ++ [0x80#8]

/-- The state after `n` blocks of a message. -/
def takeBlocks : (n : Nat) → List Nat → Bytes → List Nat
  | 0, a, _ => a
  | n + 1, a, m => takeBlocks n (takeBlock a (m.take 136)) (m.drop 136)

/-- SHA3-256. -/
def sha3 (m : Bytes) : Bytes :=
  ((takeBlocks (m.length / 136 + 1) (List.replicate 25 0) (padded m)).take 4).flatMap (leBytes 8)

end Sys2Proof.Machine
end

