-- ==== Sys2Proof/Machine/Launch.lean ====
section
/-! DEFINITION. Launches: beginning, completion, abort, output digests and their record (R44 to R47, R114 to R123, R52). -/

namespace Sys2Proof.Machine

/-- Adjacent nodes paired from the left (R47). -/
def pairUp : List Bytes → List Bytes
  | a :: b :: r => sha3 (0x01#8 :: (a ++ b)) :: pairUp r
  | l => l

/-- The root of at least one leaf (R47). -/
def merkle : (fuel : Nat) → List Bytes → Bytes
  | 0, l => l.headD []
  | f + 1, l => if l.length ≤ 1 then l.headD [] else merkle f (pairUp l)

/-- The leaf of a result frame (R47). -/
def leafOf (dest tile : Nat) (payload : Bytes) : Bytes :=
  sha3 (0x00#8 :: (beBytes 3 dest ++ beBytes 3 tile ++ beBytes 2 payload.length ++ payload))

/-- A leaf put after those of its tile and below. -/
def insertLeaf (l : Leaf) : List Leaf → List Leaf
  | [] => [l]
  | m :: r => if l.tile < m.tile then l :: m :: r else m :: insertLeaf l r

/-- The root over one destination's leaves, one for each result frame, in ascending tile (R47). -/
def destRoot (ls : List Leaf) : Bytes := merkle 24 ((ls.foldl (fun m l => insertLeaf l m) []).map (·.digest))

/-- The root of a slice over its destinations, ascending. -/
def sliceRoot (ls : List Leaf) : Bytes :=
  let ds := (ls.foldl (fun m l => insertKey m l.dest ()) []).map (·.1)
  sha3 (0x02#8 :: ds.flatMap fun d => beBytes 3 d ++ destRoot (ls.filter fun l => l.dest == d))

/-- The output digest of a launch (R47). -/
def outputDigest (ls : List Leaf) : Bytes :=
  let ns := (List.range 16).filter fun n => ls.any fun l => l.slice == n
  sha3 (0x03#8 :: (beBytes 2 (ns.foldl (fun m n => m + 2 ^ n) 0)
    ++ ns.flatMap fun n => sliceRoot (ls.filter fun l => l.slice == n)))

/-- The run-time state of a launch is over; what belongs to the binding stays, with the route words of later launches (R126) and
what has been sent of them (R157). -/
def CtxRun.ended (x : CtxRun) (now launch : Nat) : CtxRun :=
  { x with active := false, endedAt := some now,
           nextOut := [], results := [], empty := [], sent7 := x.sent7.filter (fun e => decide (launch < e.1 / 256)),
           leaves := [], turn := [], ends := [], given := [], tokens := [],
           words := x.words.filter (fun w => decide (launch < w.launch)),
           slots := x.slots.filter fun e => decide (launch < e.1 / 32) }

namespace State

/-- The Marigold MODE byte of a context's entries (R41). -/
def mgModeByte (s : State) (c : Nat) : Nat :=
  let p := s.ctxPart c
  s.fld F.SCH_CTX_CFG_ARITH c + 2 * s.fld F.SCH_CTX_CFG_TRANSPORT c + 4 * s.fld F.SCH_CTX_CFG_ROUND c
    + 16 * b2n (s.fld F.GLB_MG_MODE_MODE p == 1) + 32 * b2n ((s.image.partOf p).encrypted != [])
    + 64 * s.fld F.GLB_MG_MODE_REPLAY_REQ p

/-- Launches of a partition in flight (R52). -/
def inFlightOf (s : State) (p : Nat) : Nat := (s.ctxs.filter fun e => e.2.active && s.ctxPart e.1 == p).length

/-- Accepted checkpoints whose entries are not appended. -/
def openChecks (s : State) (p : Nat) : Nat := ((s.mgOf p).checkpoints.filter fun k => k.entry.isNone).length

/-- Free entries of a partition's Marigold queue (R50). -/
def mgFree (s : State) (p : Nat) : Nat := 4160 - (s.mgOf p).queue.length

/-- Whether the reserve of R52 admits one more launch. -/
def mgAdmits (s : State) (p : Nat) : Bool :=
  s.fld F.GLB_MG_MODE_MODE p != 2 || decide (s.inFlightOf p + s.openChecks p + 2 < s.mgFree p)

/-- STALLED reads 1 while launches or entries are held (R52, R488). -/
def showStall (s : State) (p : Nat) : State :=
  s.setFld F.GLB_MG_MODE_STALLED
    (b2n ((s.mgOf p).held != [] || s.ctxs.any fun e => e.2.heldBack && s.ctxPart e.1 == p)) p

/-- Tiles of ranges of the launch that carry nothing (R487). -/
def emptyTiles (x : CtxRun) : Nat := x.empty.foldl (fun a e => a + e.2) 0

/-- Whether child k of the children a context has at this Y5 is present (R112). -/
def childPresent (s : State) (c k : Nat) : Bool := s.present c (32 + k)

/-- The present children of a tree, as coordinates. -/
def presentKids (s : State) (c : Nat) (t : Tree) : List Nat :=
  (t.children.zipIdx.filter fun k => s.childPresent c k.2).map fun k => k.1.coord

/-- Coordinates of the parent Y5 of a tree: those its port expects (R86). -/
def parentCoord (s : State) (t : Tree) : Nat :=
  match s.portAt t.parent with
  | some (n, j) => s.fld F.SLC_PORT_CFG_PEER_ADDR n j / 32
  | none => 0

/-- Launches of the binding that have begun at this Y5. -/
def begun (s : State) (c : Nat) : Nat := s.lcount c + b2n (s.ctx c).active

/-- The context paired with a MOE_DISPATCH or MOE_COMBINE context (R125, R126). -/
def partner (s : State) (c : Nat) : Option Nat :=
  match (s.image.ctxX c).pair with
  | some d => some d
  | none => (s.image.device.contexts.map (·.1)).find? fun d => (s.image.ctxX d).pair == some c

/-- Whether the dispatch launch whose tokens a combine launch returns is complete here (R126); no other kind waits for one. -/
def pairDone (s : State) (c launch : Nat) : Bool :=
  if s.kind c = 9 then
    match s.partner c with
    | some d => decide (launch < s.lcount d)
    | none => true
  else true

/-- Result tiles due to the local member of rank r in the launch (R121 to R123, R487). -/
def dueTiles (s : State) (c r : Nat) : Nat :=
  let d := s.due c r
  let x := s.ctx c
  match s.kind c with
  | 2 => (d.2 - d.1) - emptyTiles x
  | 4 => if x.empty ≠ [] then 0 else d.2 - d.1
  | 6 => s.fld F.SCH_CTX_GROUP_MEMBERS c * s.tb c
  | 9 => (x.words.filter fun w => w.launch == s.lcount c && w.owner == r &&
      w.experts.any fun e => ((s.image.expertsOf c)[e]?).isSome).length
  | _ => d.2 - d.1

/-- Whether a local member has had everything due to it in the launch. -/
def memberServed (s : State) (c e r : Nat) : Bool :=
  if s.kind c = 8 then decide (s.fld F.SCH_CTX_GROUP_MEMBERS c ≤ readKey 0 (s.ctx c).ends e)
  else s.pairDone c (s.lcount c) && decide (s.dueTiles c r ≤ readKey 0 (s.ctx c).results e)

/-- Whether a result is due to a local member in the launch (R122). -/
def resultDue (s : State) (c r : Nat) : Bool := s.kind c == 8 || decide (0 < s.dueTiles c r)

/-- What a local member has sent of the binding (R129). -/
def inPos (s : State) (c e : Nat) : InPos :=
  (lookupKey (s.ctx c).inAt e).getD { next := (s.sends c ((s.localRank c e).getD 0)).1 }

/-- One past the last tile a local member sends in a launch (R121): a MOE_COMBINE member sends a tile for each slot of the
tokens it was given, known once the dispatch launch is complete (R126). -/
def sendEnd (s : State) (c e launch : Nat) : Nat :=
  let w := s.sends c ((s.localRank c e).getD 0)
  if s.kind c = 9 ∧ s.pairDone c launch = true then min w.2 (readKey 0 (s.ctx c).slots (launch * 32 + e)) else w.2

/-- Whether a local member has sent all its tiles of a launch. -/
def sentAll (s : State) (c e launch : Nat) : Bool :=
  let p := s.inPos c e
  if launch < p.launch then true
  else if p.launch = launch then p.last || decide (s.sendEnd c e launch ≤ p.next)
  else decide (s.sendEnd c e launch ≤ (s.sends c ((s.localRank c e).getD 0)).1)

/-- The launch and the tile of the next frame of a local member (R129, R130). -/
def nextFrame (s : State) (c e : Nat) : Nat × Nat :=
  let p := s.inPos c e
  if s.sentAll c e p.launch then
    (max (p.launch + 1) (readKey 0 (s.ctx c).relAt e), (s.sends c ((s.localRank c e).getD 0)).1)
  else (p.launch, p.next)

/-- Tiles of the trees of a context that satisfy a condition. -/
def treeTiles (s : State) (c : Nat) (p : Tree → Bool) : Nat :=
  ((s.image.treesOf c).filter p).foldl (fun a t => a + (t.last + 1 - t.first)) 0

/-- Tiles of one launch that climb from a child, or fall to it. -/
def kidTiles (s : State) (c k : Nat) : Nat := s.treeTiles c fun t => (s.presentKids c t).contains k

/-- Tiles of one launch that climb to a parent, or fall from it. -/
def parentTiles (s : State) (c k : Nat) : Nat := s.treeTiles c fun t => t.parent != 0xFF && s.parentCoord t == k

/-- The child toward the destination of a REDUCE, where it is present (R487). -/
def towardKid (s : State) (c : Nat) : Option Nat :=
  (s.image.ctxX c).toward.filter fun k => (s.image.treesOf c).any fun t => (s.presentKids c t).contains k

/-- Whether tiles of a launch fall to a child (R487). -/
def fallsTo (s : State) (c k : Nat) : Bool :=
  [0, 2, 4, 5, 7].contains (s.kind c) || (s.kind c == 3 && s.towardKid c == some k)

/-- Whether tiles of a launch fall from the parents of this Y5 (R487). -/
def fallsHere (s : State) (c : Nat) : Bool :=
  [0, 2, 4, 5, 7].contains (s.kind c)
    || (s.kind c == 3 && ((s.towardKid c).isSome
      || (s.presentMembers c).any fun m => m.2 == (s.image.ctxX c).dstRank))

/-- A collective frame of a context's launches up to one that this Y5 consumes or makes and has not committed (R44). -/
def underWay (c launch : Nat) (k : Copy) : Bool :=
  Frame.collective k.frame.typ && k.frame.ctx == c && [Phase.asking, .granted, .copying, .held].contains k.phase
    && (match k.launch with
      | some l => decide (l ≤ launch)
      | none => false)

/-- Whether every frame this Y5 sends or consumes under its roles in the launch in progress has been committed (R44): those of
its trees, those of its local members (log entry 84) and those made of them. -/
def rolesDone (s : State) (c : Nat) : Bool :=
  let x := s.ctx c
  let l := s.lcount c
  let ts := s.image.treesOf c
  let kids := (ts.flatMap fun t => s.presentKids c t).eraseDups
  let parents := ((ts.filter fun t => t.parent != 0xFF).map s.parentCoord).eraseDups
  let climbs := [0, 1, 3, 5, 7].contains (s.kind c)
  let exact := climbs && s.kind c != 5 && s.flag F.SCH_CTX_CFG_ARITH c && s.fld F.SCH_CTX_CFG_OP c == 0
  let met (m : List (Nat × Nat)) (key n : Nat) : Bool := decide ((l + 1) * n ≤ readKey 0 m key)
  (!climbs || parents.all fun k => met x.sent (k + 4096) (s.parentTiles c k)
      && (!exact || (met x.sent (k + 12288) (s.parentTiles c k) && met x.got (k + 12288) (s.parentTiles c k))))
    && (!climbs || kids.all fun k => met x.got k (s.kidTiles c k)
      && (!exact || (met x.got (k + 8192) (s.kidTiles c k) && met x.sent (k + 8192) (s.kidTiles c k))))
    && (kids.all fun k => !s.fallsTo c k || met x.sent k (s.kidTiles c k))
    && (!s.fallsHere c || parents.all fun k => met x.got (k + 4096) (s.parentTiles c k))
    && ((s.presentMembers c).all fun m => s.sentAll c m.1 l)
    && !s.copies.any (underWay c l)

/-- Whether the launch in progress is complete at this Y5 (R44). -/
def launchDone (s : State) (c : Nat) : Bool :=
  let ms := (s.presentMembers c).filter fun m => s.resultDue c m.2
  s.pairDone c (s.lcount c) && (if ms.isEmpty then s.rolesDone c else ms.all fun m => s.memberServed c m.1 m.2)

/-- A small class 6 frame of a context (R331, R332). -/
def ctxFrame (s : State) (c typ dest : Nat) (payload : Bytes) : Frame :=
  { typ := typ, cls := 6, part := s.ctxPart c, dest := dest, ctx := c, epoch := s.epoch c, payload := payload }

/-- A launch that ended is recorded for the window's end (R41, R44), unless its partition keeps no record. -/
def record (s : State) (c status : Nat) : State :=
  let p := s.ctxPart c
  if s.fld F.GLB_MG_MODE_MODE p = 0 then s
  else
    let x := s.ctx c
    let m := s.mgOf p
    let slipped := 8 * s.fld F.SCH_CTX_STATUS_SLIPPED c
    let f : Finished :=
      { ctx := c, epoch := s.epoch c, group := s.fld F.SCH_CTX_GROUP_GROUP c, mode := s.mgModeByte c, launch := s.lcount c,
        status := status + slipped, began := x.began, digest := outputDigest x.leaves }
    s.setMg p { m with finished := m.finished ++ [f] }

/-- An abort lost to the completion of a context's last recorded launch: STATUS bit 1 of its entry (R41, R119). -/
def recordIgnored (s : State) (c : Nat) : State :=
  let m := s.mgOf (s.ctxPart c)
  let r := m.finished.reverse
  match r.findIdx? (fun f => f.ctx == c) with
  | some i =>
    let f := r[i]!
    let g := if bitOf f.status 0 && !bitOf f.status 1 then { f with status := f.status + 2 } else f
    s.setMg (s.ctxPart c) { m with finished := (r.set i g).reverse }
  | none => s

/-- A local member for which the launch in progress is over may send tiles of the next (R130). -/
def freeMember (s : State) (c e launch : Nat) : State :=
  let x := s.ctx c
  s.setCtx c { x with relAt := writeKey 0 x.relAt e (max (launch + 1) (readKey 0 x.relAt e)) }

/-- The launch in progress is over for the members that have had everything due to them (R130). -/
def serveMembers (s : State) (c : Nat) : State :=
  if (s.ctx c).active then
    ((s.presentMembers c).filter fun m => s.resultDue c m.2 && s.memberServed c m.1 m.2).foldl
      (fun a m => a.freeMember c m.1 (s.lcount c)) s
  else s

/-- A launch completes at this Y5; a frame that put a stream engine in FAULT leaves the pool (R44, R114, R116, R122, R180). -/
def completeLaunch (s : State) (c : Nat) : State :=
  let x := s.ctx c
  let done := (s.presentMembers c).filter fun m => !s.resultDue c m.2
  let s1 := done.foldl (fun a m =>
    a.originate (s.sliceOf (s.fld F.SLC_EDGE_PORT 0 m.1))
      (s.ctxFrame c Frame.DONE (s.ownAddr + m.1) (leBytes 6 (s.lcount c) ++ leBytes 2 0))) s
  let s2 := (s1.freeWhere fun k => k.faulty && k.frame.ctx == c).record c 1
  let s3 := (s2.setCtx c (x.ended s.now (s.lcount c))).setFld F.SCH_CTX_LAUNCH_LCOUNT (s.lcount c + 1) c
  let s4 := if s.fld F.SCH_CTX_STATUS_LEFT c = 0 then
      (s3.setFld F.SCH_CTX_STATUS_STATE 5 c).setFld F.SCH_CTX_STATUS_COMPLETED 1 c
    else s3
  s4.showStall (s.ctxPart c)

/-- A launch in progress completes once it is done. -/
def checkOne (s : State) (c : Nat) : State :=
  if (s.ctx c).active && s.ctxState c == 4 && s.launchDone c then s.completeLaunch c else s

/-- A launch in progress completes once it is done; with a dispatch launch the combine launch may be done that returns its
tokens (R126). -/
def checkDone (s : State) (c : Nat) : State :=
  let t := s.checkOne c
  if s.kind c = 8 ∧ s.lcount c < t.lcount c then
    match s.partner c with
    | some d => (t.serveMembers d).checkOne d
    | none => t
  else t

/-- The state of an aborted context (R116). -/
def toAborted (s : State) (c rsn : Nat) : State :=
  ((((s.setFld F.SCH_CTX_STATUS_STATE 6 c).setFld F.SCH_CTX_STATUS_ABORTED 1 c).setFld F.SCH_CTX_STATUS_ABORT_RSN rsn c).setFld
    F.SCH_CTX_STATUS_LEFT 0 c).setFld F.SCH_CTX_STATUS_COMPLETED 0 c

/-- Copies of a context's own frames that are not committed to an output port (R119); one that only passes through is none of
the launch's. -/
def uncommitted (c : Nat) (k : Copy) : Bool :=
  Frame.collective k.frame.typ && k.frame.ctx == c && k.launch.isSome
    && [Phase.asking, .granted, .copying, .held, .inCore].contains k.phase

/-- The slice from which a frame to a neighbour Y5 of a context's trees is routed: that of its port. -/
def towardSlice (s : State) (c k : Nat) : Nat :=
  let ts := s.image.treesOf c
  match ts.find? fun t => t.parent != 0xFF && s.parentCoord t == k with
  | some t => s.sliceOf t.parent
  | none => s.sliceOf (((ts.flatMap (·.children)).find? fun h => h.coord == k).map (·.port) |>.getD 0)

/-- Abort frames to the parents, the present children and the present local members, but not toward the Y5 that sent one
(R119). None leaves in the safe state (R412). -/
def sendAborts (s : State) (c rsn : Nat) (except : Option Nat) : State :=
  if s.safe then s
  else
    let body := leBytes 6 (s.lcount c) ++ leBytes 1 rsn ++ leBytes 1 0
    let ts := s.image.treesOf c
    let ups := (ts.filter fun t => t.parent != 0xFF).map s.parentCoord
    let far := ((ups ++ ts.flatMap fun t => s.presentKids c t).eraseDups).filter fun k => some k != except
    let s1 := far.foldl (fun a k => a.originate (s.towardSlice c k) (s.ctxFrame c Frame.ABORT_Y5 (k * 32) body)) s
    (s.presentMembers c).foldl (fun a m =>
      a.originate (s.sliceOf (s.fld F.SLC_EDGE_PORT 0 m.1)) (s.ctxFrame c Frame.ABORT (s.ownAddr + m.1) body)) s1

/-- A port's slot no longer waits for a frame; the slice runs on when no slot of it waits (R160). -/
def endWaiting (s : State) (x : Nat) : State :=
  let n := s.sliceOf x
  let s1 := s.setPort x { s.port x with waiting := none }
  if (s1.slicePorts n).any fun p => (s1.port p.1).waiting.isSome then s1 else s1.setFld F.SCH_LAG_PAUSED 0 n

/-- The context of a slot entry of a port (R155). -/
def slotCtx (s : State) (x e : Nat) : Nat := bitsOf (s.rd .SCH_SLOT x e) 32 12

/-- A context pauses no slot clock any more (R119, R157). -/
def dropPauses (s : State) (c : Nat) : State :=
  (s.ports.filter fun e => match e.2.waiting with
    | some w => s.slotCtx e.1 w.entry == c
    | none => false).foldl (fun a e => a.endWaiting e.1) s

/-- What an aborted context has not committed is discarded, with its partial sums; it pauses nothing (R116, R119). -/
def discard (s : State) (c : Nat) : State := ((s.freeWhere (uncommitted c)).abortCores c).dropPauses c

/-- An abort reaches a context (R119). In Running its outcome is decided at the end of the tick's data path (R357); a context that
completed in this tick was Running when the abort came. -/
def abortCtx (s : State) (c rsn : Nat) (except : Option Nat := none) : State :=
  let x := s.ctx c
  match s.ctxState c with
  | 3 => (((s.toAborted c rsn).setCtx c { x with deferred := false, heldBack := false }).discard c).showStall (s.ctxPart c)
  | 4 => if s.aborts.any fun a => a.ctx == c then s else { s with aborts := s.aborts ++ [⟨c, rsn, except⟩] }
  | 5 => if x.endedAt = some s.now then (s.recordIgnored c).setFld F.SCH_CTX_STATUS_ABORT_IGNORED 1 c else s
  | _ => s

/-- The outcome of an abort of a Running context: completion wins if the launch is complete by the end of the tick (R119). -/
def decideAbort (s : State) (a : AbortX) : State :=
  let c := a.ctx
  let t := s.checkDone c
  let x := t.ctx c
  let done := x.endedAt = some t.now
  match t.ctxState c with
  | 4 =>
    if x.active then
      let s1 := (((t.toAborted c a.rsn).record c 4).discard c).sendAborts c a.rsn a.except
      ((s1.setCtx c { x.ended t.now (t.lcount c) with deferred := false, heldBack := false }).setFld F.SCH_CTX_LAUNCH_LCOUNT (t.lcount c + 1) c).showStall (t.ctxPart c)
    else if done then
      ((((t.toAborted c a.rsn).recordIgnored c).setFld F.SCH_CTX_STATUS_ABORT_IGNORED 1 c).setCtx c
        { x with deferred := false, heldBack := false }).showStall (t.ctxPart c)
    else
      (((t.toAborted c a.rsn).setCtx c { x with deferred := false, heldBack := false }).discard c |>.sendAborts c a.rsn
        a.except).showStall (t.ctxPart c)
  | 5 => if done then (t.recordIgnored c).setFld F.SCH_CTX_STATUS_ABORT_IGNORED 1 c else t
  | _ => t

/-- The aborts of the tick are decided (R119, R357). -/
def decideAborts (s : State) : State := s.aborts.foldl decideAbort { s with aborts := [] }

/-- Whether a core bound to the context is masked (R32). -/
def boundMasked (s : State) (c : Nat) : Bool :=
  (s.bindingsOf c).any fun b => bitOf (s.rd .GLB_FMASK_CORE (b.1 / 32)) (b.1 % 32)

/-- The launch period of a Scheduled context in ticks (R159). -/
def period (s : State) (c : Nat) : Nat := s.fld F.SCH_CTX_PERIOD_PERIOD c * 2 ^ s.fld F.SCH_ROUND_CFG_LOG2_LEN

/-- Whether the next launch of the arming may begin: a Scheduled one at its start count, an Adaptive one at the tick after
the ARM or after the launch before it (R117). None begins once the schedule counter holds at its maximum (R25). -/
def startDue (s : State) (c : Nat) : Bool :=
  let x := s.ctx c
  decide (s.count < 2 ^ 64 - 1) &&
  if s.scheduled c then decide (x.base + x.index * s.period c ≤ s.count)
  else match x.endedAt with
    | some t => decide ((if 0 < x.index then t else x.armedAt) < s.now)
    | none => decide (x.armedAt < s.now)

/-- An empty down-only range is announced to the present children of its tree and noted (R487). -/
def announceEmpty (s : State) (c : Nat) (t : Tree) : State :=
  let x := s.ctx c
  let s1 := s.setCtx c { x with empty := x.empty ++ [(t.first, t.last + 1 - t.first)] }
  (s.presentKids c t).foldl (fun a k => a.originate (s.towardSlice c k)
    { typ := Frame.COLL_DOWN, cls := s.ctxClass c, part := s.ctxPart c, dest := k * 32, ctx := c, epoch := s.epoch c,
      tile := t.first }) s1

/-- The trees this Y5 is the root of whose source rank is absent, in a down-only kind (R487). -/
def emptyRoots (s : State) (c : Nat) : List Tree :=
  (s.image.treesOf c).filter fun t => t.parent == 0xFF &&
    (match s.kind c with
     | 2 => !(s.presentMembers c).any fun m => (s.shard c m.2).1 == t.first && decide ((s.shard c m.2).1 < (s.shard c m.2).2)
     | 4 => !(s.presentMembers c).any fun m => m.2 == (s.image.ctxX c).srcRank
     | _ => false)

/-- A launch begins (R115, R117, R183). -/
def beginLaunch (s : State) (c : Nat) : State :=
  let x := s.ctx c
  let now := s.count
  let s1 := s.setCtx c { x with active := true, began := now, startedAt := s.now, index := x.index + 1, deferred := false,
                                heldBack := false, timedOut := false, endedAt := none }
  let s2 := (((((s1.setFld F.SCH_CTX_STATUS_STATE 4 c).setFld F.SCH_CTX_STATUS_RES_NAN 0 c).setFld F.SCH_CTX_STATUS_RES_OVF 0
    c).setFld F.SCH_CTX_STATUS_SLIPPED 0 c).setFld F.SCH_CTX_CLAMP_PHX_CLAMP 0 c).setFld F.SCH_CTX_STATUS_LEFT
      (s.fld F.SCH_CTX_STATUS_LEFT c - 1) c
  let s3 := (s2.markStarts c now (s.lcount c)).showStall (s.ctxPart c)
  let s4 := (s3.emptyRoots c).foldl (fun a t => a.announceEmpty c t) s3
  if s.boundMasked c then s4.abortCtx c 6 else s4

end State

end Sys2Proof.Machine
end

