-- ==== Sys2Proof/Machine/Commit.lean ====
section
/-! DEFINITION. Copies committed to their outputs: order of results, marks, tags, digests, progress of launches (R12, R46,
R133, R230, R245, R279, R288, R340), and what a commit brings about. -/

namespace Sys2Proof.Machine

namespace State

/-- Bytes of a tile of a partial sum: FP32 or Phlox for a SUM, the contribution format otherwise (R80, R90, R93). -/
def upTileBytes (s : State) (c : Nat) : Nat :=
  if s.fld F.SCH_CTX_CFG_OP c = 0 then s.tileElems c * (if s.flag F.SCH_CTX_CFG_ARITH c then 8 else 4) else s.tileBytes c false

/-- Bytes of route or combine words with each tile (R125, R126). -/
def wordBytes (s : State) (c : Nat) : Nat := if s.kind c = 8 ∨ s.kind c = 9 then 16 else 0

/-- Bytes of one tile in a frame of a collective type (R331, R134, R135). -/
def frameTile (s : State) (c typ : Nat) : Nat :=
  if typ = Frame.COLL then s.tileBytes c false + s.wordBytes c
  else if typ = Frame.COLL_UP then s.upTileBytes c
  else if typ = Frame.COLL_EXP then max 1 (s.tileElems c / 32)
  else if typ = Frame.COLL_XFER then s.tileBytes c (s.kind c != 9) + s.wordBytes c
  else if typ = Frame.RESULT then s.tileBytes c true + (if s.kind c = 8 then 16 else 0)
  else s.tileBytes c true

/-- Tiles a collective frame carries: its length in whole tiles; one for a BARRIER; none for the marker of R487. -/
def tilesIn (s : State) (f : Frame) : Nat :=
  if s.kind f.ctx = 5 then 1 else f.len / max 1 (s.frameTile f.ctx f.typ)

/-- A tile index moved past the ranges that carry nothing (R487). -/
def skipEmpty (es : List (Nat × Nat)) : (fuel : Nat) → Nat → Nat
  | 0, t => t
  | k + 1, t =>
    match es.find? fun e => e.1 == t && decide (0 < e.2) with
    | some e => skipEmpty es k (t + e.2)
    | none => t

/-- The next result tile of a local member (R46, R133). -/
def nextResult (s : State) (c e : Nat) : Nat :=
  let x := s.ctx c
  let t := (lookupKey x.nextOut e).getD (s.due c ((s.localRank c e).getD 0)).1
  skipEmpty x.empty (x.empty.length + 1) t

/-- A member this Y5 knows to be absent: a local member whose presence bit is 0 (R112). -/
def knownAbsent (s : State) (c r : Nat) : Bool :=
  match s.rankAddr c r with
  | some a => a / 32 == s.coord && !s.present c (a % 32)
  | none => true

/-- Copies of a context's launch for one local member that are not yet committed. -/
def waitingFor (s : State) (c : Nat) (launch : Option Nat) (o : OutPort) : List Copy :=
  s.copies.filter fun k => k.frame.ctx == c && k.out == o && k.launch == launch
    && [Phase.asking, .granted, .copying, .held].contains k.phase
    && (k.frame.typ == Frame.RESULT || k.frame.typ == Frame.DISPATCH_END)

/-- The source rank of a result tile of an ALLTOALL or MOE_DISPATCH, or of a DISPATCH_END (R124, R125, R332). -/
def sourceOf (s : State) (f : Frame) : Nat :=
  if f.typ = Frame.DISPATCH_END then leAt f.payload 4 3 % 2 ^ 17
  else if s.kind f.ctx = 8 then f.tile / max 1 (s.tiles f.ctx) else f.tile / max 1 (s.tb f.ctx)

/-- The first source from rank r on that is not known to be absent. -/
def nextSource (s : State) (c : Nat) : (fuel : Nat) → Nat → Nat
  | 0, r => r
  | k + 1, r => if decide (r < s.ranks c) && s.knownAbsent c r then s.nextSource c k (r + 1) else r

/-- Whether a frame of an ALLTOALL or MOE_DISPATCH must wait for its turn: sources in ascending order, and of each its
tiles before its DISPATCH_END (R121, R125). Absent remote sources are passed over once everything of the group's MEMBERS
sources stands here (log entry 15). -/
def beforeTurn (s : State) (k : Copy) : Bool :=
  let c := k.frame.ctx
  let e := k.frame.dest % 32
  let x := s.ctx c
  let m := s.fld F.SCH_CTX_GROUP_MEMBERS c
  let w := s.waitingFor c k.launch k.out
  let r := s.sourceOf k.frame
  let lower := w.any fun q => q.id != k.id &&
    (decide (s.sourceOf q.frame < r) || (s.sourceOf q.frame == r && q.frame.typ == Frame.RESULT
      && (k.frame.typ == Frame.DISPATCH_END || decide (q.frame.tile < k.frame.tile))))
  let all := if s.kind c = 8 then decide (m ≤ readKey 0 x.ends e + w.countP fun q => q.frame.typ == Frame.DISPATCH_END)
    else decide (m * s.tb c ≤ readKey 0 x.results e + w.foldl (fun a q => a + q.frame.len / max 1 (s.tileBytes c true)) 0)
  let mine := s.nextSource c (s.ranks c) ((lookupKey x.turn e).getD 0) == r
  lower || !(mine || all)
    || (k.frame.typ == Frame.DISPATCH_END
        && decide (readKey 0 x.given (e * 2 ^ 17 + r) < leAt k.frame.payload 0 4))

/-- Whether a result frame to a local member must wait for a lower tile (R46, R133): of a MOE_COMBINE, whose tiles are tokens,
for one that is made and not committed; of a launch that has not begun here, for its beginning. -/
def ahead (s : State) (k : Copy) : Bool :=
  let c := k.frame.ctx
  if s.isLocal k.frame && k.launch.isSome then
    if k.frame.typ = Frame.RESULT ∧ [0, 1, 2, 3, 4, 7].contains (s.kind c) then
      decide (s.nextResult c (k.frame.dest % 32) < k.frame.tile)
    else if (k.frame.typ = Frame.RESULT ∨ k.frame.typ = Frame.DISPATCH_END) ∧ (s.kind c = 6 ∨ s.kind c = 8) then
      s.beforeTurn k
    else if k.frame.typ = Frame.RESULT ∧ s.kind c = 9 then
      (s.waitingFor c k.launch k.out).any fun q => decide (q.frame.tile < k.frame.tile)
    else false
  else false

/-- The mark a copy carries once committed at depth D (R245). -/
def markAt (s : State) (n q d : Nat) (f : Frame) : Nat :=
  if f.cls = 7 ∨ f.mark = 3 then f.mark
  else if s.fld F.SLC_QTHR_MARK_HI n q < d then 2
  else if s.fld F.SLC_QTHR_MARK_LO n q < d then max f.mark 1
  else f.mark

/-- The weight of a queue in WFQ mode (R279). -/
def wfqWeight (s : State) (n p c : Nat) : Nat :=
  max 1 (bitsOf (s.rd .SLC_PWGT n (p / 8)) (p % 8 * 8) 8 * bitsOf (s.rd .SLC_CWGT n p) (c * 8) 8)

/-- A virtual time ahead of another modulo 2^64 (R279). -/
def vLater (a b : Nat) : Bool := decide ((a + 2 ^ 64 - b) % 2 ^ 64 < 2 ^ 63) && a != b

/-- The virtual finish tag of a copy committed to a queue (R279). -/
def finishTag (s : State) (x n p c bytes : Nat) : Nat :=
  let q := s.port x
  let f := readKey 0 q.fprev (p * 8 + c)
  ((if vLater f q.vtime then f else q.vtime) + ceilDiv (bytes * 65536) (s.wfqWeight n p c)) % 2 ^ 64

/-- RSP frames committed to an edge port release their tag (R340). -/
def releaseTag (s : State) (x : Nat) (f : Frame) : State :=
  if f.typ = Frame.RSP ∧ ¬ s.fabric x then
    match s.portAt x with
    | some (n, j) =>
      let q := s.port x
      if (lookupKey q.tags f.tag).isSome then
        let t := eraseKey q.tags f.tag
        (s.setPort x { q with tags := t }).setFld F.SLC_WLK_TAG_OUTSTANDING t.length n j
      else s.bump F.SLC_WLK_TAGSTRAY_COUNT 1 n j
    | none => s
  else s

/-- The tree of a context that holds a frame's first tile. -/
def treeOf (s : State) (f : Frame) : Option Tree := s.image.treeAt f.ctx f.tile

/-- What a frame of a tree counts for among the tiles of its sender's launch: its tiles, or the whole range of its tree for the
marker of an empty range (R487). -/
def treeCount (s : State) (f : Frame) : Nat :=
  if f.typ = Frame.COLL_DOWN ∧ f.len = 0 ∧ s.kind f.ctx ≠ 5 then
    match s.treeOf f with
    | some t => t.last + 1 - t.first
    | none => 0
  else s.tilesIn f

/-- The key in `got` and `sent` of a frame of a tree between this Y5 and another: its coordinates, 4,096 more where it is the
parent, 8,192 more for COLL_EXP. -/
def treeKey (s : State) (f : Frame) (coord : Nat) : Nat :=
  let up := match s.treeOf f with
    | some t => t.parent != 0xFF && s.parentCoord t == coord
    | none => false
  coord + (if up then 4096 else 0) + (if f.typ = Frame.COLL_EXP then 8192 else 0)

/-- What a commit of a copy of one of this Y5's own frames counts toward its launch (R44, R46). -/
def countCommit (s : State) (k : Copy) : State :=
  let f := k.frame
  let c := f.ctx
  let x := s.ctx c
  let n := s.tilesIn f
  let e := f.dest % 32
  let current := x.active && k.launch == some (s.lcount c)
  match k.out with
  | .port _ =>
    if f.typ = Frame.RESULT then
      if current then
        let lf : Leaf := ⟨k.slice, f.dest, f.tile, leafOf f.dest f.tile f.payload⟩
        let r := s.sourceOf f
        let endOfBlock := decide (s.kind c = 6) && decide ((f.tile + n) % max 1 (s.tb c) = 0)
        s.setCtx c { x with results := addKey x.results e n, nextOut := insertKey x.nextOut e (f.tile + n),
                            given := if s.kind c = 8 then addKey x.given (e * 2 ^ 17 + r) n else x.given,
                            turn := if endOfBlock then insertKey x.turn e (r + 1) else x.turn,
                            leaves := if s.fld F.GLB_MG_MODE_MODE f.part = 0 then x.leaves else x.leaves ++ [lf] }
      else s
    else if f.typ = Frame.DISPATCH_END then
      if current && s.isLocal f then
        s.setCtx c { x with ends := addKey x.ends e 1, turn := insertKey x.turn e (s.sourceOf f + 1) }
      else s
    else if f.typ = Frame.COLL_UP ∨ f.typ = Frame.COLL_EXP ∨ f.typ = Frame.COLL_DOWN then
      s.setCtx c { x with sent := addKey x.sent (s.treeKey f (f.dest / 32)) (s.treeCount f) }
    else s
  | _ => s

/-- A copy is committed to its output queue (R230): its mark, tag and time, and what follows. -/
def commitTo (s : State) (k : Copy) (x : Nat) : State :=
  let f := k.frame
  let n := k.slice
  let j := ((s.portAt x).map (·.2)).getD 0
  let q := queueIx j f.part f.cls
  let m := s.markAt n q (s.depth x f.part f.cls) f
  let tag := s.finishTag x n f.part f.cls (f.len + 64)
  let p := s.port x
  let s1 := if f.cls = 7 then s else s.setPort x { p with fprev := writeKey 0 p.fprev (f.part * 8 + f.cls) tag }
  let s2 : State := { s1.setCopy { k with frame := { f with mark := m }, phase := .queued, commitAt := s.count, vft := tag,
                                          seq := s.serial } with serial := s.serial + 1 }
  let s3 := if m ≠ f.mark then s2.wrap F.SLC_MARK_COUNT 1 n j f.cls else s2
  let s4 := (s3.releaseTag x f).settle k.group
  if Frame.collective f.typ then
    let s5 := if k.launch.isSome then (s4.countCommit k).serveMembers f.ctx else s4
    s5.checkDone f.ctx
  else if f.typ = Frame.DONE ∧ f.src / 32 = s.coord ∧ f.epoch = s.epoch f.ctx then s4.freeMember f.ctx (f.dest % 32) (leAt f.payload 0 6)
  else s4

/-- A tile has been moved: COUNT rises, and the engine is DONE at NTILES (R179). -/
def seAdvance (s : State) (n k m : Nat) : State :=
  let s1 := s.setFld F.RC_SE_COUNT_COUNT (s.seCount n k + m) n k
  if (s.engine n k).ntiles ≤ s1.seCount n k then s1.setFld F.RC_SE_STAT_STATE 2 n k else s1

/-- Whether a copy of a group has still to be written into its buffers. -/
def groupWaits (s : State) (g : Nat) : Bool :=
  s.copies.any fun k => k.group == g && [Phase.asking, .granted, .copying].contains k.phase

/-- Whether a frame that engine k offered still waits for admission (R180, R238). -/
def seWaits (s : State) (n k : Nat) : Bool :=
  (s.engine n k).flights.any fun f => match f.1 with
    | some g => s.copies.any fun c => c.group == g && c.phase == .asking
    | none => false

/-- Tiles of the leading frames of an engine that have every buffer written (R179). -/
def landed (s : State) : List (Option Nat × Nat) → Nat × List (Option Nat × Nat)
  | [] => (0, [])
  | f :: r =>
    if (match f.1 with
      | some g => s.groupWaits g
      | none => false) then (0, f :: r)
    else
      let x := s.landed r
      (f.2 + x.1, x.2)

/-- COUNT of an outbound engine passes the tiles whose frames are queued with every buffer written (R179). -/
def seLand (s : State) (n k : Nat) : State :=
  let e := s.engine n k
  let x := s.landed e.flights
  if s.seState n k = 1 ∧ x.1 ≠ 0 then (s.setEngine n k { e with flights := x.2 }).seAdvance n k x.1 else s

/-- The engine that queued a copy goes on (R179). -/
def landCopy (s : State) (k : Copy) : State :=
  match k.engine with
  | some e => s.seLand e.1 e.2
  | none => s

/-- A CMD frame is committed to the command input (R375, R381). -/
def commitCmd (s : State) (x src : Nat) (b : Bytes) (copy : Option Nat) : State :=
  { s with cmd := { s.cmd with inband := s.cmd.inband ++ [{ port := x, src := src, bytes := b, tick := s.now, copy := copy }] } }

/-- A copy's last byte is written (R230): to a core's inbound queue, to its output queue, to the reorder reserve, or to the pool
where it waits for its launch (R131) or, a command, to be taken (R375). -/
def written (s : State) (k : Copy) : State :=
  match k.out with
  | .core _ => (((s.setCopy { k with phase := .inCore }).settle k.group).landCopy k).checkDone k.frame.ctx
  | .pool _ =>
    let t := (s.setCopy { k with phase := .held }).settle k.group
    if k.frame.typ = Frame.CMD then t.commitCmd (k.inPort.getD 0) k.frame.src k.frame.payload (some k.id) else t
  | .port x => if s.ahead k then ((s.setCopy { k with phase := .held }).settle k.group).landCopy k else (s.commitTo k x).landCopy k

end State

end Sys2Proof.Machine
end

