-- ==== Sys2Proof/Machine/Collect.lean ====
section
/-! DEFINITION. What becomes of a collective frame at the Y5 that consumes it: the checks of R134 and R135 and where its
tiles go (R93, R112, R124 to R126, R129, R130, R132, R487). -/

namespace Sys2Proof.Machine

/-- A frame to be placed where its lookup sends it; `span` is as in `Copy`. -/
structure Placed where
  frame : Frame
  route : Route
  span : Option (Nat × Nat) := none
  deriving DecidableEq, Repr

namespace State

/-- Whether a context is defined and granted to a partition (R109, R134 check 1). -/
def ctxGranted (s : State) (c p : Nat) : Bool := s.image.ctxOwner c == some p && s.partDefined p

/-- Checks 1 to 3 of R134: 1 partition, 2 stale. A context that an abort of this tick has reached counts as Aborted (R119,
R357). -/
def ctxCheck (s : State) (f : Frame) : Nat :=
  if !s.ctxGranted f.ctx f.part then 1
  else if f.epoch ≠ s.epoch f.ctx then 2
  else if s.ctxState f.ctx = 6 ∨ s.aborts.any (fun a => a.ctx == f.ctx) then 2
  else 0

/-- Whether a context takes frames: Armed or Running (R131). -/
def ctxActive (s : State) (c : Nat) : Bool := s.ctxState c == 3 || s.ctxState c == 4

/-- The route word's fields (R125). -/
def wordToken (w : Bytes) : Nat := leAt w 0 3 % 2 ^ 20
def wordK (w : Bytes) : Nat := leAt w 3 1
def wordExperts (w : Bytes) : List Nat := (List.range (wordK w)).map fun j => bitsOf (leAt w 4 12) (12 * j) 12

/-- The rank that holds an expert. -/
def expertRank (s : State) (c e : Nat) : Option Nat := (s.image.expertsOf c)[e]?

/-- Whether a route word passes R125. -/
def routeWordOk (s : State) (c : Nat) (w : Bytes) : Bool :=
  decide (1 ≤ wordK w) && decide (wordK w ≤ 8) && leAt w 0 3 / 2 ^ 20 == 0
    && (wordExperts w).all fun e =>
      match s.expertRank c e with
      | some r => !s.knownAbsent c r
      | none => false

/-- The combine word's fields (R126). -/
def wordSlot (w : Bytes) : Nat := leAt w 3 1
def wordWeight (w : Bytes) : Nat := leAt w 4 4
def wordOwner (w : Bytes) : Nat := leAt w 8 3 % 2 ^ 17

/-- Whether a combine word's own fields are well formed (R126). -/
def combineWordOk (w : Bytes) : Bool :=
  leAt w 0 3 / 2 ^ 20 == 0 && decide (wordSlot w ≤ 7) && leAt w 8 3 / 2 ^ 17 == 0 && leAt w 11 5 == 0

/-- The tiles of a frame that carries words, as (word, tile). -/
def wordTiles (s : State) (f : Frame) : List (Bytes × Bytes) :=
  let z := max 1 (s.frameTile f.ctx f.typ)
  (List.range (f.len / z)).map fun i => (Machine.slice f.payload (i * z) 16, Machine.slice f.payload (i * z + 16) (z - 16))

/-- The route word kept of a token of a launch (R126). -/
def wordOf (s : State) (c launch owner token : Nat) : Option TokenX :=
  (s.ctx c).words.find? fun t => t.launch == launch && t.owner == owner && t.token == token

/-- The rank from which the combine tile of a word is expected (R126). -/
def slotRank (s : State) (c launch : Nat) (w : Bytes) : Option Nat :=
  match s.wordOf c launch (wordOwner w) (wordToken w) with
  | some t =>
    match t.experts[wordSlot w]? with
    | some e => s.expertRank c e
    | none => none
  | none => none

/-- Whether every word of a COLL frame of a launch from a rank passes R125 or R126. -/
def wordsOk (s : State) (f : Frame) (launch sender : Nat) : Bool :=
  match s.kind f.ctx with
  | 8 => (s.wordTiles f).all fun t => s.routeWordOk f.ctx t.1
  | 9 => (s.wordTiles f).all fun t => combineWordOk t.1 && s.slotRank f.ctx launch t.1 == some sender
  | _ => true

/-- The REJ_RSN of a COLL frame from edge port e, checks 4 to 11 of R134; 0 when it passes. -/
def collCheck (s : State) (f : Frame) (e : Nat) : Nat :=
  let c := f.ctx
  if !s.ctxActive c then 2
  else
    match s.localRank c e with
    | none => 3
    | some r =>
      if !s.present c e then 3
      else if f.cls ≠ s.ctxClass c then 4
      else
        let z := s.frameTile c Frame.COLL
        let n := s.tilesIn f
        let lenBad := if s.kind c = 5 then f.len ≠ 0 else f.len = 0 ∨ f.len % max 1 z ≠ 0
        if lenBad then 5
        else
          let w := s.sends c r
          let next := s.nextFrame c e
          if f.tile < w.1 ∨ w.2 < f.tile + n then 6
          else if f.tile ≠ next.2 then 7
          else if !s.wordsOk f next.1 r then 8
          else if readKey 0 (s.ctx c).relAt e < next.1 then 9
          else 0

/-- Child k's place in a tree when its coordinates are given and it is present. -/
def kidIndex (s : State) (c : Nat) (t : Tree) (coord : Nat) : Option Nat :=
  (t.children.zipIdx.find? fun k => k.1.coord == coord && s.childPresent c k.2).map (·.2)

/-- The REJ_RSN of a frame another Y5 sends, checks 4 to 8 of R135; 0 when it passes. -/
def treeCheck (s : State) (f : Frame) : Nat :=
  let c := f.ctx
  let from_ := f.src / 32
  if !s.ctxActive c then 2
  else
    let t := s.treeOf f
    let up := match t with
      | some t => (s.kidIndex c t from_).isSome
      | none => false
    let down := match t with
      | some t => t.parent != 0xFF && s.parentCoord t == from_
      | none => false
    let member := (s.image.membersOf c).zipIdx.any fun a => a.1 / 32 == from_ && !s.knownAbsent c a.2
    let srcOk :=
      if f.typ = Frame.COLL_UP then up
      else if f.typ = Frame.COLL_DOWN then down
      else if f.typ = Frame.COLL_EXP then up || down
      else member
    if !srcOk then 10
    else if f.cls ≠ s.ctxClass c then 4
    else
      let z := max 1 (s.frameTile c f.typ)
      let marker := f.typ == Frame.COLL_DOWN && f.len == 0 && (s.kind c == 2 || s.kind c == 4)
        && t.map (·.first) == some f.tile
      let lenOk :=
        if f.typ = Frame.DISPATCH_END then f.len == 8
        else if s.kind c = 5 then f.len == 0
        else marker || (f.len != 0 && f.len % z == 0)
      if !lenOk then 5
      else
        let n := if f.typ = Frame.DISPATCH_END then 0 else s.tilesIn f
        let inRange :=
          if f.typ = Frame.COLL_XFER ∨ f.typ = Frame.DISPATCH_END then
            (match s.kind c with
             | 9 => decide (f.tile + n ≤ s.tiles c)
             | 8 => decide (f.tile + n ≤ s.ranks c * s.tiles c)
             | _ => decide (f.tile + n ≤ s.ranks c * s.tb c))
          else match t with
            | some t => decide (f.tile + n ≤ t.last + 1)
            | none => false
        if inRange then 0 else 6

/-- The slice of a stage of the tree of a tile (R87). -/
def stageSlice (s : State) (c tile stage : Nat) : Option Nat :=
  (s.image.treeAt c tile).bind fun t => (t.plan[stage]?).map (·.slice)

/-- A core bound to a context's stage, in the slice that the plan of a tile's tree gives the stage, that takes a frame from an
input: the one whose active inbound engine names that input and holds the tile, otherwise the lowest numbered (R89; log
entry 13). -/
def coreFor (s : State) (c stage target tile mode : Nat) : Option Nat :=
  let sl := s.stageSlice c tile stage
  let bs := ((s.bindingsOf c).filter fun b => s.fld F.RC_BIND_STAGE b.1 b.2 == stage && some (b.1 / 32) == sl).map (·.1)
  let takes (n : Nat) : Bool := (List.range 4).any fun k =>
    let g := (s.core n).engines.getD k {}
    s.seState n k == 1 && s.seDir n k == 0 && s.fld F.RC_SE_STAT_TARGET n k == target && g.mode == mode
      && decide (g.first ≤ tile) && decide (tile < g.first + g.ntiles)
  match bs.find? takes with
  | some n => some n
  | none => bs.head?

/-- The stage of a plan that lists an input. -/
def stageOf (t : Tree) (i : Nat) : Nat := t.plan.findIdx fun g => g.inputs.contains i

/-- A collective frame of this Y5's own making, by slice n (R254). -/
def makeColl (s : State) (n c typ dest tile : Nat) (payload : Bytes) : Frame :=
  s.ownFrame n { typ := typ, cls := s.ctxClass c, part := s.ctxPart c, dest := dest, ctx := c, epoch := s.epoch c, tile := tile,
                 payload := payload }

/-- A frame of this Y5's own making with where its lookup from slice n sends it; one that its type would take here has no
output (R255). -/
def placed (s : State) (n x : Nat) (f : Frame) : Placed :=
  match (s.route n x f).2 with
  | .here => { frame := f, route := .fails 7 }
  | r => { frame := f, route := r }

/-- A frame for a core, or for the pool where it waits (R131, R180). -/
def placedAt (o : OutPort) (f : Frame) (span : Option (Nat × Nat) := none) : Placed := { frame := f, route := .out o, span := span }

/-- The copies of tiles that fall: RESULT to each present local member but one, COLL_DOWN to each present child (R132,
R487). -/
def fall (s : State) (n x c tile : Nat) (payload : Bytes) (except : Option Nat) (marker : Bool) : List Placed :=
  let kids := match s.image.treeAt c tile with
    | some t =>
      let all := s.presentKids c t
      all.filter fun k => s.fallsTo c k
    | none => []
  let ms := if marker then []
    else (s.presentMembers c).filter fun m => some m.1 != except &&
      (s.kind c != 3 || m.2 == (s.image.ctxX c).dstRank)
  let fs := (ms.map fun m => s.makeColl n c Frame.RESULT (s.ownAddr + m.1) tile payload)
    ++ kids.map fun k => s.makeColl n c Frame.COLL_DOWN (k * 32) tile payload
  fs.map (s.placed n x)

/-- The frames of an ALLTOALL contribution: runs of tiles to one rank (R124); tiles to a known absent rank are counted in
`lost`. -/
def spread (s : State) (n x c src : Nat) (payload : Bytes) : (left tile : Nat) → List Placed × Nat
  | 0, _ => ([], 0)
  | k + 1, tile =>
    let z := max 1 (s.tileBytes c false)
    let r := s.spread n x c src (payload.drop z) k (tile + 1)
    let b := max 1 (s.tb c)
    let d := tile / b
    match s.rankAddr c d with
    | some a =>
      if s.knownAbsent c d then (r.1, r.2 + 1)
      else
        let t := src * b + tile % b
        let typ := if a / 32 = s.coord then Frame.RESULT else Frame.COLL_XFER
        let f := s.makeColl n c typ a t (payload.take z)
        match r.1 with
        | p :: ps =>
          if p.frame.dest = a ∧ p.frame.tile = t + 1 then
            ({ p with frame := { f with payload := f.payload ++ p.frame.payload } } :: ps, r.2)
          else (s.placed n x f :: r.1, r.2)
        | [] => ([s.placed n x f], r.2)
    | none => (r.1, r.2 + 1)

/-- The DISPATCH_END frames of a source, once its last token has come (R125, R332; log entry 16). -/
def dispatchEnds (s : State) (n x c src : Nat) : List Placed :=
  (List.range (s.ranks c)).filterMap fun r =>
    match s.rankAddr c r with
    | some a =>
      if s.knownAbsent c r then none
      else
        some (s.placed n x (s.makeColl n c Frame.DISPATCH_END a 0
          (leBytes 4 (readKey 0 (s.ctx c).tokens (src * 2 ^ 17 + r)) ++ leBytes 3 src ++ leBytes 1 0)))
    | none => none

/-- The route word of a token of a dispatch launch is kept for the combine launch, and its copies to local members, given as
(edge port, rank), add the combine tiles those owe (R126). -/
def noteWord (s : State) (c launch src : Nat) (w : Bytes) (ms : List (Nat × Nat)) : State :=
  match s.partner c with
  | some d =>
    let y := s.ctx d
    let t : TokenX := { launch := launch, owner := src, token := wordToken w, experts := wordExperts w }
    let known := y.words.any fun u => u.launch == launch && u.owner == src && u.token == t.token && u.experts == t.experts
    s.setCtx d { y with words := if known then y.words else y.words ++ [t],
                        slots := ms.foldl (fun m p => addKey m (launch * 32 + p.1)
                          (t.experts.countP fun e => s.expertRank c e == some p.2)) y.slots }
  | none => s

/-- The distinct ranks that hold a token's experts (R125). -/
def tokenRanks (s : State) (c : Nat) (w : Bytes) : List Nat :=
  ((wordExperts w).filterMap fun e => s.expertRank c e).eraseDups

/-- The tokens a frame of a local source adds to each destination's count, and their route words (R125, R126). -/
def noteTokens (s : State) (c launch src : Nat) (ts : List (Bytes × Bytes)) : State :=
  let x := s.ctx c
  let tk := ts.foldl (fun m t => (s.tokenRanks c t.1).foldl (fun m r => addKey m (src * 2 ^ 17 + r) 1) m) x.tokens
  ts.foldl (fun a t => a.noteWord c launch src t.1 ((a.presentMembers c).filter fun m => (a.tokenRanks c t.1).contains m.2))
    (s.setCtx c { x with tokens := tk })

/-- One token of a MOE_DISPATCH: a copy with its route word to each distinct member that holds one of its experts (R125). -/
def dispatchTile (s : State) (n x c src : Nat) (t : Bytes × Bytes) : List Placed :=
  (s.tokenRanks c t.1).filterMap fun r =>
    match s.rankAddr c r with
    | some a =>
      let typ := if a / 32 = s.coord then Frame.RESULT else Frame.COLL_XFER
      some (s.placed n x (s.makeColl n c typ a (src * s.tiles c + wordToken t.1) (t.1 ++ t.2)))
    | none => none

/-- Rounding of element idx of a context's result in a launch (R68, R70, R71). -/
def ctxRounding (s : State) (c idx : Nat) : Rnd :=
  match s.fld F.SCH_CTX_CFG_ROUND c with
  | 0 => .rne
  | 1 => .rtz
  | _ => .sr (srValue (c * 16 + s.epoch c) (s.lcount c) idx)

/-- A result tile from its exact values: scales, padding and elements (R66, R67, R83), with whether one overflowed and
whether one is NaN. -/
def resultTile (s : State) (c idx0 : Nat) (odd : Bool) (vs : List FV) : Bytes × Bool × Bool :=
  let f := Fmt.ofCode (s.fld F.SCH_CTX_CFG_OUT_FMT c)
  let nan := vs.any (· == .nan)
  if s.flag F.SCH_CTX_CFG_OUT_SCALED c then
    let bl := if s.flag F.SCH_CTX_CFG_B32 c then 32 else 16
    let blocks := (List.range (vs.length / bl)).map fun b => (vs.drop (b * bl)).take bl
    let scales := blocks.map (chooseScale f)
    let es := (blocks.zip scales).zipIdx.map fun p =>
      p.1.1.zipIdx.map fun v => scaledElem f p.1.2 (s.ctxRounding c (idx0 + p.2 * bl + v.2)) odd v.1
    (Machine.slice (scales.flatMap (leBytes 1)) 0 (ceilDiv scales.length 16 * 16)
       ++ es.flatMap (fun b => packElems f (b.map (·.bits))), es.any fun b => b.any (·.ovf), nan)
  else
    let es := vs.zipIdx.map fun v =>
      roundTo f (s.ctxRounding c (idx0 + v.2)) (if odd && f != .fp32 then v.1.roundOdd24 else v.1)
    (packElems f (es.map (·.bits)), es.any (·.ovf), nan)

/-- The exact values of a contribution tile's elements (R58, R65, R66). -/
def tileValues (s : State) (c : Nat) (t : Bytes) : List FV :=
  let f := Fmt.ofCode (s.fld F.SCH_CTX_CFG_IN_FMT c)
  let bl := if s.flag F.SCH_CTX_CFG_B32 c then 32 else 16
  let n := s.fld F.SCH_CTX_CFG_TILE_BLK c + 1
  if s.flag F.SCH_CTX_CFG_SCALED c then
    let body := t.drop (ceilDiv n 16 * 16)
    (List.range (n * bl)).map fun i => scaledValue f (leAt t (i / bl) 1) (elemAt f body i)
  else (List.range (n * bl)).map fun i => f.value (elemAt f t i)

/-- The values of a combined row, whether a step of it overflowed, and the conversions it limited (R98). -/
structure Combined where
  vals : List FV
  ovf : Bool
  clamps : Nat

/-- A weighted row in FP32 (R126): each element converted to FP32, above the FP32 range in the context's mode (R72, R90), then the
product step with its weight. -/
def weightedRow (s : State) (c idx0 weight : Nat) (row : Bytes) : List Rounded :=
  (s.tileValues c row).zipIdx.map fun v =>
    let y := roundTo .fp32 (s.ctxRounding c (idx0 + v.2)) v.1
    let p := fp32Round ((Fmt.fp32.value weight).mul (Fmt.fp32.value y.bits))
    ⟨p.bits, y.ovf || p.ovf⟩

/-- FP32 values folded from -0 by sum steps (R82, R90). -/
def foldSteps (xs : List Nat) : Rounded :=
  xs.foldl (fun a x =>
    let r := fp32Round ((Fmt.fp32.value a.bits).add (Fmt.fp32.value x))
    ⟨r.bits, a.ovf || r.ovf⟩) ⟨0x80000000, false⟩

/-- A token's combined values (R126): the weighted rows of its present slots, in ascending slot order, summed in the context's
mode, and the result scale applied as at a root (R85, R90, R95; log entry 87). -/
def combineRow (s : State) (c : Nat) (t : TokenX) : Combined :=
  let got := (t.got.foldl (fun m g => insertKey m g.1 g.2) ([] : List (Nat × (Nat × Bytes)))).map (·.2)
  let rows := got.map fun g => s.weightedRow c (t.token * s.tileElems c) g.1 g.2
  let bits := rows.map fun r => r.map (·.bits)
  let early := rows.any fun r => r.any (·.ovf)
  let n := s.tileElems c
  let scale := (s.image.ctxX c).scale
  let scaled := scale != 0x3F800000
  if s.flag F.SCH_CTX_CFG_ARITH c then
    let es := (List.range n).map fun i =>
      let E := (bits.map fun r => spanExponent (((r.drop (i / 32 * 32)).take 32).map Fmt.fp32.value)).foldl max 0
      let cs := bits.map fun r => phloxConv E (Fmt.fp32.value (r.getD i 0))
      let v := phloxValue E (cs.foldl (fun a k => a + k.1) 0)
      (if scaled then v.mul (Fmt.fp32.value scale) else v, cs.countP (·.2))
    { vals := es.map (·.1), ovf := early, clamps := es.foldl (fun a k => a + k.2) 0 }
  else
    let es := (List.range n).map fun i =>
      let a := foldSteps (bits.map fun r => r.getD i 0)
      if scaled then
        let p := fp32Round ((Fmt.fp32.value a.bits).mul (Fmt.fp32.value scale))
        (⟨p.bits, a.ovf || p.ovf⟩ : Rounded)
      else a
    { vals := es.map fun r => Fmt.fp32.value r.bits, ovf := early || es.any (·.ovf), clamps := 0 }

/-- Whether every slot of a token whose expert's member is not known absent has come (R126). -/
def tokenReady (s : State) (c : Nat) (t : TokenX) : Bool :=
  t.experts.zipIdx.all fun e =>
    (match s.expertRank c e.1 with
     | some r => s.knownAbsent c r
     | none => true) || t.got.any fun g => g.1 == e.2

/-- The owner's results that are ready in ascending token order are queued as RESULT frames (R121, R126). -/
def flushTokens (s : State) (n c owner : Nat) : (fuel : Nat) → State
  | 0 => s
  | k + 1 =>
    let x := s.ctx c
    let open_ := x.words.filter fun t => t.launch == s.lcount c && t.owner == owner && !t.done
    match open_.foldl (fun m t => match m with
      | none => some t
      | some u => if t.token < u.token then some t else some u) (none : Option TokenX) with
    | none => s
    | some t =>
      if s.tokenReady c t then
        let r := s.combineRow c t
        let v := s.resultTile c (t.token * s.tileElems c) (s.flag F.SCH_CTX_CFG_ARITH c) r.vals
        let s1 := s.setCtx c { x with words := x.words.map fun u => if u = t then { u with done := true } else u }
        let s3 := ((s1.noteOvf c (v.2.1 || r.ovf)).noteNan c v.2.2).noteClamp c r.clamps
        let f := s3.makeColl n c Frame.RESULT ((s3.rankAddr c owner).getD 0) t.token v.1
        let s4 := match (s3.placed n 256 f).route with
          | .out o => s3.ask f n 4096 o s3.serial
          | .fails e => s3.drop n e
          | .here => s3
        s4.flushTokens n c owner k
      else s

/-- A combine tile of a launch at the owner's edge Y5 (R126). -/
def takeCombine (s : State) (c launch : Nat) (w : Bytes × Bytes) : State :=
  let x := s.ctx c
  s.setCtx c { x with words := x.words.map fun t =>
    if t.launch = launch ∧ t.owner = wordOwner w.1 ∧ t.token = wordToken w.1 ∧ !t.got.any (fun g => g.1 == wordSlot w.1) then
      { t with got := t.got ++ [(wordSlot w.1, wordWeight w.1, w.2)] }
    else t }

/-- The combine tiles of a frame of a launch: taken here for local owners, sent on to the owner's edge Y5 otherwise. -/
def combineTiles (s : State) (n x c launch tile : Nat) (ts : List (Bytes × Bytes)) : State × List Placed :=
  let mine (t : Bytes × Bytes) : Bool := ((s.rankAddr c (wordOwner t.1)).getD 0) / 32 == s.coord
  let s1 := (ts.filter mine).foldl (fun a t => a.takeCombine c launch t) s
  let owners := ((ts.filter mine).map fun t => wordOwner t.1).eraseDups
  let s2 := owners.foldl (fun a o => a.flushTokens n c o ((a.ctx c).words.length + 1)) s1
  (s2, (ts.zipIdx.filter fun t => !mine t.1).map fun t =>
    s.placed n x (s.makeColl n c Frame.COLL_XFER ((s.rankAddr c (wordOwner t.1.1)).getD 0) (tile + t.2) (t.1.1 ++ t.1.2)))

/-- A frame of a BARRIER from an input: once every present input has sent that of the launch, the frame climbs, or falls at the
root, once in the launch (R112, R487). -/
def barrier (s : State) (n x c input : Nat) : State × List Placed :=
  let r := s.ctx c
  let arr := addKey r.arrived input 1
  let s1 := s.setCtx c { r with arrived := arr }
  match s.image.treeAt c 0 with
  | none => (s1, [])
  | some t =>
    let need := ((s.presentMembers c).map (·.1)) ++
      ((List.range t.children.length).filter fun k => s.childPresent c k).map (32 + ·)
    if need.all fun i => decide (r.fired < readKey 0 arr i) then
      let s2 := s1.setCtx c { r with arrived := arr, fired := r.fired + 1 }
      if t.parent = 0xFF then (s2, s2.fall n x c 0 [] none false)
      else (s2, [s2.placed n x (s2.makeColl n c Frame.COLL_UP (s2.parentCoord t * 32) 0 [])])
    else (s1, [])

/-- The key in `got` of what one source sends to one local member. -/
def xferKey (s : State) (f : Frame) : Nat := 2 ^ 20 + s.sourceOf f * 32 + f.dest % 32

/-- The launch of a combine tile from another Y5: the first whose tokens lack its slot (R126). -/
def combineLaunch (s : State) (f : Frame) : Nat :=
  let w := f.payload.take 16
  let open_ := (s.ctx f.ctx).words.filter fun t => t.owner == wordOwner w && t.token == wordToken w
    && !t.got.any fun g => g.1 == wordSlot w
  ((open_.map (·.launch)).min?).getD (s.lcount f.ctx)

/-- The launch an accepted frame belongs to: each sender sends the frames of its launches in turn, and each launch's are as many
(R121, R125, R130, R135, R487). -/
def frameLaunch (s : State) (f : Frame) : Nat :=
  let c := f.ctx
  let x := s.ctx c
  let k := f.src / 32
  if f.typ = Frame.COLL then (s.nextFrame c (f.src % 32)).1
  else if f.typ = Frame.COLL_XFER ∨ f.typ = Frame.DISPATCH_END then
    match s.kind c with
    | 6 => readKey 0 x.got (s.xferKey f) / max 1 (s.tb c)
    | 8 => readKey 0 x.got (s.xferKey f)
    | _ => s.combineLaunch f
  else
    let key := s.treeKey f k
    readKey 0 x.got key / max 1 (if key / 4096 % 2 = 1 then s.parentTiles c k else s.kidTiles c k)

/-- An accepted frame counts for its sender (R129). Whether a token is the last of its source is a free value where fewer than
TILES have come (R125; log entry 16). -/
def noteFrame (s : State) (f : Frame) (launch : Nat) : State :=
  let c := f.ctx
  let x := s.ctx c
  let n := s.tilesIn f
  if f.typ = Frame.COLL then
    let e := f.src % 32
    let unsure := s.kind c = 8 ∧ f.tile + n < s.tiles c
    (if unsure then s.useFree else s).setCtx c
      { x with inAt := insertKey x.inAt e ⟨launch, f.tile + n, decide unsure && s.freeNat 1 == 1⟩ }
  else if f.typ = Frame.COLL_XFER ∨ f.typ = Frame.DISPATCH_END then
    if s.kind c = 6 then s.setCtx c { x with got := addKey x.got (s.xferKey f) n }
    else if f.typ = Frame.DISPATCH_END then s.setCtx c { x with got := addKey x.got (s.xferKey f) 1 }
    else s
  else s.setCtx c { x with got := addKey x.got (s.treeKey f (f.src / 32)) (s.treeCount f) }

/-- Whether a frame's tiles go to the cores that carry out a plan; those of the other kinds are handled by the slice. -/
def toCores (s : State) (f : Frame) : Bool :=
  [0, 1, 3, 7].contains (s.kind f.ctx) && (f.typ == Frame.COLL || f.typ == Frame.COLL_UP || f.typ == Frame.COLL_EXP)

/-- The copies of a member's frame for the cores of the trees its tiles lie in (R87, R89). -/
def memberCopies (s : State) (f : Frame) : List Placed :=
  let e := f.src % 32
  let n := s.tilesIn f
  (s.image.treesOf f.ctx).filterMap fun t =>
    let lo := max t.first f.tile
    let hi := min (t.last + 1) (f.tile + n)
    if lo < hi then
      (s.coreFor f.ctx (stageOf t e) e lo 0).map fun m =>
        placedAt (.core m) f (if lo = f.tile ∧ hi = f.tile + n then none else some (lo, hi))
    else none

/-- The tiles of a member's frame of a launch that has begun: where they go (R121, R255). -/
def takeColl (s : State) (n x : Nat) (f : Frame) (launch : Nat) : State × List Placed :=
  let c := f.ctx
  let e := f.src % 32
  let k := s.tilesIn f
  let src := (s.localRank c e).getD 0
  match s.kind c with
  | 2 => (s, s.fall n x c f.tile f.payload none false)
  | 4 => (s, s.fall n x c f.tile f.payload (some e) false)
  | 5 => s.barrier n x c e
  | 6 =>
    let p := s.spread n x c src f.payload k f.tile
    (s.bump F.SCH_CTX_REJECT_REJECT p.2 c, p.1)
  | 8 =>
    let ts := s.wordTiles f
    let s2 := s.noteTokens c launch src ts
    let p := s.inPos c e
    let ends := if s.sentAll c e launch && (p.launch != launch || p.next == f.tile + k) then s2.dispatchEnds n x c src else []
    (s2, (ts.flatMap fun t => s2.dispatchTile n x c src t) ++ ends)
  | 9 => s.combineTiles n x c launch f.tile (s.wordTiles f)
  | _ => (s, s.memberCopies f)

/-- A tile from another edge Y5 that its local member cannot have: of an absent rank, or a combine tile that its token's route
word does not expect from there. It is discarded and counted (R124, R126). -/
def strayXfer (s : State) (f : Frame) (launch : Nat) : Bool :=
  if s.kind f.ctx = 9 then
    (s.wordTiles f).any fun t => match s.slotRank f.ctx launch t.1 with
      | some r => (s.rankAddr f.ctx r).map (· / 32) != some (f.src / 32)
      | none => true
  else !s.present f.ctx (f.dest % 32)

/-- The tiles of a frame from another edge Y5 of a launch that has begun (R124 to R126). -/
def takeXfer (s : State) (n x : Nat) (f : Frame) (launch : Nat) : State × List Placed :=
  let c := f.ctx
  if f.typ = Frame.DISPATCH_END then (s, if s.present c (f.dest % 32) then [s.placed n x f] else [])
  else if s.strayXfer f launch then
    if s.kind c = 6 then (s.bump F.SCH_CTX_REJECT_REJECT (s.tilesIn f) c, [])
    else ((s.bump F.SCH_CTX_REJECT_REJECT 1 c).setFld F.SCH_CTX_STATUS_REJ_RSN 8 c, [])
  else if s.kind c = 9 then s.combineTiles n x c launch f.tile (s.wordTiles f)
  else
    let e := f.dest % 32
    let s1 := if s.kind c = 8 then
        (s.wordTiles f).foldl (fun a t => a.noteWord c launch (s.sourceOf f) t.1 [(e, (s.localRank c e).getD 0)]) s
      else s
    (s1, [s1.placed n x (s1.ownFrame n { f with typ := Frame.RESULT })])

/-- The tiles of a frame from another Y5 of a launch that has begun (R93, R132, R180, R487). -/
def takeTree (s : State) (n x : Nat) (f : Frame) (launch : Nat) : State × List Placed :=
  let c := f.ctx
  let r := s.ctx c
  let from_ := f.src / 32
  if f.typ = Frame.COLL_XFER ∨ f.typ = Frame.DISPATCH_END then s.takeXfer n x f launch
  else
    match s.treeOf f with
    | none => (s, [])
    | some t =>
      let down := t.parent != 0xFF && s.parentCoord t == from_
      let input := 32 + (s.kidIndex c t from_).getD 0
      if f.typ = Frame.COLL_DOWN then
        if f.len = 0 ∧ s.kind c ≠ 5 then
          let s2 := if r.active ∧ launch = s.lcount c then
              s.setCtx c { r with empty := r.empty ++ [(t.first, t.last + 1 - t.first)] }
            else s
          (s2, s2.fall n x c f.tile [] none true)
        else (s, s.fall n x c f.tile f.payload none false)
      else if s.kind c = 5 then s.barrier n x c input
      else if f.typ = Frame.COLL_EXP ∧ down then
        (s, (List.range t.plan.length).filterMap fun g => (s.coreFor c g 0x4D f.tile 1).map fun m => placedAt (.core m) f)
      else
        match s.coreFor c (stageOf t input) input f.tile (b2n (f.typ == Frame.COLL_EXP)) with
        | some m => (s, [placedAt (.core m) f])
        | none => (s, [])

/-- The tiles of an accepted frame whose launch has begun. -/
def takeTiles (s : State) (n x : Nat) (f : Frame) (launch : Nat) : State × List Placed :=
  if f.typ = Frame.COLL then s.takeColl n x f launch else s.takeTree n x f launch

/-- An accepted collective frame, metered, arrived on port x of slice n (R131): what it counts for, and where its tiles go; one of
a launch that has not begun stays in the pool of its slice until then. -/
def takeFrame (s : State) (n x : Nat) (f : Frame) (launch : Nat) : State × List Placed :=
  let s1 := s.noteFrame f launch
  if s1.toCores f || decide (launch < s1.begun f.ctx) then s1.takeTiles n x f launch
  else (s1, [placedAt (.pool n) f])

/-! Copies of one frame -/

/-- Whether one output comes before another among the copies of one frame: by slice, then by port, the cores of a slice after
its ports (R244). -/
def outBefore (s : State) (a b : OutPort) : Bool :=
  let key (o : OutPort) : List Nat := match o with
    | .port p => [s.outSlice o, 0, p]
    | .core k => [s.outSlice o, 1, k]
    | .pool k => [k, 2, 0]
  before (key a) (key b)

/-- A copy put in its place among those of one frame. -/
def insertOut (s : State) (p : OutPort × Placed) : List (OutPort × Placed) → List (OutPort × Placed)
  | [] => [p]
  | q :: r => if s.outBefore q.1 p.1 then q :: s.insertOut p r else p :: q :: r

/-- The copies that have an output, in the order of R244. -/
def outputsOf (s : State) (ps : List Placed) : List (OutPort × Placed) :=
  (ps.filterMap fun p => match p.route with
    | .out o => some (o, p)
    | _ => none).foldl (fun l p => s.insertOut p l) []

/-- The drop causes of the copies that have none (R229 check 9). -/
def lostOf (ps : List Placed) : List Nat :=
  ps.filterMap fun p => match p.route with
    | .fails c => some c
    | _ => none

/-- The copies of a frame that arrived on port x of slice n ask for their buffers, in the order of R244; one with no output is
dropped and counted (R229 check 9, R238, R252). -/
def askCopies (s : State) (n x group : Nat) (launch : Option Nat) (ps : List Placed) : State :=
  let s1 := (s.outputsOf ps).zipIdx.foldl (fun a p => a.request p.1.2.frame x group p.2 p.1.1 launch p.1.2.span) s
  (lostOf ps).foldl (fun a c => a.drop n c) s1

/-- A frame that waited in the pool goes on: its copies ask for their own buffers, and its own are freed (R131). -/
def unparkOne (s : State) (k : Copy) : State :=
  let x := k.inPort.getD 0
  let r := s.takeTiles k.slice x k.frame (k.launch.getD 0)
  (({ r.1 with serial := r.1.serial + 1 } : State).askCopies k.slice x r.1.serial k.launch
    (r.2.map fun p => { p with frame := { p.frame with colour := k.frame.colour } })).freeCopy k.id

/-- The frames that waited in a pool for a launch of a context that has now begun, in the order in which they were written
(R131). -/
def unpark (s : State) (c : Nat) : State :=
  let due := s.copies.filter fun k => k.phase == .held && k.frame.ctx == c && (match k.out with
    | .pool _ => true
    | _ => false) && (match k.launch with
    | some l => decide (l < s.begun c)
    | none => false)
  due.foldl unparkOne s

/-- A source of which nothing of the launch has come may have no token in it: whether it has is a free value, and with none its
DISPATCH_END frames are due at once (R125; log entry 16). -/
def silentSource (s : State) (c : Nat) (m : Nat × Nat) : State :=
  if s.nextFrame c m.1 = (s.lcount c, 0) then
    let t := s.useFree
    if s.freeNat 1 = 1 then
      let x := t.fld F.SLC_EDGE_PORT 0 m.1
      let n := t.sliceOf x
      let r := t.ctx c
      let u := t.setCtx c { r with inAt := insertKey r.inAt m.1 ⟨t.lcount c, 0, true⟩ }
      ({ u with serial := u.serial + 1 } : State).askCopies n x u.serial (some (t.lcount c)) (u.dispatchEnds n x c m.2)
    else t
  else s

/-- The sources of a MOE_DISPATCH launch that begins without a token (R125). -/
def silentSources (s : State) (c : Nat) : State :=
  if s.kind c = 8 then (s.presentMembers c).foldl (fun a m => a.silentSource c m) s else s

/-- A launch begins: the frames that waited for it go on, and it is complete where nothing of it is due here (R44, R131). -/
def openLaunch (s : State) (c : Nat) : State := (((s.beginLaunch c).unpark c).silentSources c).checkDone c

end State

end Sys2Proof.Machine
end

