-- ==== Sys2Proof/Machine/Buffers.lean ====
section
/-! DEFINITION. The commands of the switch core, the pools and the routing tables (chapters 9, 10; R133, R340). -/

namespace Sys2Proof.Machine

/-- The requests of a slice that wait are made again, with those of the tick, in the order of R243 (R238). -/
def execOrigAdmit (n : Nat) (s : State) : Host.Outcome State Fault Refusal := .next (s.admitSlice n)

/-- A slice's pool manager decides the requests of the tick and hands over at most 4 pointers in it (R238, R243). -/
def execPointerHandover (n : Nat) (s : State) : Host.Outcome State Fault Refusal :=
  let t := s.admitSlice n
  .next (t.handOver n (4 - t.handedNow n))

/-- Whether two copies are of one flow to one output, whose frames keep their order (R259, R262, R274). -/
def sameFlow (a b : Copy) : Bool :=
  a.out == b.out && a.frame.src == b.frame.src && a.frame.dest == b.frame.dest && a.frame.part == b.frame.part
    && a.frame.cls == b.frame.cls

/-- A copy's last byte is written, and one that waits in the pool goes on where its launch has begun meanwhile (R131). -/
def State.writtenThen (s : State) (k : Copy) : State := (s.written k).unpark k.frame.ctx

/-- The last byte of one of the two copies at a slice's write port is written (R230, R236); the later of two of one flow is
not committed before the earlier. -/
def execCopyCommit (n : Nat) (second : Bool) (s : State) : Host.Outcome State Fault Refusal :=
  .next (match s.writing n with
  | [] => s
  | a :: r =>
    if !second then s.writtenThen a
    else match r with
      | b :: _ => if sameFlow a b then s else s.writtenThen b
      | [] => s)

/-- A refill in flight arrives in the cache of a pool (R242). -/
def execCacheRefill (n i : Nat) (s : State) : Host.Outcome State Fault Refusal := .next (s.refillArrives n i)

/-- A result frame whose turn has come leaves the reorder reserve for its output queue (R133). -/
def execResultReorderRelease (x : Nat) (s : State) : Host.Outcome State Fault Refusal :=
  .next (match State.firstOf (s.copies.filter fun c => c.phase == .held && c.out == .port x && !s.ahead c) with
  | some k => s.commitTo k x
  | none => s)

/-- The audit period of a slice (R246). -/
def State.auditPeriod (s : State) (n : Nat) : Nat := 2 ^ clampTo 16 28 (s.fld F.SLC_BUF_CTRL_AUDIT_LOG2 n)

/-- SIZE less ring, cache and every buffer held, of a pool (R246). -/
def State.deficit (s : State) (n i : Nat) : Int :=
  let x := s.pool n i
  (s.fld F.SLC_POOL_CFG_SIZE n i : Int) - (x.ring.length + x.refill.length + x.cache.length + s.heldBy n i : Nat)

/-- At an audit count the auditor takes its snapshot of every pool of a slice (R246). -/
def execAudit (n : Nat) (s : State) : Host.Outcome State Fault Refusal :=
  .next (if s.flag F.SLC_BUF_CTRL_AUDIT_EN n ∧ s.falls (s.auditPeriod n) 0 = true ∧ (s.slice n).audit.isNone then
    s.setSlice n { s.slice n with audit := some (s.now, (List.range 17).map (s.deficit n)) }
  else s)

/-- DEFICIT of one pool written (R246). -/
def State.writeDeficit (s : State) (n i : Nat) (d : Int) : State :=
  let s1 := (s.setFld F.SLC_POOL_AUDIT_DEFICIT (unsignedOf 16 d) n i).setFld F.SLC_POOL_AUDIT_DONE 1 n i
  if d = 0 then s1
  else (s1.bump F.SLC_POOL_AUDIT_AUDITS_FAILED 1 n i).report 0x23 (n * 32 + i) (s.poolInfo n i)

/-- 64 tk after the snapshot, the deficits are written (R246). -/
def execAuditWrite (n : Nat) (s : State) : Host.Outcome State Fault Refusal :=
  .next (match (s.slice n).audit with
  | some (t, ds) =>
    if t + 64 ≤ s.now then
      ds.zipIdx.foldl (fun a d => a.writeDeficit n d.2 d.1) (s.setSlice n { s.slice n with audit := none })
    else s
  | none => s)

/-- A pool that holds no buffer is rebuilt; in any other state the reclaim is refused (R247). -/
def State.reclaim (s : State) (n i : Nat) : State :=
  if s.copies.any fun c => c.slice == n && c.pool == i && c.ptrs != [] then s.setFld F.SLC_POOL_AUDIT_RECLAIM_REFUSED 1 n i
  else s.buildPool n i

/-- RECLAIM of pool i of slice n (R247). -/
def execReclaim (n i : Nat) (s : State) : Host.Outcome State Fault Refusal := .next (s.reclaim n i)

/-- The rate raise of one context (R270). -/
def State.raiseRate (s : State) (c : Nat) : State :=
  let m := s.fld F.SCH_CTX_RLIM_RATE_MAX c
  if s.scheduled c ∨ s.ctxState c < 2 ∨ s.echoed.contains c then s
  else s.setFld F.SCH_CTX_RATE_RATE (min m (s.fld F.SCH_CTX_RATE_RATE c + max 1 (m / 32))) c

/-- The contexts a partition is granted in the committed image. -/
def State.grantedCtxs (s : State) : List Nat := s.image.device.contexts.map (·.1)

/-- At each multiple of 8,192 every limiter that took no echo since the last is raised (R270). -/
def execRateRecovery (s : State) : Host.Outcome State Fault Refusal :=
  .next (if s.falls 8192 0 then
    { s.grantedCtxs.foldl State.raiseRate s with echoed := [] }
  else s)

/-- Every flowlet entry invalidated. -/
def State.clearFlowlets (s : State) : State :=
  { s with ports := (s.ports.map fun e => (e.1, { e.2 with flow := [] })).filter fun e => e.2 != {} }

/-- The ports some neighbour entry lists and masks. -/
def State.maskedPorts (s : State) : List Nat :=
  (List.range 3).flatMap fun d => (List.range 16).flatMap fun v =>
    ((s.links 0 d v).filter fun l => bitOf (s.fld F.SLC_NBRM_MASK 0 d v) l.1).map (·.2)

/-- A copy committed to an output queue of one of the ports and not yet acknowledged or dropped. -/
def onPorts (ps : List Nat) (c : Copy) : Bool :=
  (match c.out with
   | .port x => ps.contains x
   | _ => false) && [Phase.queued, .wire, .unacked].contains c.phase

/-- The flowlet tables are invalidated, and the copies that now stand on masked ports hold FLUSH_BUSY (R273). -/
def State.flushNow (s : State) : State :=
  { s.clearFlowlets with flushing := (s.copies.filter (onPorts s.maskedPorts)).map (·.id), flushedAt := some s.now }

/-- A MASK write reaches the copy of every slice (R271). The 64 tk it may take are not modelled (log entry 14). A FLUSH of the
same tick acts after it (R273). -/
def State.writeMask (s : State) (d v mask : Nat) : State :=
  let t := (List.range 16).foldl (fun a n => a.setFld F.SLC_NBRM_MASK mask n d v) s
  if t.flushedAt = some t.now then t.flushNow else t

/-- NBR_MASK_WRITE (R271). -/
def execNbrMaskWrite (d v mask : Nat) (s : State) : Host.Outcome State Fault Refusal := .next (s.writeMask d v mask)

/-- A FLUSH (R273). -/
def State.flush (s : State) (n : Nat) : State :=
  if s.flag F.SLC_RT_STATUS_FLUSH_BUSY n then s.setFld F.SLC_RT_STATUS_FLUSH_IGNORED 1 n
  else
    (List.range 16).foldl (fun a m => a.setFld F.SLC_RT_STATUS_FLUSH_BUSY 1 m) s.flushNow

/-- FLUSH in a slice's block (R273). -/
def execFlush (n : Nat) (s : State) : Host.Outcome State Fault Refusal := .next (s.flush n)

/-- FLUSH_BUSY returns to 0 when no copy committed before the FLUSH remains on a masked port (R273). -/
def execFlushDone (s : State) : Host.Outcome State Fault Refusal :=
  .next (if s.flushedAt.isSome ∧ s.flushing = [] then
    { (List.range 16).foldl (fun a m => a.setFld F.SLC_RT_STATUS_FLUSH_BUSY 0 m) s with flushedAt := none }
  else s)

/-- A tag is released twice the lifetime limit after its REQ was accepted (R340). -/
def execTagTimeout (x tag : Nat) (s : State) : Host.Outcome State Fault Refusal :=
  .next (match s.portAt x, lookupKey (s.port x).tags tag with
  | some (n, j), some t =>
    if t + 2 * s.lifeLimit ≤ s.now then
      let q := s.port x
      let r := eraseKey q.tags tag
      (s.setPort x { q with tags := r }).setFld F.SLC_WLK_TAG_OUTSTANDING r.length n j
    else s
  | _, _ => s)

end Sys2Proof.Machine
end

