-- ==== Sys2Proof/Machine/Loader.lean ====
section
/-! DEFINITION. Flarn packages: layout and signature (R347, R348), sections and records (R349 to R351), digests (R346) and
the image they make. -/

namespace Sys2Proof.Machine

/-- A record of a section: partition (16 for the device part), section ID, index in the section, RTYPE and body (R350). -/
structure Rec where
  part : Nat
  id : Nat
  index : Nat
  typ : Nat
  body : Bytes
  deriving DecidableEq, Repr, Inhabited

/-- What a rejection names (R490): registers, a table record, a code record of a core, a grant or other matter of a
section. -/
inductive Site where
  | reg (addr : Nat)
  | table (part id index : Nat)
  | code (core addr : Nat)
  | matter (part id : Nat)
  deriving DecidableEq, Repr, Inhabited

/-! Packages -/

/-- Every byte is 0. -/
def allZero (b : Bytes) : Bool := b.all (· == 0#8)

/-- Header fields (R347). -/
def hdKind (b : Bytes) : Nat := leAt b 10 1
def hdPart (b : Bytes) : Nat := leAt b 11 1
def hdClass (b : Bytes) : Nat := leAt b 24 8
def hdSects (b : Bytes) : Nat := leAt b 40 4
def hdBase (b : Bytes) : Bytes := slice b 48 32
def hdDigest (b : Bytes) : Bytes := slice b 80 32
def hdSig (b : Bytes) : Nat := leAt b 112 8

/-- The header is well formed (R347). -/
def headerWf (b : Bytes) : Bool :=
  slice b 0 8 == ascii 8 "FLARN" && leAt b 8 2 == 1 && decide (hdKind b ≤ 1) && decide (hdPart b ≤ 15)
    && (hdKind b == 1 || hdPart b == 0) && allZero (slice b 12 4) && leAt b 16 8 == b.length && b.length % 8 == 0
    && decide (1 ≤ hdSects b) && decide (hdSects b ≤ 4096) && allZero (slice b 44 4)
    && (hdKind b == 1 || allZero (hdBase b)) && hdSig b % 8 == 0 && decide (hdSig b + 3416 ≤ b.length)
    && decide (128 + 32 * hdSects b ≤ hdSig b) && allZero (slice b 120 8)

/-- Entry i of the section table, as (ID, PART, OFFSET, LENGTH). -/
def sectEntry (b : Bytes) (i : Nat) : Nat × Nat × Nat × Nat :=
  let o := 128 + 32 * i
  (leAt b o 2, leAt b (o + 2) 1, leAt b (o + 8) 8, leAt b (o + 16) 8)

/-- An entry is well formed: reserved bytes, alignment, within the package after the table and before the signatures. -/
def entryWf (b : Bytes) (i : Nat) : Bool :=
  let o := 128 + 32 * i
  let e := sectEntry b i
  allZero (slice b (o + 3) 5) && allZero (slice b (o + 24) 8) && e.2.2.1 % 8 == 0 && decide (e.2.1 ≤ 15)
    && decide (128 + 32 * hdSects b ≤ e.2.2.1) && decide (e.2.2.1 + e.2.2.2 ≤ hdSig b)

/-- No two elements of a list are related. -/
def noPair {α : Type} (p : α → α → Bool) : List α → Bool
  | [] => true
  | a :: r => r.all (fun b => !p a b) && noPair p r

/-- The section table is well formed: no overlap, no ID twice for a partition. -/
def tableWf (b : Bytes) : Bool :=
  let es := (List.range (hdSects b)).map (sectEntry b)
  (List.range (hdSects b)).all (entryWf b)
    && noPair (fun x y => decide (x.2.2.1 < y.2.2.1 + y.2.2.2) && decide (y.2.2.1 < x.2.2.1 + x.2.2.2)) es
    && noPair (fun x y => x.1 == y.1 && x.2.1 == y.2.1) es

/-- Device section IDs and partition section IDs (R349). -/
def deviceIds : List Nat := [1, 2, 3, 4, 5, 6, 7]
def partIds : List Nat := [0x20, 0x21, 0x22, 0x23, 0x24, 0x25, 0x26, 0x27, 0x28]

/-- The sections of a package, in ascending (part, ID). -/
def insertSection (x : Section) : List Section → List Section
  | [] => [x]
  | y :: r => if x.part < y.part ∨ (x.part = y.part ∧ x.id ≤ y.id) then x :: y :: r else y :: insertSection x r

def sectionsOf (b : Bytes) : List Section :=
  (((List.range (hdSects b)).map (sectEntry b)).map fun e =>
    (⟨if deviceIds.contains e.1 then 16 else e.2.1, e.1, slice b e.2.2.1 e.2.2.2⟩ : Section)).foldr insertSection []

/-- Whether an entry of the section table is within its scope (R349). -/
def entryInScope (b : Bytes) (e : Nat × Nat × Nat × Nat) : Bool :=
  (deviceIds.contains e.1 && hdKind b == 0 && e.2.1 == 0) || (partIds.contains e.1 && (hdKind b == 0 || e.2.1 == hdPart b))

/-- The section, as ID and partition, that a package has outside its scope or lacks (R349). -/
def scopeFault (b : Bytes) : Option (Nat × Nat) :=
  let es := (List.range (hdSects b)).map (sectEntry b)
  match es.find? fun e => !entryInScope b e with
  | some e => some (e.1, e.2.1)
  | none =>
    if hdKind b = 1 then none
    else ([1, 2, 3, 4, 5].find? fun i => es.all fun e => e.1 != i).map fun i => (i, 0)

/-- PKG_DIGEST recomputed. -/
def packageDigest (b : Bytes) : Bytes := sha3 (slice b 0 80 ++ slice b 128 (hdSig b - 128))

/-- Both signatures over PKG_DIGEST with the named operator key slot's keys (R348, R390). -/
def signaturesOk (keys : Nat → Option Bytes) (b : Bytes) : Bool :=
  let g := b.drop (hdSig b)
  let msg := ascii 16 "YELIMOS-FLARN" ++ hdDigest b
  decide (leAt g 0 1 ≤ 3) && allZero (slice g 1 7) && allZero (slice g 3413 3) &&
    match keys (leAt g 0 1) with
    | some k => Config.verifyEcdsa (k.take 97) msg (slice g 8 96) && Config.verifyMlDsa (k.drop 97) msg (slice g 104 3309)
    | none => false

/-! Records -/

/-- The records of a section; none when a record is malformed (R350). -/
def parseRecs (part id : Nat) : (fuel index : Nat) → Bytes → Option (List Rec)
  | _, _, [] => some []
  | 0, _, _ => none
  | f + 1, i, b =>
    let n := leAt b 4 4
    let t := leAt b 0 1
    let size := ceilDiv (8 + n) 8 * 8
    if b.length < size ∨ t = 0 ∨ 3 < t ∨ ¬ allZero (slice b 1 3) ∨ ¬ allZero (slice b (8 + n) (size - 8 - n)) then none
    else (parseRecs part id f (i + 1) (b.drop size)).map fun r => ⟨part, id, i, t, slice b 8 n⟩ :: r

/-- The records of sections. -/
def recsOf : List Section → Option (List Rec)
  | [] => some []
  | x :: r =>
    match parseRecs x.part x.id (x.bytes.length + 1) 0 x.bytes, recsOf r with
    | some a, some b => some (a ++ b)
    | _, _ => none

/-- The first section that is no sequence of records, as ID and partition (R350). -/
def badSection (l : List Section) : Option (Nat × Nat) :=
  (l.find? fun x => (parseRecs x.part x.id (x.bytes.length + 1) 0 x.bytes).isNone).map fun x => (x.id, x.part)

/-- The registers of a REG record's body from an offset, as (register, its indices, value); none when an offset is no
register's first byte. -/
def parseRegs : (fuel off : Nat) → Bytes → Option (List ((RegName × Nat × Nat × Nat) × Nat))
  | _, _, [] => some []
  | 0, _, _ => none
  | f + 1, o, b =>
    match regAt o with
    | none => none
    | some r =>
      let w := r.1.row.width / 8
      if b.length < w then none else (parseRegs f (o + w) (b.drop w)).map fun m => (r, leAt b 0 w) :: m

/-- The registers of a record. -/
def recRegs (r : Rec) : Option (List ((RegName × Nat × Nat × Nat) × Nat)) :=
  if r.typ = 1 then (if r.body.length < 4 then none else parseRegs (r.body.length + 1) (leAt r.body 0 4) (r.body.drop 4))
  else some []

/-- The mask of a list of fields. -/
def maskOf (l : List Fld) : Nat := l.foldl (fun m f => Nat.lor m ((2 ^ f.w - 1) * 2 ^ f.lo)) 0

/-- The mask of a register's Img fields. -/
def imgMask (r : RegName) : Nat := maskOf (r.fields.filter (·.img))

/-- The bits of a register that records of the device part, or of a partition part, may set (R345, R349, R351). -/
def ownMask (device : Bool) (r : RegName) : Nat :=
  if device then
    match r with
    | .GLB_REPLAY_CLASS | .SCH_ROUND_CFG | .SLC_RT_CFG | .SLC_LNK_CFG | .SCH_SYNC_CFG | .SCH_ASYM | .SLC_PORT_CFG
    | .SLC_PORT_EPID | .SLC_NBR | .SLC_NBRM | .SLC_EDGE | .SLC_PWGT => imgMask r
    | .SLC_STAGE => maskOf [F.SLC_STAGE_SIZE_KIB]
    | .SLC_POOL_CFG => maskOf [F.SLC_POOL_CFG_BASE, F.SLC_POOL_CFG_SIZE]
    | .SLC_LSR_CTRL => maskOf [F.SLC_LSR_CTRL_EN, F.SLC_LSR_CTRL_OUT_EN]
    | _ => 0
  else
    match r with
    | .GLB_MG_MODE | .GLB_MG_DRAIN_DEST | .SLC_RT_ORD | .SCH_CTX_CFG | .SCH_CTX_PERIOD | .SCH_CTX_RLIM | .RC_BIND | .SCH_SLOT
    | .SLC_C7RT | .SLC_CWGT | .SLC_QTHR | .SLC_QCOL | .SLC_PSHP | .SLC_TSHP | .SLC_QSHP | .SLC_POL_CFG | .SLC_POL_SIZE
    | .SLC_POLMAP => imgMask r
    | .SLC_POOL_CFG => maskOf [F.SLC_POOL_CFG_RESERVE, F.SLC_POOL_CFG_ORIG_RSV]
    | _ => 0

/-- Whether a register of partition p's records lies within its grants (R345, R351). A pool's partition is its number;
pool 16 belongs to no partition and takes its RESERVE from any (log entry 24). -/
def granted (d : PartX) (portOf : Nat → Nat → Nat) (p : Nat) (r : RegName) (i j k v : Nat) : Bool :=
  let port (x : Nat) := d.ports.any fun g => g.1 == x && g.2 == p
  match r with
  | .GLB_MG_MODE | .GLB_MG_DRAIN_DEST => i == p
  | .SLC_RT_ORD | .SLC_CWGT => j == p
  | .SLC_POOL_CFG => j == p || j == 16
  | .SCH_CTX_CFG => lookupKey d.contexts i == some p && v % 16 == p
  | .SCH_CTX_PERIOD | .SCH_CTX_RLIM => lookupKey d.contexts i == some p
  | .RC_BIND => lookupKey d.cores i == some p
  | .SCH_SLOT => port i
  | .SLC_C7RT => !bitOf v 32 || lookupKey d.contexts (v % 4096) == some p
  | .SLC_QTHR | .SLC_QCOL | .SLC_QSHP => j / 8 % 16 == p && port (portOf i (j / 128))
  | .SLC_TSHP | .SLC_POLMAP => k == p && port (portOf i j)
  | .SLC_PSHP => port (portOf i j)
  | _ => true

/-- One REG value is allowed (R351): the register has bits of the part, no other bit is set, the grants hold. -/
def regOk (d : PartX) (portOf : Nat → Nat → Nat) (part : Nat) (e : (RegName × Nat × Nat × Nat) × Nat) : Bool :=
  let m := ownMask (part == 16) e.1.1
  let rest := 2 ^ 64 - 1 - m
  let v := e.2
  m != 0 && (Nat.land v rest == 0 || Nat.land v rest == Nat.land (e.1.1.resetAt e.1.2.1).toNat rest)
    && (part == 16 || granted d portOf part e.1.1 e.1.2.1 e.1.2.2.1 e.1.2.2.2 v)

/-- One record is in scope (R350, R351). -/
def recOk (d : PartX) (portOf : Nat → Nat → Nat) (r : Rec) : Bool :=
  if r.typ = 1 then
    match recRegs r with
    | some l => l.all (regOk d portOf r.part)
    | none => false
  else if r.typ = 2 then r.id == 0x23 && lookupKey d.cores (leAt r.body 0 2) == some r.part && decide (4 ≤ r.body.length)
  else
    let t := leAt r.body 0 2
    let i := leAt r.body 2 2
    if t = 5 then r.id == 6 else if t = 6 then r.id == 7 else if t = 7 then r.id == 0x28
    else if t = 1 ∨ t = 4 then r.id == 0x21 && lookupKey d.contexts i == some r.part
    else if t = 2 ∨ t = 3 then r.id == 0x22 && lookupKey d.contexts i == some r.part
    else false

/-- A shaper value with RATE and BURST 0 replaced by 1 (R280). -/
def clampShaper (v : Nat) : Nat :=
  putBits (putBits v 0 16 (max 1 (bitsOf v 0 16))) 16 20 (max 1 (bitsOf v 16 20))

/-- The bits a REG value sets, merged into the Img bits of its register. -/
def mergeReg (part : Nat) (m : List (Nat × BitVec 64)) (e : (RegName × Nat × Nat × Nat) × Nat) : List (Nat × BitVec 64) :=
  let r := e.1.1
  if r = .SLC_LSR_CTRL then m
  else
    let a := r.addr e.1.2.1 e.1.2.2.1 e.1.2.2.2
    let own := BitVec.ofNat 64 (ownMask (part == 16) r)
    let v := if r = .SLC_PSHP ∨ r = .SLC_TSHP ∨ r = .SLC_QSHP then clampShaper e.2 else e.2
    writeKey 0#64 m a ((readKey 0#64 m a &&& ~~~own) ||| ((BitVec.ofNat 64 v ^^^ r.resetAt e.1.2.1) &&& own))

/-- Numbers of n bytes each. -/
def numbers (n : Nat) : (count : Nat) → Bytes → List Nat
  | 0, _ => []
  | k + 1, b => leAt b 0 n :: numbers n k (b.drop n)

/-- The children of a tree record: a child's coordinates are bits [11:0] of its 2 bytes, X, Y and Z as in an address; bits [15:12]
are passed over (log entry 93). -/
def parseChildren : (count : Nat) → Bytes → List Child
  | 0, _ => []
  | k + 1, b => ⟨leAt b 0 2 % 4096, leAt b 2 1⟩ :: parseChildren k (b.drop 3)

/-- A tree record (R350). -/
def parseTree (b : Bytes) : Tree := ⟨leAt b 0 3, leAt b 3 3, leAt b 6 1, parseChildren (leAt b 7 1) (b.drop 8), []⟩

/-- The stages of a plan record. -/
def parseStages : (count : Nat) → Bytes → List Stage
  | 0, _ => []
  | k + 1, b => ⟨leAt b 0 1, numbers 1 (leAt b 1 1) (b.drop 2)⟩ :: parseStages k (b.drop (2 + leAt b 1 1))

/-- A plan takes its place at its tree. -/
def placePlan (ts : List Tree) (b : Bytes) : List Tree :=
  ts.modify (leAt b 0 2) fun t => { t with plan := parseStages (leAt b 2 1) (b.drop 3) }

/-- The relay entry (R459). -/
def parseRelay (b : Bytes) : RelayX :=
  { up := if bitOf (leAt b 0 2) 15 then some (leAt b 0 2 % 4096) else none, part := leAt b 2 1, auto := bitOf (leAt b 4 1) 0,
    down := (numbers 2 (min 8 (leAt b 3 1)) (b.drop 8)).map fun v => (v % 4096, v / 4096) }

/-- One record's table or code taken into an image. -/
def takeRec (i : Image) (r : Rec) : Image :=
  if r.typ = 2 then { i with code := i.code ++ [(leAt r.body 0 2, leAt r.body 2 2, r.body.drop 4)] }
  else if r.typ = 1 then
    match recRegs r with
    | some l =>
      { i with regs := l.foldl (mergeReg r.part) i.regs,
               lasers := i.lasers ++ (l.filter fun e => e.1.1 == RegName.SLC_LSR_CTRL).map fun e => (e.1.2.1, e.2) }
    | none => i
  else
    let c := leAt r.body 2 2
    let b := r.body.drop 4
    match leAt r.body 0 2 with
    | 1 => { i with members := insertKey i.members c (numbers 3 (leAt b 0 4) (b.drop 4)) }
    | 2 => { i with trees := insertKey i.trees c (i.treesOf c ++ [parseTree b]) }
    | 3 => { i with trees := insertKey i.trees c (placePlan (i.treesOf c) b) }
    | 4 => { i with experts := insertKey i.experts c (numbers 3 4096 b) }
    | 5 => { i with relay := parseRelay b }
    | _ => i

/-! Digests and images -/

/-- Sections of one part. -/
def partSections (l : List Section) (p : Nat) : List Section := l.filter fun x => x.part == p

/-- A section as it enters a digest (R346). -/
def sectionHash (x : Section) : Bytes := beBytes 2 x.id ++ beBytes 8 x.bytes.length ++ x.bytes

/-- The device digest D. -/
def deviceDigest (l : List Section) : Bytes := sha3 (0x20#8 :: (partSections l 16).flatMap sectionHash)

/-- The digest P_p, that of the undefined partition when it has no section (R346). -/
def partitionDigest (l : List Section) (p : Nat) : Bytes :=
  sha3 (0x21#8 :: BitVec.ofNat 8 p :: deviceDigest l ++ (partSections l p).flatMap sectionHash)

/-- The partitions an image defines: those with sections. -/
def definedParts (l : List Section) : List Nat := (List.range 16).filter fun p => l.any fun x => x.part == p

/-- The sections of a part as (ID, contents). -/
def rawSections (l : List Section) (p : Nat) : List (Nat × Bytes) := (partSections l p).map fun x => (x.id, x.bytes)

/-- The matters of the device part. -/
def deviceOf (l : List Section) : PartX := if (partSections l 16).isEmpty then {} else Config.deviceMatters (rawSections l 16)

/-- A register's value under an image's Img bits. -/
def imgReg (m : List (Nat × BitVec 64)) (r : RegName) (i : Nat := 0) (j : Nat := 0) (k : Nat := 0) : Nat :=
  (readKey 0#64 m (r.addr i j k) ^^^ r.resetAt i).toNat

/-- The logical ports that an image defines, as (slice, local port). -/
def imgPorts (m : List (Nat × BitVec 64)) : List (Nat × Nat) :=
  ((List.range 256).map fun e => (e / 16, e % 16)).filter fun e =>
    bitsOf (imgReg m .SLC_PORT_CFG e.1 e.2) F.SLC_PORT_CFG_VALID.lo 1 == 1

/-- Img bits of one field set. -/
def imgSet (m : List (Nat × BitVec 64)) (f : Fld) (v i : Nat) (j : Nat := 0) : List (Nat × BitVec 64) :=
  writeKey 0#64 m (f.reg.addr i j) (BitVec.ofNat 64 (putBits (imgReg m f.reg i j) f.lo f.w v) ^^^ f.reg.resetAt i)

/-- What the loader itself gives a state's image: the record mode Lossless to a defined partition without one (R18, R351), the
staging of a port without one (R233; log entry 97), and the output scheduling, WFQ with more than 128 ports (R18, R277). -/
def deriveRegs (l : List Section) (sets : RegName → Nat → Nat → Bool) (m0 : List (Nat × BitVec 64)) : List (Nat × BitVec 64) :=
  let m1 := (definedParts l).foldl (fun m p => if sets .GLB_MG_MODE p 0 then m else writeKey 0#64 m (RegName.GLB_MG_MODE.addr p) 2#64) m0
  let ports := imgPorts m1
  let m2 := ports.foldl (fun m e =>
    if sets .SLC_STAGE e.1 e.2 then m
    else imgSet m F.SLC_STAGE_SIZE_KIB (64 * 2 ^ bitsOf (imgReg m .SLC_PORT_CFG e.1 e.2) F.SLC_PORT_CFG_WIDTH.lo F.SLC_PORT_CFG_WIDTH.w)
      e.1 e.2) m1
  (List.range 16).foldl (fun m n => imgSet m F.SLC_SCHED_CFG_MODE (b2n (decide (128 < ports.length))) n) m2

/-- The image made of sections. -/
def buildImage (l : List Section) (rs : List Rec) (packages : List Bytes) : Image :=
  let d := deviceOf l
  let base : Image :=
    { sections := l, device := d, parts := (definedParts l).map fun p => (p, Config.partMatters p (rawSections l p)),
      packages := packages }
  let sets (r : RegName) (i j : Nat) := rs.any fun q => match recRegs q with
    | some m => m.any fun e => e.1.1 == r && e.1.2.1 == i && e.1.2.2.1 == j
    | none => false
  let plan (r : Rec) := r.typ == 3 && leAt r.body 0 2 == 3
  let i := ((rs.filter fun r => !plan r) ++ rs.filter plan).foldl takeRec base
  { i with regs := deriveRegs l sets i.regs }

/-- Registers whose Img bits differ from their defaults, with their indices. -/
def Image.regList (i : Image) : List (RegName × Nat × Nat × Nat) := i.regs.filterMap fun e => regAt e.1

namespace State

/-- Img bits of registers replaced by those of an image (R351, R357). Shapers take them into their shadow too (R359). -/
def loadRegs (s : State) (old new : List (Nat × BitVec 64)) : State :=
  (old ++ new).foldl (fun a e =>
    match regAt e.1 with
    | some r =>
      let v := readKey 0#64 new e.1
      if readKey 0#64 old e.1 = v then a
      else
        let m := BitVec.ofNat 64 (imgMask r.1)
        let put (t : List (Nat × BitVec 64)) := writeKey 0#64 t e.1 ((readKey 0#64 t e.1 &&& ~~~m) ||| v)
        let b : State := { a with regs := put a.regs }
        if r.1 = .SLC_PSHP ∨ r.1 = .SLC_TSHP ∨ r.1 = .SLC_QSHP then { b with shadow := put b.shadow } else b
    | none => a) s

end State

end Sys2Proof.Machine
end

