-- ==== Sys2Proof/Machine/Checks.lean ====
section
/-! DEFINITION. The loader's checks of an image in the order of R355 and R490. Each check is applied to the state that the
commit would make, and answers the sites that fail it. -/

namespace Sys2Proof.Machine

namespace State

/-- Indices of the registers of one name that the image sets. -/
def setsOf (t : State) (r : RegName) : List (Nat × Nat × Nat) := (t.image.regList.filter fun e => e.1 == r).map (·.2)

/-- Sites of registers of one name whose indices fail a condition. -/
def failing (t : State) (r : RegName) (bad : Nat → Nat → Nat → Bool) : List Site :=
  ((t.setsOf r).filter fun e => bad e.1 e.2.1 e.2.2).map fun e => Site.reg (r.addr e.1 e.2.1 e.2.2)

/-- Contexts the image defines. -/
def imageCtxs (t : State) : List Nat := (t.setsOf .SCH_CTX_CFG).map (·.1)

/-- A context's SCH_CTX_CFG as a site. -/
def ctxSite (c : Nat) : Site := .reg (RegName.SCH_CTX_CFG.addr c)

/-- Contexts that fail a condition. -/
def badCtxs (t : State) (bad : Nat → Bool) : List Site := (t.imageCtxs.filter bad).map ctxSite

/-- Outside a range. -/
def outside (lo hi v : Nat) : Bool := decide (v < lo) || decide (hi < v)

/-- Bytes of a register that are 0. -/
def zeroByte (v n : Nat) : Bool := (List.range n).any fun i => bitsOf v (8 * i) 8 == 0

/-- IMG_ENUM (R355). -/
def chkEnum (t : State) : List Site :=
  t.failing .GLB_MG_MODE (fun p _ _ => t.fld F.GLB_MG_MODE_MODE p == 3)
    ++ t.failing .SCH_SYNC_CFG (fun _ _ _ => t.fld F.SCH_SYNC_CFG_SOURCE == 3)
    ++ t.badCtxs fun c => decide (8 < t.fld F.SCH_CTX_CFG_IN_FMT c) || decide (8 < t.fld F.SCH_CTX_CFG_OUT_FMT c)
      || decide (9 < t.kind c)

/-- IMG_RANGE: fields outside the ranges of their maps, and the classes of R489. A default that another field's value puts out of
range counts, as the colour limits above a lowered QMAX; the staging of a valid port is 64 KiB a lane (R4, R233). -/
def chkRange (t : State) : List Site :=
  let rl := 2 ^ t.fld F.SCH_ROUND_CFG_LOG2_LEN
  let ctx (c : Nat) :=
    outside 1 1048576 (t.tiles c) || decide (5 < t.fld F.SCH_CTX_CFG_OP c) || t.fld F.SCH_CTX_CFG_ROUND c == 3
      || (if t.scheduled c then t.fld F.SCH_CTX_CFG_ACLASS c != 0 || t.fld F.SCH_CTX_PERIOD_PERIOD c == 0
          else decide (5 < t.fld F.SCH_CTX_CFG_ACLASS c) || t.fld F.SCH_CTX_PERIOD_PERIOD c != 0)
  let mark (lo v : Nat) := outside lo 12288 v && v != 0x3FFF
  let limitsBad (n q : Nat) := outside 9 (t.fld F.SLC_QTHR_QMAX n q) (t.fld F.SLC_QCOL_YMAX n q)
    || outside 9 (t.fld F.SLC_QCOL_YMAX n q) (t.fld F.SLC_QCOL_RMAX n q)
  t.failing .SCH_ROUND_CFG (fun _ _ _ => outside 10 16 (t.fld F.SCH_ROUND_CFG_LOG2_LEN)
      || outside 64 (rl / 4) (t.fld F.SCH_ROUND_CFG_GUARD) || t.fld F.SCH_ROUND_CFG_CATCHUP == 0)
    ++ t.failing .SCH_SYNC_CFG (fun _ _ _ => t.fld F.SCH_SYNC_CFG_HOLD_EPOCHS == 0)
    ++ t.failing .SLC_RT_CFG (fun n _ _ => t.fld F.SLC_RT_CFG_HOP_LIMIT n == 0 || outside 1 32000 (t.fld F.SLC_RT_CFG_LIFE n))
    ++ t.failing .SLC_NBRM (fun n d v => decide (8 < t.fld F.SLC_NBRM_NLINKS n d v))
    ++ t.failing .SLC_POOL_CFG (fun n i _ => outside 0 12287 (t.fld F.SLC_POOL_CFG_BASE n i)
      || outside 0 12288 (t.fld F.SLC_POOL_CFG_SIZE n i)
      || outside (t.fld F.SLC_POOL_CFG_ORIG_RSV n i) (t.fld F.SLC_POOL_CFG_SIZE n i) (t.fld F.SLC_POOL_CFG_RESERVE n i))
    ++ t.failing .SLC_PWGT (fun n k _ => zeroByte (t.rd .SLC_PWGT n k) 8)
    ++ t.failing .SCH_CTX_RLIM (fun c _ _ => outside 1 6400 (t.fld F.SCH_CTX_RLIM_RATE_MAX c)
      || outside 1 (t.fld F.SCH_CTX_RLIM_RATE_MAX c) (t.fld F.SCH_CTX_RLIM_RATE_MIN c))
    ++ t.badCtxs ctx
    ++ t.failing .RC_BIND (fun n e _ => t.flag F.RC_BIND_VALID n e &&
      (outside 1 1792 (t.fld F.RC_BIND_WIN_SIZE n e) || decide (t.fld F.RC_BIND_WIN_BASE n e < 256)))
    ++ t.failing .SCH_SLOT (fun x e _ => t.flag F.SCH_SLOT_VALID x e && (t.fld F.SCH_SLOT_LEN x e == 0
      || decide (rl - t.fld F.SCH_ROUND_CFG_GUARD ≤ t.fld F.SCH_SLOT_OFFSET x e)))
    ++ t.failing .SLC_PORT_CFG (fun n j _ => t.flag F.SLC_PORT_CFG_VALID n j
      && t.fld F.SLC_STAGE_SIZE_KIB n j != 64 * 2 ^ t.fld F.SLC_PORT_CFG_WIDTH n j)
    ++ t.failing .SLC_CWGT (fun n p _ => zeroByte (t.rd .SLC_CWGT n p) 7)
    ++ t.failing .SLC_QTHR (fun n q _ => mark 1 (t.fld F.SLC_QTHR_MARK_LO n q)
      || mark (t.fld F.SLC_QTHR_MARK_LO n q) (t.fld F.SLC_QTHR_MARK_HI n q) || outside 9 12288 (t.fld F.SLC_QTHR_QMAX n q))
    ++ t.failing .SLC_QCOL (fun n q _ => limitsBad n q)
    ++ t.failing .SLC_QTHR (fun n q _ => limitsBad n q)
    ++ t.failing .SLC_POL_CFG (fun n k _ => t.flag F.SLC_POL_CFG_EN n k
      && (t.fld F.SLC_POL_CFG_CIR n k == 0 || t.fld F.SLC_POL_CFG_PIR n k == 0))

/-- ADDR_RANGE: own and members' coordinates beyond the dimension sizes, endpoint addresses above 17 bits (R23, R255). -/
def chkAddr (t : State) : List Site :=
  let off (c : Nat) := (List.range 3).any fun d => decide (t.dimSize d ≤ coordOf (c * 32) d)
  (if off t.coord then [.reg (RegName.SLC_RT_CFG.addr)] else [])
    ++ (t.image.members.filter fun m => m.2.any fun a => decide (131072 ≤ a) || off (a / 32 % 4096)).map fun m =>
      Site.table ((t.image.ctxOwner m.1).getD 16) 1 m.1

/-- CLASS_UNSUPPORTED (R30). -/
def chkClass (t : State) : List Site :=
  let v := t.rd .GLB_REPLAY_CLASS
  let ok := v == 0x01A00101010000A0 || (v == 0x01A10202010000A1 && t.fld F.GLB_ID_STEPPING != 0xA0)
  if ok then [] else [.reg (RegName.GLB_REPLAY_CLASS.addr)]

/-- IMG_PORT: ports that overlap or are not aligned to their width (R293). -/
def chkPort (t : State) : List Site :=
  (List.range 16).flatMap fun n =>
    let js := (t.slicePorts n).map (·.2)
    let first (j : Nat) := t.fld F.SLC_PORT_CFG_FIRST_LANE n j
    let width (j : Nat) := 2 ^ t.fld F.SLC_PORT_CFG_WIDTH n j
    (js.filter fun j => first j % width j != 0 || js.any fun k => k != j && decide (first j < first k + width k)
      && decide (first k < first j + width j)).map fun j => .reg (RegName.SLC_PORT_CFG.addr n j)

/-- IMG_NEIGHBOUR (R16, R256): the tables of the slices that have coordinate records, with the dimension sizes of slice 0 (log
entry 90). -/
def chkNeighbour (t : State) : List Site :=
  let edges := (t.setsOf .SLC_PORT_CFG).filter fun e => t.flag F.SLC_PORT_CFG_VALID e.1 e.2.1
    && t.flag F.SLC_PORT_CFG_ROLE e.1 e.2.1
  let hasCoord (n : Nat) := (t.setsOf .SLC_NBRM).any (fun e => e.1 == n) || (t.setsOf .SLC_RT_CFG).any fun e => e.1 == n
  let dv := (List.range 3).flatMap fun d => (List.range 16).map fun v => (d, v)
  let listed (n d v : Nat) := (List.range (t.fld F.SLC_NBRM_NLINKS n d v)).map fun k =>
    bitsOf (t.rd .SLC_NBR n d v) (8 * k) 8
  (if 32 < edges.length then edges.map fun e => .reg (RegName.SLC_PORT_CFG.addr e.1 e.2.1) else [])
    ++ ((List.range 16).filter hasCoord).flatMap fun n =>
      (dv.filter fun e =>
        let k := t.fld F.SLC_NBRM_NLINKS n e.1 e.2
        let neighbour := decide (e.2 < t.dimSize e.1) && e.2 != coordOf t.ownAddr e.1
        (neighbour && (k == 0 || decide (8 < k)))
          || (listed n e.1 e.2).any fun x => dv.any fun f => f != e && (listed n f.1 f.2).contains x).map fun e =>
        .reg (RegName.SLC_NBRM.addr n e.1 e.2)

/-- IMG_TIME_TREE (R145). -/
def chkTime (t : State) : List Site :=
  let src := t.fld F.SCH_SYNC_CFG_SOURCE
  let pv := t.flag F.SCH_SYNC_CFG_PARENT_VALID
  let bv := t.flag F.SCH_SYNC_CFG_BACKUP_VALID
  let p := t.fld F.SCH_SYNC_CFG_PARENT
  let b := t.fld F.SCH_SYNC_CFG_BACKUP
  if (src == 2 && !pv) || (pv && !t.fabric p) || (bv && !t.fabric b) || (pv && bv && p == b) || (src == 0 && (pv || bv)) then
    [.reg (RegName.SCH_SYNC_CFG.addr)]
  else []

/-- IMG_GRANT: an exclusive resource, or a context ID, granted twice; slot windows of two partitions that overlap on a
port (R13, R109). -/
def chkGrant (t : State) : List Site :=
  let d := t.image.device
  let twice (l : List (Nat × Nat)) := !noPair (fun x y => x.1 == y.1 && x.2 != y.2) l
  let edge := d.ports.filter fun g => !t.fabric g.1
  let windows := !noPair (fun (x y : Nat × Nat × Nat × Nat) => x.1 == y.1 && x.2.1 != y.2.1 && decide (x.2.2.1 ≤ y.2.2.2)
    && decide (y.2.2.1 ≤ x.2.2.2)) d.windows
  if twice d.cores || twice d.contexts || twice edge || windows then [.matter 16 4] else []

/-- The lossless grants of a port in KiB, over partitions and classes, with the management grant of a fabric port (R235,
R336). -/
def portGrants (t : State) (x : Nat) : Nat :=
  t.image.parts.foldl (fun a p => (p.2.credits.filter fun g => g.1 == x).foldl (fun b g => b + g.2.2) a) 0
    + (if t.fabric x then 16 else 0)

/-- The largest number of copies that one frame of partition p can place in a slice's pool (R132, R235, R487): one where it has a
port there; of a context's frames, those that fall to members and children, those for the cores of its plans, and those of its
tiles for other members (R89, R124, R125). -/
def mostCopies (t : State) (n p : Nat) : Nat :=
  let here (x : Nat) := t.sliceOf x == n
  let anyFabric := t.allPorts.any fun x => here x && t.fabric x
  (t.imageCtxs.filter fun c => t.image.ctxOwner c == some p).foldl (fun a c =>
    let k := t.kind c
    let trees := t.image.treesOf c
    let locals := t.localMembers c
    let members := locals.countP fun m => here (t.fld F.SLC_EDGE_PORT 0 m.1)
    let ranks := members + (if anyFabric then t.ranks c - locals.length else 0)
    let chunk := max 1 (8192 / max 1 (t.tileBytes c false + t.wordBytes c))
    let falls := trees.foldl (fun b r => b + r.children.countP fun q => here q.port) members
    let stages (r : Tree) := r.plan.countP fun g => g.slice == n
    let cores := max (min chunk (trees.countP fun r => stages r != 0)) (trees.foldl (fun b r => max b (stages r)) 0)
    max a (max (if [0, 2, 3, 4, 5, 7].contains k then falls else 0) (max (if [0, 1, 3, 7].contains k then cores else 0)
      (if k = 6 then min chunk ranks else if k = 8 then chunk * min 8 ranks + ranks
        else if k = 9 ∧ ranks ≠ 0 then chunk else 0))))
    (b2n (t.image.device.ports.any fun g => g.2 == p && here g.1))

/-- IMG_POOL (R235, R237, R336). -/
def chkPool (t : State) : List Site :=
  let base (n i : Nat) := t.fld F.SLC_POOL_CFG_BASE n i
  let size (n i : Nat) := t.fld F.SLC_POOL_CFG_SIZE n i
  let fabrics := (t.allPorts.filter t.fabric).length
  (List.range 16).flatMap fun n =>
    ((List.range 17).filter fun i =>
      let z := size n i
      let past := decide (0 < z) && (decide (12288 < base n i + z) || (List.range 17).any fun k =>
        k != i && decide (0 < size n k) && decide (base n i < base n k + size n k) && decide (base n k < base n i + z))
      let grants := t.allPorts.foldl (fun a x => a + ((t.image.partOf i).credits.filter fun g => g.1 == x).foldl
        (fun b g => b + g.2.2) 0) 0
      let short := decide (i < 16)
        && decide (t.fld F.SLC_POOL_CFG_RESERVE n i < t.fld F.SLC_POOL_CFG_ORIG_RSV n i + grants * t.mostCopies n i)
      past || short || (i == 16 && decide (z < 16 * fabrics))).map fun i => .reg (RegName.SLC_POOL_CFG.addr n i)

/-- IMG_CREDIT (R235, R336). -/
def chkCredit (t : State) : List Site :=
  (t.setsOf .SLC_PORT_CFG).filterMap fun e =>
    let x := t.fld F.SLC_PORT_CFG_LPORT e.1 e.2.1
    if t.flag F.SLC_PORT_CFG_VALID e.1 e.2.1 ∧ t.fld F.SLC_STAGE_SIZE_KIB e.1 e.2.1 < t.portGrants x then
      some (.reg (RegName.SLC_STAGE.addr e.1 e.2.1)) else none

/-- IMG_LOSSY_ADAPTIVE (R235, R489). -/
def chkLossy (t : State) : List Site :=
  t.badCtxs fun c => !t.scheduled c && !(t.image.partOf (t.ctxPart c)).lossless.contains (t.fld F.SCH_CTX_CFG_ACLASS c)

/-- The bytes of one tile in each form in which a context's tiles leave a port (R156, R487): results on an edge port; on a fabric
port those of the frames whose class 7 routes lead there, to the parent, to a child, or in passing. -/
def formsOn (t : State) (c x : Nat) : List Nat :=
  let k := t.kind c
  let w := t.wordBytes c
  let out := t.tileBytes c true + (if k = 8 then w else 0)
  if k = 5 then []
  else if ¬ t.fabric x then [out]
  else if [6, 8, 9].contains k then [t.tileBytes c false + w]
  else
    let trees := t.image.treesOf c
    let up := if [0, 1, 3, 7].contains k then [t.upTileBytes c] else []
    let down := if [0, 2, 3, 4, 7].contains k then [out] else []
    let routed := ((t.setsOf .SLC_C7RT).filter fun e => t.flag F.SLC_C7RT_VALID e.1 e.2.1
      && t.fld F.SLC_C7RT_CTX e.1 e.2.1 == c && t.fld F.SLC_C7RT_PORT e.1 e.2.1 == x).map fun e => t.fld F.SLC_C7RT_DEST_Y5 e.1 e.2.1
    routed.flatMap fun d =>
      let above := trees.any fun r => r.parent != 0xFF && t.parentCoord r == d
      let below := trees.any fun r => r.children.any fun q => q.coord == d
      (if above || !below then up else []) ++ (if below || !above then down else [])

/-- The largest payload of a context's frames on a port: a full chunk of the largest form there, or the exponents of such a chunk
(R156, R179). -/
def mostPayload (t : State) (c x : Nat) : Nat :=
  let big := (t.formsOn c x).foldl max 0
  let exact := [0, 1, 3, 7].contains (t.kind c) && t.flag F.SCH_CTX_CFG_ARITH c && t.fld F.SCH_CTX_CFG_OP c == 0 && t.fabric x
  let form := max big (if exact then t.upTileBytes c else 0)
  let n := max 1 (min (t.image.ctxX c).chunk (8192 / max 1 form))
  max (n * big) (if exact then n * max 1 (t.tileElems c / 32) else 0)

/-- Ticks of a context's largest frame on a port. -/
def largestFrame (t : State) (c x : Nat) : Nat :=
  let lanes := match t.portAt x with
    | some (n, j) => 2 ^ t.fld F.SLC_PORT_CFG_WIDTH n j
    | none => 1
  ceilDiv (t.mostPayload c x + 64) (50 * lanes)

/-- IMG_SLOT (R156). -/
def chkSlot (t : State) : List Site :=
  let span := 2 ^ t.fld F.SCH_ROUND_CFG_LOG2_LEN - t.fld F.SCH_ROUND_CFG_GUARD
  t.failing .SCH_SLOT fun x e _ => t.flag F.SCH_SLOT_VALID x e &&
    (let o := t.fld F.SCH_SLOT_OFFSET x e
     let l := t.fld F.SCH_SLOT_LEN x e
     let c := t.fld F.SCH_SLOT_CTX x e
     decide (span < o + l) || (t.portAt x).isNone || !t.imageCtxs.contains c || !t.scheduled c
       || decide (l < (t.fld F.SCH_SLOT_NFR x e + 1) * t.largestFrame c x)
       || (t.setsOf .SCH_SLOT).any fun f => f.1 == x && f.2.1 != e && t.flag F.SCH_SLOT_VALID x f.2.1
         && decide (o < t.fld F.SCH_SLOT_OFFSET x f.2.1 + t.fld F.SCH_SLOT_LEN x f.2.1)
         && decide (t.fld F.SCH_SLOT_OFFSET x f.2.1 < o + l))

/-- IMG_SLOT_WINDOW. -/
def chkWindow (t : State) : List Site :=
  t.failing .SCH_SLOT fun x e _ => t.flag F.SCH_SLOT_VALID x e &&
    !(t.image.device.windows.any fun w => w.1 == x && w.2.1 == t.ctxPart (t.fld F.SCH_SLOT_CTX x e)
      && decide (w.2.2.1 ≤ t.fld F.SCH_SLOT_OFFSET x e)
      && decide (t.fld F.SCH_SLOT_OFFSET x e + t.fld F.SCH_SLOT_LEN x e ≤ w.2.2.2 + 1))

/-- Kinds with arithmetic (R121). -/
def reduces (k : Nat) : Bool := [0, 1, 3, 7, 9].contains k

/-- A block-scaled bit that R65 does not permit for a format. -/
def scaleBad (fmt : Nat) (scaled : Bool) : Bool :=
  (decide (fmt ≤ 2) && scaled) || ([5, 6, 7].contains fmt && !scaled)

/-- IMG_OP_FORMAT (R84, R489). -/
def chkFormat (t : State) : List Site :=
  t.badCtxs fun c =>
    let op := t.fld F.SCH_CTX_CFG_OP c
    let a := t.fld F.SCH_CTX_CFG_IN_FMT c
    let b := t.fld F.SCH_CTX_CFG_OUT_FMT c
    let sa := t.flag F.SCH_CTX_CFG_SCALED c
    let sb := t.flag F.SCH_CTX_CFG_OUT_SCALED c
    let same := a == b && sa == sb
    scaleBad a sa || scaleBad b sb
      || (if reduces (t.kind c) && op == 0 then false
          else if reduces (t.kind c) then !same || sa || !([0, 1, 2, 3, 4, 8].contains a)
          else op != 0 || !same)
      || ((t.kind c == 7 || t.kind c == 9) && op != 0)

/-- IMG_RESULT_SCALE (R85). -/
def chkScale (t : State) : List Site :=
  (t.imageCtxs.filter fun c =>
    let v := (t.image.ctxX c).scale
    reduces (t.kind c) && t.fld F.SCH_CTX_CFG_OP c == 0 && (v % 2 ^ 31 == 0 || bitsOf v 23 8 == 255)).map fun c =>
      .matter (t.ctxPart c) 0x21

/-- IMG_EXACT_TILE (R81). -/
def chkExact (t : State) : List Site := t.badCtxs fun c => t.flag F.SCH_CTX_CFG_ARITH c && t.tileElems c % 32 != 0

/-- Each tree of each context, with the context and the tree's index. -/
def allTrees (t : State) : List (Nat × Nat × Tree) :=
  t.image.trees.flatMap fun e => e.2.zipIdx.map fun r => (e.1, r.2, r.1)

/-- Trees that fail a condition. -/
def badTrees (t : State) (id : Nat) (bad : Nat → Nat → Tree → Bool) : List Site :=
  (t.allTrees.filter fun e => bad e.1 e.2.1 e.2.2).map fun e => .table ((t.image.ctxOwner e.1).getD 16) id e.1

/-- IMG_PLAN (R87, R88). A partition owns a slice where it is granted a core of it (log entry 94). -/
def chkPlan (t : State) : List Site :=
  t.badTrees 3 fun c _ r =>
    let used := r.plan.flatMap (·.inputs)
    let have_ := (t.localMembers c).map (·.1) ++ (List.range r.children.length).map (32 + ·)
    let p := (t.image.ctxOwner c).getD 16
    let owned (n : Nat) := t.image.device.cores.any fun g => g.1 / 32 == n && g.2 == p
    outside 1 16 r.plan.length || r.plan.any (fun g => g.inputs.isEmpty || !owned g.slice)
      || !noPair (fun a b => a == b) used || used.any (fun i => !have_.contains i) || have_.any fun i => !used.contains i

/-- IMG_TREE (R355). -/
def chkTree (t : State) : List Site :=
  t.badTrees 2 fun c i r =>
    decide (45 < r.children.length) || (r.parent != 0xFF && !t.fabric r.parent)
      || r.children.any (fun k => k.coord == t.coord || (List.range 3).any fun d =>
        decide (t.dimSize d ≤ coordOf (k.coord * 32) d))
      || !noPair (fun a b => a.coord == b.coord) r.children
      || (t.image.treesOf c).zipIdx.any fun q => q.2 != i && decide (q.1.first ≤ r.last) && decide (r.first ≤ q.1.last)

/-- IMG_TILES (R71, R124, R125). -/
def chkTiles (t : State) : List Site :=
  t.badCtxs fun c =>
    let k := t.kind c
    (k == 6 && decide (1048576 < t.ranks c * t.tb c)) || (k == 8 && decide (1048576 < t.ranks c * t.tiles c))
      || decide (2 ^ 31 < t.tiles c * t.tileElems c)

/-- IMG_BINDING (R182). -/
def chkBinding (t : State) : List Site :=
  t.failing .RC_BIND fun n e _ => t.flag F.RC_BIND_VALID n e &&
    (let c := t.fld F.RC_BIND_CTX n e
     let b := t.fld F.RC_BIND_WIN_BASE n e
     let z := t.fld F.RC_BIND_WIN_SIZE n e
     let g := t.fld F.RC_BIND_STAGE n e
     t.image.ctxOwner c != lookupKey t.image.device.cores n || decide (2048 < b + z)
       || !((t.image.treesOf c).any fun r => (r.plan[g]?).any fun q => q.slice == n / 32)
       || (List.range 16).any fun f => f != e && t.flag F.RC_BIND_VALID n f &&
         (let d := t.fld F.RC_BIND_CTX n f
          (d == c && t.fld F.RC_BIND_STAGE n f == g)
            || (d != c && decide (b < t.fld F.RC_BIND_WIN_BASE n f + t.fld F.RC_BIND_WIN_SIZE n f)
              && decide (t.fld F.RC_BIND_WIN_BASE n f < b + z))))

/-- IMG_C7_ROUTE (R263), as far as this image shows. -/
def chkRoute7 (t : State) : List Site :=
  t.failing .SLC_C7RT fun n e _ => t.flag F.SLC_C7RT_VALID n e &&
    (let c := t.fld F.SLC_C7RT_CTX n e
     let x := t.fld F.SLC_C7RT_PORT n e
     (t.setsOf .SLC_C7RT).any (fun f => f.1 == n && f.2.1 != e && t.flag F.SLC_C7RT_VALID n f.2.1
        && t.fld F.SLC_C7RT_CTX n f.2.1 == c && t.fld F.SLC_C7RT_DEST_Y5 n f.2.1 == t.fld F.SLC_C7RT_DEST_Y5 n e)
      || !((t.setsOf .SCH_SLOT).any fun f => f.1 == x && t.flag F.SCH_SLOT_VALID x f.2.1
        && t.fld F.SCH_SLOT_CTX x f.2.1 == c))

/-- IMG_POLICER (R284). -/
def chkPolicer (t : State) : List Site :=
  t.failing .SLC_POL_CFG (fun n k _ => decide (t.fld F.SLC_POL_CFG_PIR n k < t.fld F.SLC_POL_CFG_CIR n k)
      || decide (t.fld F.SLC_POL_SIZE_CBS n k < 8256) || decide (t.fld F.SLC_POL_SIZE_PBS n k < 8256))
    ++ t.failing .SLC_POL_SIZE fun n k _ => decide (t.fld F.SLC_POL_SIZE_CBS n k < 8256)
      || decide (t.fld F.SLC_POL_SIZE_PBS n k < 8256)

/-- IMG_CODE. -/
def chkCode (t : State) : List Site :=
  t.failing .RC_BIND (fun n e _ => t.flag F.RC_BIND_VALID n e && t.fld F.RC_BIND_ENTRY n e % 2 == 1)
    ++ (t.image.code.filter fun r => r.2.1 % 2 == 1 || decide (0x10000 < r.2.1 + r.2.2.length)).map fun r => .code r.1 r.2.1

/-- The checks of step 6 in the order of R490, each with its status. -/
def imageChecks (t : State) : List (Nat × List Site) :=
  [(0x11A, t.chkEnum), (0x107, t.chkRange), (0x41, if 4096 < t.imageCtxs.length then t.badCtxs fun _ => true else []),
   (0x44, t.chkAddr), (0x45, t.chkClass), (0x108, t.chkPort), (0x109, t.chkNeighbour), (0x10A, t.chkTime),
   (0x10B, t.chkGrant), (0x10C, t.chkPool), (0x10D, t.chkCredit), (0x10E, t.chkLossy), (0x10F, t.chkSlot),
   (0x110, t.chkWindow), (0x111, t.chkFormat), (0x112, t.chkScale), (0x113, t.chkExact), (0x114, t.chkPlan),
   (0x115, t.chkTree), (0x116, t.chkTiles), (0x117, t.chkBinding), (0x118, t.chkRoute7), (0x119, t.chkPolicer),
   (0x11B, t.chkCode)]

/-- Whether a record sets what a site names. -/
def atSite (r : Rec) : Site → Bool
  | .reg a => (recRegs r).any fun l => l.any fun e => e.1.1.addr e.1.2.1 e.1.2.2.1 e.1.2.2.2 == a
  | .table p id i => r.typ == 3 && r.part == p && leAt r.body 0 2 == id && leAt r.body 2 2 == i
  | .code n a => r.typ == 2 && leAt r.body 0 2 == n && leAt r.body 2 2 == a
  | .matter p id => r.part == p && r.id == id

/-- The record that CFG_ERR_LOC names: of those at the failing sites, the lowest section ID, then the lowest index. -/
def locate (rs : List Rec) (sites : List Site) : Option Rec :=
  (rs.filter fun r => sites.any (atSite r)).foldl (fun m r =>
    match m with
    | none => some r
    | some q => if r.id < q.id ∨ (r.id = q.id ∧ r.index < q.index) then some r else some q) none

/-- The first check that fails. -/
def firstFailure (l : List (Nat × List Site)) : Option (Nat × List Site) := l.find? fun e => !e.2.isEmpty

end State

end Sys2Proof.Machine
end

