-- ==== Sys2Proof/Machine/Hello.lean ====
section
/-! DEFINITION. Lanes, hellos and link-local frames as sent: identity, flags, timestamps (R148, R297 to R301, R307, R308,
R316, R317, R334, R338). -/

namespace Sys2Proof.Machine

namespace State

/-- The hello state of a port, and its replacement. -/
def helloOf (s : State) (x : Nat) : HelloX := (s.port x).hello
def setHello (s : State) (x : Nat) (h : HelloX) : State := s.setPort x { s.port x with hello := h }

/-- Whether a port has stood in its present state for some ticks of local time (R305). -/
def heldFor (s : State) (x ticks : Nat) : Bool := decide ((s.helloOf x).enteredAt + ticks ≤ s.now)

/-- The image width of a port in lanes (R293). -/
def portWidth (s : State) (n j : Nat) : Nat := 2 ^ s.fld F.SLC_PORT_CFG_WIDTH n j

/-- The lanes of a port within its slice, by lane index (R293). -/
def portLanes (s : State) (n j : Nat) : List Nat :=
  (List.range (s.portWidth n j)).map fun i => s.fld F.SLC_PORT_CFG_FIRST_LANE n j + i

/-- Codewords a receiver's skew tolerance comes to, in ticks: 4 of 12.8 ns (R298). -/
def skewTicks : Nat := 51

/-- Whether a lane is locked and counts: LOCKED, with light, not BAD (R292, R302). -/
def laneLocked (s : State) (n l : Nat) : Bool :=
  s.fld F.SLC_LANE_STAT_LSTATE n l == 2 && s.flag F.SLC_LANE_STAT_LIGHT n l && !s.flag F.SLC_LANE_STAT_BAD n l

/-- The AM time that the lanes of a port are aligned to: that of its lowest locked lane that has seen one (log entry 17). -/
def amReference (s : State) (n j : Nat) : Option Nat :=
  ((s.portLanes n j).filter (s.laneLocked n)).findSome? fun l => (s.rxLane (n * 32 + l)).am

/-- Whether a lane is aligned with its port's reference (R298). -/
def deskewed (s : State) (n j l : Nat) : Bool :=
  match s.amReference n j, (s.rxLane (n * 32 + l)).am with
  | some a, some b => decide (a - b ≤ skewTicks) && decide (b - a ≤ skewTicks)
  | _, _ => false

/-- RX_OK: receive lanes LOCKED and deskewed, as a mask of lane indices (R307). -/
def rxOk (s : State) (n j : Nat) : Nat :=
  (s.portLanes n j).zipIdx.foldl (fun m l => if s.laneLocked n l.1 && s.deskewed n j l.1 then m + 2 ^ l.2 else m) 0

/-- The lowest-indexed lanes of a mask, as many as the largest power of two not above its count (R305, R316). -/
def lowestLanes (mask : Nat) : Nat :=
  let l := (List.range 8).filter (bitOf mask)
  (l.take (if l = [] then 0 else 2 ^ Nat.log2 l.length)).foldl (fun m i => m + 2 ^ i) 0

/-- Own WALHA_VER (R341). -/
def ownWalha (s : State) (n j : Nat) : Nat := s.fld F.SLC_WLK_STAT_VER n j

/-- Own ADDR of a hello (R307). -/
def helloAddr (s : State) (x : Nat) : Nat :=
  if s.fabric x then s.ownAddr
  else s.ownAddr + (((List.range 32).find? fun e =>
    s.flag F.SLC_EDGE_VALID (s.sliceOf x) e && s.fld F.SLC_EDGE_PORT (s.sliceOf x) e == x).getD 0)

/-- The image digest's bytes (R307, R346). -/
def devDigest (s : State) : Bytes := (List.range 4).flatMap fun k => leBytes 8 (s.fld F.CFG_DEV_DIGEST_DIGEST k)

/-- The FLAGS of a hello (R307, R301, R316, R319). -/
def helloFlags (s : State) (n j x : Nat) : Nat :=
  let h := s.helloOf x
  let low := !s.flag F.SLC_PORT_CFG_FEC_STD n j
  b2n (h.peerSeen && !h.refuses) + 2 * b2n (s.portState x == 5) + 4 * b2n h.propOn
    + 8 * b2n (h.propOn && h.peerProp == some h.prop) + 16 * b2n (!low) + 32 * b2n h.loopReq
    + 64 * b2n (s.portState x == 6) + 128 * b2n (low && h.fecAck)

/-- The payload of a hello sent at a time in 1/16 tk (R307). -/
def helloBytes (s : State) (n j x now : Nat) : Bytes :=
  let h := s.helloOf x
  let got := h.got.getD (0, now)
  leBytes 1 1 ++ leBytes 1 (if s.fabric x then 0 else 1) ++ leBytes 2 (s.ownWalha n j) ++ leBytes 3 (s.helloAddr x)
    ++ leBytes 1 x ++ leBytes 1 (s.portWidth n j) ++ leBytes 1 (s.rxOk n j) ++ leBytes 1 h.prop
    ++ leBytes 1 (s.helloFlags n j x) ++ leBytes 4 h.seq ++ leBytes 4 got.1 ++ leBytes 4 ((now - got.2) / 16)
    ++ leBytes 8 (s.rd .GLB_REPLAY_CLASS) ++ leBytes 8 (s.rd .GLB_FW_VERSION) ++ leBytes 8 (s.rd .GLB_SERIAL)
    ++ s.devDigest ++ leBytes 16 0

/-- The time, in 1/16 tk, at which the first codeword header of a frame that starts now passes the connector plane: after
the fixed latency of R299; the fraction is that of the codeword stream, which the manual does not fix (log entry 1). -/
def txTime (s : State) (n j : Nat) : Nat :=
  16 * (s.count + (if s.flag F.SLC_PORT_STAT_FEC_NOW n j then 40 else 26)) + s.freeNat 4

/-- What a hello's sending changes (R301, R307, R309, R316). -/
def helloSent (s : State) (n j x now : Nat) : State :=
  let h := s.helloOf x
  let fl := s.helloFlags n j x
  s.setHello x { h with seq := (h.seq + 1) % 2 ^ 32, sent := h.sent ++ [(h.seq, now)],
                        seenSent := h.seenSent || bitOf fl 0,
                        txDue := if bitOf fl 3 then some h.prop else h.txDue,
                        fecTxDue := h.fecTxDue || bitOf fl 7 && s.flag F.SLC_PORT_STAT_FEC_NOW n j }

/-- A link-local frame as it starts: hellos are made up at that moment, time frames stamped (R148, R307). -/
def stamp (s : State) (n j x : Nat) (f : Frame) : State × Frame :=
  let now := s.txTime n j
  if f.typ = Frame.HELLO then ((s.helloSent n j x now).useFree, { f with payload := s.helloBytes n j x now })
  else if f.typ = Frame.TIME_REQ then
    (({ s with sync := { s.sync with t1 := some now } } : State).useFree,
     { f with payload := leBytes 8 (now / 16) ++ leBytes 1 (now % 16) ++ leBytes 7 0 })
  else if f.typ = Frame.TIME_RSP then
    (s.useFree, { f with payload := Machine.slice f.payload 0 25 ++ leBytes 8 (now / 16) ++ leBytes 1 (now % 16) ++ leBytes 6 0 })
  else (s, f)

/-- What a transmitter may send on a port that its partner has quarantined: hellos only (R312). -/
def peerQuarantined (s : State) (n j : Nat) : Bool := s.flag F.SLC_PORT_STAT_PEER_QUARANTINED n j

end State

end Sys2Proof.Machine
end

