-- ==== Sys2Proof/Machine/Pcs.lean ====
section
/-! DEFINITION. The Walha PCS: frame stream, payloads, scrambler, codewords, interleaving and PAM4 levels (R293 to R299, R303,
R304, R318 to R320, R326). Log entries 98 and 99 say what the manual leaves open of it. -/

namespace Sys2Proof.Machine

/-! Bits and symbols -/

/-- The bits of a number, most significant first. -/
def bitsMsb (w v : Nat) : List Bool := (List.range w).map fun i => bitOf v (w - 1 - i)

/-- The number that a list of bits spells, most significant first. -/
def msbNat (l : List Bool) : Nat := l.foldl (fun a b => 2 * a + b2n b) 0

/-- The bits of a byte string in the order sent (R328). -/
def byteBits (bs : Bytes) : List Bool := bs.flatMap fun b => bitsMsb 8 b.toNat

/-- A list cut into `k` pieces of `n`. -/
def cuts {α : Type} (n : Nat) : (k : Nat) → List α → List (List α)
  | 0, _ => []
  | k + 1, l => l.take n :: cuts n k (l.drop n)

/-- Bits as bytes, the first bit in bit 7. -/
def bitBytes (k : Nat) (l : List Bool) : Bytes := (cuts 8 k l).map fun c => BitVec.ofNat 8 (msbNat c)

/-! Scrambler and generator (R296, R318) -/

/-- One bit through the scrambler x^58 + x^39 + 1, whose state is the last 58 bits sent. -/
def scrambleBit (a : Nat × List Bool) (b : Bool) : Nat × List Bool :=
  let o := b != (bitOf a.1 38 != bitOf a.1 57)
  ((2 * a.1 + b2n o) % 2 ^ 58, o :: a.2)

/-- Payload bits scrambled from a state: the state after them, and the bits sent. -/
def scramble (st : Nat) (l : List Bool) : Nat × List Bool :=
  let r := l.foldl scrambleBit (st, [])
  (r.1, r.2.reverse)

/-- One bit through the descrambler, whose state is the last 58 bits received. -/
def descrambleBit (a : Nat × List Bool) (b : Bool) : Nat × List Bool :=
  ((2 * a.1 + b2n b) % 2 ^ 58, (b != (bitOf a.1 38 != bitOf a.1 57)) :: a.2)

/-- Payload bits descrambled from a state: the state after them, and the bits recovered. -/
def descramble (st : Nat) (l : List Bool) : Nat × List Bool :=
  let r := l.foldl descrambleBit (st, [])
  (r.1, r.2.reverse)

/-- `n` bits of the generator x^31 + x^28 + 1 from the last 31 bits, the first bit last (R318). -/
def prbsBits : (n st : Nat) → List Bool → Nat × List Bool
  | 0, st, out => (st, out)
  | n + 1, st, out =>
    let b := bitOf st 30 != bitOf st 27
    prbsBits n ((2 * st + b2n b) % 2 ^ 31) (b :: out)

/-! The code RS(544,514) over GF(2^10) (R294; log entry 98) -/

/-- Twice an element of GF(2^10) under x^10 + x^3 + 1. -/
def gfDouble (a : Nat) : Nat := if bitOf a 9 then Nat.xor (2 * a % 1024) 9 else 2 * a

/-- A product of GF(2^10), over the bits of b from the least significant. -/
def gfMulBits : (bits a b : Nat) → Nat
  | 0, _, _ => 0
  | k + 1, a, b => Nat.xor (if b % 2 = 1 then a else 0) (gfMulBits k (gfDouble a) (b / 2))
def gfMul (a b : Nat) : Nat := gfMulBits 10 a b

/-- A polynomial, highest coefficient first, times x − r. -/
def gfTimesRoot (p : List Nat) (r : Nat) : List Nat :=
  List.zipWith Nat.xor (p ++ [0]) (0 :: p.map (gfMul r))

/-- The generator polynomial: the product of x − α^i for i from 0 to 29, highest coefficient first. -/
def rsGenerator : List Nat :=
  ((List.range 30).foldl (fun (a : List Nat × Nat) _ => (gfTimesRoot a.1 a.2, gfDouble a.2)) ([1], 1)).1

/-- One symbol through the division by the generator, whose lower coefficients are `g`. -/
def rsStep (g : List Nat) (r : List Nat) (m : Nat) : List Nat :=
  let f := Nat.xor m (r.headD 0)
  List.zipWith Nat.xor (r.drop 1 ++ [0]) (g.map (gfMul f))

/-- The 30 parity symbols over symbols 0 to 513. -/
def rsParity (syms : List Nat) : List Nat := syms.foldl (rsStep (rsGenerator.drop 1)) (List.replicate 30 0)

/-! Codewords -/

/-- A header: SYNC of a codeword or of an AM, the lane index, and P, inverted in a link-down idle (R295, R304). -/
def pcsHeader (am down : Bool) (i : Nat) : Nat :=
  (if am then 0x1B4E else 0xE4B1) * 16 + i * 2 + b2n (((bitOf i 0 != bitOf i 1) != bitOf i 2) != down)

/-- The 544 symbols of a codeword: header, scrambled payload, parity (R294, R296). -/
def codewordOf (header : Nat) (payload : List Bool) : List Nat :=
  let syms := (cuts 10 514 (bitsMsb 20 header ++ payload)).map msbNat
  syms ++ rsParity syms

/-- Two lists taken in turn. -/
def inTurn : List Nat → List Nat → List Nat
  | a :: as, b :: bs => a :: b :: inTurn as bs
  | as, [] => as
  | [], bs => bs

/-- A codeword pair as Standard FEC sends it: symbols 2 to 543 interleaved symbol by symbol, the headers in their places
(R299). -/
def interleave (a b : List Nat) : List Nat × List Nat :=
  let m := inTurn (a.drop 2) (b.drop 2)
  (a.take 2 ++ m.take 542, b.take 2 ++ m.drop 542)

/-- The PAM4 level of a pair of bits in Gray coding (R297). -/
def pamLevel (hi lo : Bool) : BitVec 2 :=
  match hi, lo with
  | false, false => 0
  | false, true => 1
  | true, true => 2
  | true, false => 3

/-- The levels of a codeword's symbols, each most significant bit first (R297). -/
def pamLevels (syms : List Nat) : List (BitVec 2) :=
  syms.flatMap fun y => (List.range 5).map fun i => pamLevel (bitOf y (9 - 2 * i)) (bitOf y (8 - 2 * i))

namespace State

/-- The PCS state of a lane of the Y5, and its replacement. -/
def pcsLane (s : State) (g : Nat) : PcsLane := readKey {} s.pcs g
def setPcsLane (s : State) (g : Nat) (p : PcsLane) : State := { s with pcs := writeKey {} s.pcs g p }

/-! The transmitter -/

/-- A frame enters the frame stream of its port, padded to whole blocks (R326). -/
def sendFrame (s : State) (x : Nat) (b : Bytes) : State :=
  let q := s.port x
  (s.setPort x { q with txBytes := q.txBytes ++ b ++ List.replicate ((16 - b.length % 16) % 16) 0 }).emit (.frame x b)

/-- The symbols of a codeword leave on a lane: alone in Low-latency, with their partner in Standard FEC (R297, R299). `first`
says that the codeword is the first of its pair. -/
def sendSymbols (s : State) (g : Nat) (std first : Bool) (syms : List Nat) : State :=
  let p := s.pcsLane g
  if !std then s.emit (.codeword g (pamLevels syms))
  else if first then s.setPcsLane g { p with held := some syms }
  else
    match p.held with
    | none => s
    | some a =>
      let w := interleave a syms
      ((s.setPcsLane g { p with held := none }).emit (.codeword g (pamLevels w.1))).emit (.codeword g (pamLevels w.2))

/-- A payload scrambled, framed and sent on a lane (R294 to R297). -/
def sendPayload (s : State) (g : Nat) (std first : Bool) (header : Nat) (payload : List Bool) : State :=
  let p := s.pcsLane g
  let r := scramble p.txScr payload
  (s.setPcsLane g { p with txScr := r.1 }).sendSymbols g std first (codewordOf header r.2)

/-- What a port sends in a codeword period: nothing; link-down idles; or codewords that carry its stream (R303, R304, R318).
A looping port's codewords leave as they arrive (R319). -/
inductive PcsMode where
  | dark
  | down
  | stream
  | idle
  deriving DecidableEq, Repr

/-- The PCS mode of a port. -/
def pcsMode (s : State) (n j x : Nat) : PcsMode :=
  match s.portState x with
  | 0 => .dark
  | 1 => .dark
  | 7 => .down
  | 8 =>
    if s.flag F.SLC_PORT_TEST_LOOPING n j then (if (s.helloOf x).loops then .dark else .idle)
    else if s.fld F.SLC_PORT_TEST_MODE n j = 3 then .stream else .down
  | _ => if s.safe then .down else .stream

/-- The lanes of a port that carry its stream, as lane indices: the active lane list; in TEST without one, the lanes with
light (R297, R318; log entry 99). -/
def streamLanes (s : State) (n j x : Nat) : List Nat :=
  let act := (List.range (s.portWidth n j)).filter (bitOf (s.fld F.SLC_PORT_STAT_ACTIVE n j))
  if act = [] ∧ s.portState x = 8 then
    ((s.portLanes n j).zipIdx.filter fun l => s.flag F.SLC_LANE_STAT_LIGHT n l.1).map (·.2)
  else act

/-- The next payload of a port's stream: 640 bytes of frames and idle blocks (R297, R326); of the PRBS generator in the
far-end test loop, but for the hellos that ask for the loop (R318, R319; log entry 99). -/
def nextPayload (s : State) (n j x : Nat) : State × List Bool :=
  let q := s.port x
  if s.portState x = 8 ∧ s.fld F.SLC_PORT_TEST_MODE n j = 3 ∧ q.txBytes = [] then
    let r := prbsBits 5120 q.prbs []
    (s.setPort x { q with prbs := r.1 }, r.2.reverse)
  else (s.setPort x { q with txBytes := q.txBytes.drop 640 }, byteBits (Machine.slice q.txBytes 0 640))

/-- One lane of a port in a codeword period: `i` is its lane index. -/
def sendLane (s : State) (n j x i : Nat) (am first : Bool) : State :=
  let l := s.fld F.SLC_PORT_CFG_FIRST_LANE n j + i
  let std := s.flag F.SLC_PORT_STAT_FEC_NOW n j
  let lit := s.flag F.SLC_LANE_STAT_LIGHT n l
  let mode := s.pcsMode n j x
  let r := if mode = .stream ∧ (s.streamLanes n j x).contains i then s.nextPayload n j x else (s, List.replicate 5120 false)
  if mode = .dark ∨ ¬ lit then r.1
  else r.1.sendPayload (n * 32 + l) std first (pcsHeader am (decide (mode = .down)) i) r.2

/-- The codewords of a port in one period: every 4,096th of a lane is an AM (R298). -/
def sendPeriod (s : State) (x : Nat) (am first : Bool) : State :=
  match s.portAt x with
  | some (n, j) => (List.range (s.portWidth n j)).foldl (fun a i => a.sendLane n j x i am first) s
  | none => s

/-- A link-down idle on every lane of a port, as slice drain sends it at its deadline (R251, R304). -/
def sendDown (s : State) (n j : Nat) : State :=
  (List.range (s.portWidth n j)).foldl (fun a i =>
    let l := a.fld F.SLC_PORT_CFG_FIRST_LANE n j + i
    if a.flag F.SLC_LANE_STAT_LIGHT n l then
      a.sendPayload (n * 32 + l) false true (pcsHeader false true i) (List.replicate 5120 false)
    else a) s

/-! The receiver -/

/-- What a port's aligned lanes hand on: the payload of the lane whose turn it is, while it has the codeword of that turn; a
new lane list is taken as the turn comes to an AM (R297, R298, R316). A lane that has lost its place ends the alignment until
the next AMs. -/
def alignPort (s : State) (n j x : Nat) : (fuel : Nat) → State
  | 0 => s
  | f + 1 =>
    let q := s.port x
    let lanes (m : Nat) : List Nat :=
      ((List.range (s.portWidth n j)).filter (bitOf m)).map fun i => n * 32 + s.fld F.SLC_PORT_CFG_FIRST_LANE n j + i
    let mask := if (q.rxTurn = some (0, 0) ∨ q.rxTurn = none) then q.rxNext.getD q.rxActive else q.rxActive
    let ls := lanes mask
    let heads := ls.map fun g => (s.pcsLane g).queue.head?
    match q.rxTurn with
    | none =>
      if ls ≠ [] ∧ heads.all (fun h => (h.map (·.1)) == some 0) = true then
        (s.setPort x { q with rxActive := mask, rxNext := none, rxTurn := some (0, 0) }).alignPort n j x f
      else s
    | some (k, p) =>
      match ls[p]?, heads[p]? with
      | some g, some (some (k', b, bad)) =>
        let c := s.pcsLane g
        if k' = k then
          let turn := if p + 1 < ls.length then (k, p + 1) else ((k + 1) % 4096, 0)
          ((s.setPcsLane g { c with queue := c.queue.drop 1 }).setPort x { q with
            rxActive := mask, rxNext := if mask = q.rxActive then q.rxNext else none, rxTurn := some turn,
            rxStream := (q.rxStream ++ [(b, bad)]).drop (q.rxStream.length - 15) }).alignPort n j x f
        else (lanes 255).foldl (fun a h => a.setPcsLane h { a.pcsLane h with queue := [] }) (s.setPort x { q with rxTurn := none })
      | _, _ => s

/-- A corrected codeword on lane l of a port: its payload is descrambled and queued for its turn, counted from the last AM; an
uncorrectable one passes on as errored (R296 to R298, R300). -/
def receivePayload (s : State) (n j x l : Nat) (am : Bool) (payload : Bytes) (bad : Bool) : State :=
  let g := n * 32 + l
  let c := s.pcsLane g
  let r := descramble c.rxScr (byteBits (Machine.slice payload 0 640))
  let age := if am then some 0 else c.age.map fun k => (k + 1) % 4096
  let waits := (s.port x).rxTurn.isNone
  let queue :=
    match age with
    | none => []
    | some k =>
      if waits && (k == 0 || c.queue == [] || 8 ≤ c.queue.length) then (if k = 0 then [(k, bitBytes 640 r.2, bad)] else [])
      else c.queue ++ [(k, bitBytes 640 r.2, bad)]
  (s.setPcsLane g { c with rxScr := r.1, age := age, queue := queue }).alignPort n j x 64

/-- The looping end of a far-end loop sends a received codeword on, from the next AM (R319). -/
def loopCodeword (s : State) (n j x l header : Nat) (am : Bool) (payload : Bytes) : State :=
  let h := s.helloOf x
  let g := n * 32 + l
  let s1 := if am && !h.loops then s.setHello x { h with loops := true } else s
  if (s1.helloOf x).loops then
    s1.sendSymbols g (s1.flag F.SLC_PORT_STAT_FEC_NOW n j) (am || (s1.pcsLane g).held.isNone)
      (codewordOf header (byteBits (Machine.slice payload 0 640)))
  else s1

end State

/-- The codeword periods of 12.8 tk that end in the tick that begins at a local time (R294). -/
def codewordDue (now : Nat) : Bool := (now + 1) * 5 / 64 != now * 5 / 64

/-- Whether the codeword of that period is the first of a pair (R299). -/
def firstOfPair (now : Nat) : Bool := (now + 1) * 5 / 64 % 2 == 0

end Sys2Proof.Machine
end

