-- ==== Sys2Proof/Machine/Transmit.lean ====
section
/-! DEFINITION. Starting frames on a port: queues, scheduler, shapers, policers, slots and the slot clock, the header of a
transmission (R155 to R163, R274 to R289, R330, R333, R337 to R339, R342, R343). -/

namespace Sys2Proof.Machine

/-- A Larkspur slot entry (R155). -/
structure SlotX where
  entry : Nat
  offset : Nat
  len : Nat
  ctx : Nat
  nfr : Nat
  deriving DecidableEq, Repr

namespace State

/-- Bytes of the register at an offset, from its store (registers whose reset value is 0). -/
def rawReg (s : State) (a : Nat) : Nat := (readKey 0#64 s.regs a).toNat

/-- The valid slot entries of a port. -/
def slotsOf (s : State) (x : Nat) : List SlotX :=
  let b := RegName.SCH_SLOT.addr x 0
  (s.regs.filter fun e => decide (b ≤ e.1) && decide (e.1 < b + 1024)).filterMap fun e =>
    let v := e.2.toNat
    if bitOf v 50 then some ⟨(e.1 - b) / 8, bitsOf v 0 16, bitsOf v 16 16, bitsOf v 32 12, bitsOf v 44 6 + 1⟩ else none

/-- Round length, guard band, catch-up limit, running lag (R153, R160). -/
def roundLen (s : State) : Nat := 2 ^ s.fld F.SCH_ROUND_CFG_LOG2_LEN
def guardBand (s : State) : Nat := s.fld F.SCH_ROUND_CFG_GUARD
def lag (s : State) (n : Nat) : Nat := s.fld F.SCH_LAG_LAG n

/-- The first tick of a slot that is still to begin: this round at the running lag, or the next at the earliest lag it can
start with (R158). -/
def slotTick (s : State) (n : Nat) (e : SlotX) : Nat :=
  let l := s.lag n
  let k := (s.count - l) / s.roundLen
  let t := k * s.roundLen + e.offset + l
  if s.count ≤ t then t else (k + 1) * s.roundLen + e.offset + (l - s.guardBand)

/-- Whether a frame of classes 0 to 6 or a link-local frame of `bytes` payload meets R158 at port x of slice n. -/
def fits (s : State) (n x bytes : Nat) : Bool :=
  !s.flag F.SCH_LAG_PAUSED n
    && (s.slotsOf x).all fun e => decide (s.count + s.frameTicks x bytes ≤ s.slotTick n e)

/-- The head copy of a queue (R274). -/
def headOf (s : State) (x p c : Nat) : Option Copy :=
  (s.copies.filter fun k => k.phase == .queued && k.out == .port x && k.frame.part == p && k.frame.cls == c).foldl
    (fun m k => match m with
      | none => some k
      | some q => if k.seq < q.seq then some k else some q) none

/-- The next class 7 frame of a context on a port (R157). -/
def head7 (s : State) (x c : Nat) : Option Copy :=
  (s.copies.filter fun k => k.phase == .queued && k.out == .port x && k.frame.cls == 7 && k.frame.ctx == c).foldl
    (fun m k => match m with
      | none => some k
      | some q => if k.seq < q.seq then some k else some q) none

/-- The shapers on a copy's path: port, partition, queue (R276, R281). -/
def shapersOf (n j p c : Nat) : List Nat :=
  [RegName.SLC_QSHP.addr n (queueIx j p c), RegName.SLC_TSHP.addr n j p, RegName.SLC_PSHP.addr n j]

/-- RATE, BURST and EN of a shaper's register. -/
def shRate (v : Nat) : Nat := bitsOf v 0 16
def shBurst (v : Nat) : Nat := bitsOf v 16 20
def shOn (v : Nat) : Bool := bitOf v 36

/-- A shaper's TOKENS in 1/16 byte, and the view of them rounded down to bytes (R281). -/
def shTokens (s : State) (a : Nat) : Int := readKey 0 s.tokens a
def setTokens (s : State) (a : Nat) (t : Int) : State :=
  let v := s.rawReg a
  { s with tokens := writeKey 0 s.tokens a t,
           regs := writeKey 0#64 s.regs a (BitVec.ofNat 64 (putBits v 40 24 (unsignedOf 24 (t / 16)))) }

/-- Every enabled shaper on a path pays for L bytes (R281). -/
def chargeShapers (s : State) (n j p c bytes : Nat) : State :=
  (shapersOf n j p c).foldl (fun a k => if shOn (a.rawReg k) then a.setTokens k (a.shTokens k - 16 * bytes) else a) s

/-- Whether the link encrypts a partition's frames, and whether a frame is the exempt session traffic of R395. -/
def linkEnc (s : State) (x p : Nat) : Bool := (s.image.partOf p).encrypted.contains x
def partnerAddr (s : State) (x : Nat) : Nat :=
  match s.portAt x with
  | some (n, j) => s.fld F.SLC_PORT_PEER0_ADDR n j
  | none => 0
/-- The address of the other end of a port's link session: the partner Y5, or the endpoint at its edge address. -/
def linkPeer (s : State) (x : Nat) : Nat := if s.fabric x then s.partnerAddr x else s.helloAddr x
def sessionFrame (s : State) (x : Nat) (f : Frame) (dest : Nat) : Bool :=
  f.typ == Frame.CMD && leAt f.payload 1 1 == 0x30 && (f.dest == dest || f.dest == s.linkPeer x)

/-- Whether a frame to port x is sent encrypted (R342, R395). -/
def sealed (s : State) (x : Nat) (f : Frame) : Bool := s.linkEnc x f.part && !s.sessionFrame x f (s.partnerAddr x)

/-- Whether the key of a partition allows a transmission (R343, R398). -/
def keyReady (s : State) (x : Nat) (f : Frame) : Bool :=
  !s.sealed x f ||
    match lookupKey (s.port x).txKey f.part with
    | some k => decide (k.fcount < 0xFFFFFFFE)
    | none => false

/-- Credits a copy needs on a port are granted by the partner (R333). -/
def creditOk (s : State) (x : Nat) (f : Frame) : Bool :=
  match s.pairOf x f with
  | none => true
  | some q =>
    let t := readKey ({} : Credit) (s.port x).tx q
    decide (kib f.len ≤ (t.granted + 2 ^ 32 - t.used) % 2 ^ 32)

/-- Frames of one direction not yet acknowledged (R337). -/
def unackedOn (s : State) (x : Nat) : List Copy :=
  s.copies.filter fun k => k.out == .port x && (k.phase == .unacked || k.phase == .wire)

/-- Whether the head copy of a queue of classes 0 to 6 meets every condition of R276 but R158. -/
def eligibleApart (s : State) (n j x : Nat) (k : Copy) : Bool :=
  s.creditOk x k.frame && (s.port x).retx == [] && !s.flag F.SLC_WLK_STAT_EPISODE n j && s.keyReady x k.frame
    && decide ((s.unackedOn x).length < 16384)
    && (shapersOf n j k.frame.part k.frame.cls).all fun a => !shOn (s.rawReg a) || decide (0 ≤ s.shTokens a)

/-- Whether the head copy of a queue of classes 0 to 6 is eligible (R276). -/
def eligible (s : State) (n j x : Nat) (k : Copy) : Bool := s.eligibleApart n j x k && s.fits n x k.frame.len

/-- The eligible head of a queue. -/
def ready (s : State) (n j x p c : Nat) : Option Copy := (s.headOf x p c).filter (s.eligible n j x)

/-- The next class 7 frame of a context on a port that may start: queued, with credit and key (R157, R333). -/
def ready7 (s : State) (x c : Nat) : Option Copy :=
  (s.head7 x c).filter fun k => s.creditOk x k.frame && s.keyReady x k.frame && decide ((s.unackedOn x).length < 16384)

/-- The start of a transmission: its header as sent (R330, R342). -/
def wireBytes (s : State) (n j x : Nat) (f : Frame) (lseq : Nat) : State × Bytes :=
  let seq := !Frame.linkLocal f.typ
  let expect := s.fld F.SLC_WLK_STAT_RX_EXPECT n j
  let enc := seq && s.sealed x f
  let q := s.port x
  let key := readKey ⟨0, [], [], 0⟩ q.txKey f.part
  let fc := key.fcount + 1
  let g := { f with hop := if seq && s.fabric x then f.hop - 1 else f.hop
                    nack := s.flag F.SLC_WLK_STAT_EPISODE n j
                    colour := if s.fld F.SLC_WLK_STAT_EFF_MINOR n j = 0 then 0 else f.colour
                    lseq := if seq then lseq else 0
                    ackseq := (expect + 2 ^ 16 - 1) % 2 ^ 16
                    enc := enc
                    keyEpoch := if enc then key.gen % 4 else 0
                    fcount := if enc then fc else 0 }
  let h := encodeHeader g
  let box := if enc then Config.gcmSeal key.key (key.salt ++ leBytes 4 0 ++ beBytes 4 fc) h f.payload
    else (f.payload, List.replicate 12 0)
  let icv := Machine.slice box.2 0 12
  let s1 := if enc then s.setPort x { q with txKey := insertKey q.txKey f.part { key with fcount := fc } } else s
  (s1.setPort x { s1.port x with ackOwed := false }, h ++ box.1 ++ icv ++ beBytes 4 (frameCrc h box.1 icv))

/-- A command packet without trailer (R369). -/
def packet (chip op part arg : Nat) (payload : Bytes) : Bytes :=
  leBytes 1 1 ++ leBytes 1 op ++ leBytes 2 0 ++ leBytes 2 0 ++ leBytes 2 0 ++ leBytes 8 (chip * 2 ^ 30)
    ++ leBytes 4 payload.length ++ leBytes 1 part ++ leBytes 3 0 ++ leBytes 8 arg ++ payload

/-- The chip index under which a partner is addressed: that of its board table entry, else 0 (log entry 59). -/
def chipOf (s : State) (addr : Nat) : Nat :=
  ((List.range 16).find? fun i => s.flag F.MGT_BOARD_VALID i && s.fld F.MGT_BOARD_COORD i == addr / 32).getD 0

/-- An SPDM message to the partner of a port, as a command SPDM_MSG in a CMD frame (R395): of a partition whose frames the link
does not encrypt where there is one, so that the response needs no key, else of partition q (log entry 59). -/
def sendSpdm (s : State) (x q : Nat) (msg : Bytes) : State :=
  let a := s.linkPeer x
  let n := s.sliceOf x
  let p := ((List.range 16).find? fun p => !s.linkEnc x p).getD q
  s.ask (s.ownFrame n { typ := Frame.CMD, cls := 6, part := p, dest := a, payload := packet (s.chipOf a) 0x30 p 0 msg }) n 4096
    (.port x) s.serial

/-- A rekey of a partition's transmit key on a port begins: REKEY_REQ goes to the partner (R398). -/
def startRekey (s : State) (x p : Nat) : State :=
  (s.setFld F.SEC_LKEY_REKEY_PENDING 1 x p).sendSpdm x p (Config.rekeyRequest x p (s.fld F.SEC_LKEY_GEN x p + 1))

/-- What follows a transmission under a key: a rekey at 2^31, KEY_WAIT and the raise when it is used up (R343). -/
def keyUsed (s : State) (n j x : Nat) (f : Frame) : State :=
  if s.sealed x f then
    let c := (readKey ⟨0, [], [], 0⟩ (s.port x).txKey f.part).fcount
    let s1 := if c = 2 ^ 31 then s.startRekey x f.part else s
    if c = 0xFFFFFFFE then (s1.setFld F.SLC_WLK_STAT_KEY_WAIT 1 n j).raiseLink 0x30 x else s1
  else s

/-- A copy goes on the wire, as its first transmission or as a retransmission (R275, R333, R337). -/
def startCopy (s : State) (n j x : Nat) (k : Copy) (first : Bool) : State :=
  let lseq := if first then s.fld F.SLC_WLK_STAT_TX_NEXT n j else k.lseq
  let b := s.wireBytes n j x k.frame lseq
  let s1 := (b.1.setCopy { k with phase := .wire, lseq := lseq }).sendFrame x b.2
  let q := s1.port x
  let quiet := if (s.unackedOn x).isEmpty then s.now else q.ackAt
  let s2 := (s1.setPort x { q with wire := some (.copy k.id first), sentAt := s.now, ackAt := quiet }).keyUsed n j x k.frame
  if first then
    let s3 := s2.wrap F.SLC_WLK_STAT_TX_NEXT 1 n j
    let s4 := match s3.pairOf x k.frame with
      | some pr =>
        let q3 := s3.port x
        let t := readKey ({} : Credit) q3.tx pr
        (s3.setPort x { q3 with tx := writeKey {} q3.tx pr { t with used := (t.used + kib k.frame.len) % 2 ^ 32 } }).showCredit
          x pr
      | none => s3
    if k.frame.cls = 7 then
      let r := s4.ctx k.frame.ctx
      let l := k.launch.getD 0
      if k.launch.isSome ∧ s4.lcount k.frame.ctx ≤ l then
        s4.setCtx k.frame.ctx { r with sent7 := addKey r.sent7 (l * 256 + x) 1 }
      else s4
    else s4.chargeShapers n j k.frame.part k.frame.cls (k.frame.len + 64)
  else s2.wrap F.SLC_WLK_RETX_COUNT 1 n j

/-- The copies at the heads of a port's queues: of each queue of classes 0 to 6, and of class 7 for each context (R157, R274). -/
def heads (s : State) (x : Nat) : List Copy :=
  let seven := ((s.copies.filter fun k => k.phase == .queued && k.out == .port x && k.frame.cls == 7).map (·.frame.ctx)).eraseDups
  ((List.range 112).filterMap fun q => s.headOf x (q / 7) (q % 7)) ++ seven.filterMap (s.head7 x)

/-- Expired copies at the heads of a port's queues are dropped (R264, R265), at most `fuel` of them. -/
def dropExpired (s : State) (n j x : Nat) : (fuel : Nat) → State
  | 0 => s
  | k + 1 =>
    match (s.heads x).find? fun c => s.expired n c.frame with
    | none => s
    | some c => ((((s.drop n 5).wrap F.SLC_TXD_COUNT 1 n j c.frame.cls).freeCopy c.id).dropExpired n j x k)

/-- Weights of R277. -/
def partWeight (s : State) (n p : Nat) : Nat := bitsOf (s.rd .SLC_PWGT n (p / 8)) (p % 8 * 8) 8
def classWeight (s : State) (n p c : Nat) : Nat := bitsOf (s.rd .SLC_CWGT n p) (c * 8) 8

/-- One level of deficit round robin over `m` members (R278): the member chosen and the level's state once it starts.
`head` gives a member's eligible head length and `weight` its weight. -/
def drr (m : Nat) (head : Nat → Option Nat) (weight : Nat → Nat) : (fuel : Nat) → Drr → Option (Nat × Drr) × Drr
  | 0, d => (none, d)
  | k + 1, d =>
    let p := d.ptr
    match head p with
    | none =>
      drr m head weight k { ptr := (p + 1) % m, deficit := writeKey 0 d.deficit p 0, turn := writeKey false d.turn p false }
    | some len =>
      let quant := if readKey false d.turn p then readKey 0 d.deficit p else readKey 0 d.deficit p + weight p * 8256
      if len ≤ quant then
        (some (p, { d with deficit := writeKey 0 d.deficit p (quant - len), turn := writeKey false d.turn p true }), d)
      else
        drr m head weight k { ptr := (p + 1) % m, deficit := writeKey 0 d.deficit p quant, turn := writeKey false d.turn p false }

/-- The class choice within a partition: class 6 first, then classes 0 to 5 by deficit (R278), with the class state its
start would leave. -/
def classChoice (s : State) (n j x p : Nat) : Option (Copy × Drr) :=
  let d := readKey ({} : Drr) (s.port x).classes p
  match s.ready n j x p 6 with
  | some k => some (k, d)
  | none =>
    match (drr 6 (fun c => (s.ready n j x p c).map fun k => k.frame.len + 64) (s.classWeight n p) 7 d).1 with
    | some (c, d') => (s.ready n j x p c).map fun k => (k, d')
    | none => none

/-- Hierarchical mode (R278). -/
def hierarchical (s : State) (n j x : Nat) : State :=
  let q := s.port x
  let r := drr 16 (fun p => (s.classChoice n j x p).map fun k => k.1.frame.len + 64) (s.partWeight n) 17 q.parts
  match r.1 with
  | none => s.setPort x { q with parts := r.2 }
  | some (p, d) =>
    match s.classChoice n j x p with
    | some (k, cd) => (s.setPort x { q with parts := d, classes := writeKey {} q.classes p cd }).startCopy n j x k true
    | none => s

/-- The head with the smallest tag of some queues, ties to the lower partition, then class (R280). -/
def smallestTag (l : List Copy) : Option Copy :=
  l.foldl (fun m k => match m with
    | none => some k
    | some b => if vLater b.vft k.vft then some k else some b) none

/-- WFQ mode (R280). -/
def wfq (s : State) (n j x : Nat) : State :=
  let six := (List.range 16).filterMap fun p => s.ready n j x p 6
  let rest := (List.range 96).filterMap fun q => s.ready n j x (q / 6) (q % 6)
  match (smallestTag six).orElse fun _ => smallestTag rest with
  | some k => (s.setPort x { s.port x with vtime := k.vft }).startCopy n j x k true
  | none => s

/-- A launch in progress in the sense of R157: from its start count until it completes or is aborted. -/
def inProgress (s : State) (c : Nat) : Bool :=
  let r := s.ctx c
  s.scheduled c && (r.active || r.deferred || r.heldBack)

/-- The launch of a context whose frames its slots on a port have still to carry, if any (R157): that in progress, or the one
deferred or held that will follow it. -/
def slotLaunch (s : State) (x c : Nat) : Option Nat :=
  let r := s.ctx c
  let f := readKey 0 (s.image.ctxX c).frames7 x
  let l := s.lcount c
  let short (k : Nat) : Bool := decide (readKey 0 r.sent7 (k * 256 + x) < f)
  if !s.inProgress c then none
  else if short l then some l
  else if r.active && (r.deferred || r.heldBack) && short (l + 1) then some (l + 1)
  else none

/-- Whether a slot of a context is due on a port and its launch has not been released from the slot clock (R157, R160, R163). -/
def slotDue (s : State) (x c : Nat) : Bool :=
  match s.slotLaunch x c with
  | some l => decide ((s.ctx c).released ≤ l)
  | none => false

/-- Whether a port is sending a retransmission, or must (R160, R275). -/
def resending (s : State) (x : Nat) : Bool :=
  (match (s.port x).wire with
    | some (.copy _ false) => true
    | _ => false) || (s.port x).retx != []

/-- Whether a slot of a context at its turn on a port pauses the slot clock (R160): its next frame is due and not ready, or the
port is still sending a retransmission; a port in RETRAIN sends nothing (R315). -/
def mustPause (s : State) (x c : Nat) : Bool :=
  s.resending x || (s.slotDue x c && ((s.ready7 x c).isNone || s.portState x == 5))

/-- A pause whose cause has gone ends: the slot begins, or stays idle where no frame of it is due (R160). -/
def endPause (s : State) (x : Nat) : State :=
  match (s.port x).waiting with
  | none => s
  | some w =>
    let c := s.slotCtx x w.entry
    if s.mustPause x c then s
    else if (s.ready7 x c).isSome then (s.setPort x { s.port x with slot := some w }).endWaiting x
    else s.endWaiting x

/-- The pauses of every port whose cause has gone end (R160). -/
def endPauses (s : State) : State := (s.ports.map (·.1)).foldl endPause s

/-- The slice's slot clock pauses at a slot (R160). -/
def pauseAt (s : State) (n x : Nat) (o : OpenSlot) (c : Nat) : State :=
  (((s.setPort x { s.port x with slot := none, waiting := some o }).setFld F.SCH_LAG_PAUSED 1 n).setFld F.SCH_LAG_PAUSE_PORT x
    n).setFld F.SCH_LAG_PAUSE_CTX c n

/-- The next frame of an open slot starts, or the slot pauses its slice, or is over (R157, R160). -/
def runSlot (s : State) (n j x : Nat) : State :=
  let q := s.port x
  match q.slot with
  | none => s
  | some o =>
    let c := s.slotCtx x o.entry
    if o.left = 0 then s.setPort x { q with slot := none }
    else if s.mustPause x c then s.pauseAt n x o c
    else
      match s.ready7 x c with
      | some k => (s.setPort x { q with slot := some { o with left := o.left - 1 } }).startCopy n j x k true
      | none => s.setPort x { q with slot := none }

/-- A link-local control frame starts (R158, R275). -/
def startControl (s : State) (n j x : Nat) (f : Frame) : State :=
  let g := s.stamp n j x f
  let b := g.1.wireBytes n j x g.2 0
  let q := b.1.port x
  (b.1.setPort x { q with control := q.control.drop 1, wire := some (.control g.2), sentAt := s.now }).sendFrame x b.2

/-- A stall tick counted under its first cause (R289). -/
def stallTick (s : State) (n j x : Nat) : State :=
  let heads := (List.range 112).filterMap fun q => s.headOf x (q / 7) (q % 7)
  if heads = [] then s
  else
    let cause :=
      if s.flag F.SLC_WLK_STAT_EPISODE n j ∨ (s.port x).retx ≠ [] then 0
      else if s.flag F.SCH_LAG_PAUSED n then 1
      else if heads.any fun k => s.eligibleApart n j x k && !s.fits n x k.frame.len then 2
      else if heads.any fun k => !s.creditOk x k.frame then 3
      else 4
    s.wrap F.SLC_STALL_TICKS 1 n j cause

/-- A free port of a port in UP starts at most one frame (R275). -/
def txStart (s : State) (x : Nat) : State :=
  match s.portAt x with
  | none => s
  | some (n, j) =>
    if s.fld F.SLC_DRAIN_STATE n = 2 then
      -- a port of a slice in S1 sends hellos only (R432)
      (match (s.port x).wire, (s.port x).control.find? fun f => f.typ == Frame.HELLO with
       | none, some f =>
         if s.fits n x f.len then (s.setPort x { s.port x with control := f :: (s.port x).control.erase f }).startControl n j x f
         else s
       | _, _ => s)
    else if s.portState x = 3 ∨ s.portState x = 6 ∨ s.portState x = 5 ∨ s.portState x = 8
        ∨ (s.portState x = 4 ∧ s.peerQuarantined n j = true) then
      -- only link-local frames leave in HELLO, QUARANTINED and RETRAIN and toward a partner that has quarantined the link
      (match (s.port x).wire, (s.port x).control with
       | none, f :: _ => if s.fits n x f.len then s.startControl n j x f else s
       | none, [] => s.stallTick n j x
       | some _, _ => s)
    else if s.portState x ≠ 4 ∨ (s.port x).wire.isSome then s
    else
      let s9 := s.dropExpired n j x s.copies.length
      let s0 := s9.endPause x
      let q := s0.port x
      match q.retx with
      | id :: rest =>
        (match s0.copies.find? fun k => k.id == id with
         | some k => (s0.setPort x { q with retx := rest }).startCopy n j x k false
         | none => s0.setPort x { q with retx := rest })
      | [] =>
        let t := if s0.flag F.SCH_LAG_PAUSED n then s0 else s0.runSlot n j x
        if (t.port x).wire.isSome then t
        else
          let control := match q.control with
            | f :: _ => if t.fits n x f.len then some f else none
            | [] => none
          match control with
          | some f => t.startControl n j x f
          | none =>
            let u := if t.flag F.SLC_SCHED_CFG_MODE n then t.wfq n j x else t.hierarchical n j x
            if (u.port x).wire.isSome then u else u.stallTick n j x

/-- The last byte of the frame on a port's wire leaves (R275, R288). -/
def txEnd (s : State) (x : Nat) : State :=
  match s.portAt x, (s.port x).wire with
  | some (n, j), some (.copy id first) =>
    let s1 := s.setPort x { s.port x with wire := none }
    (match s1.copies.find? fun k => k.id == id with
     | some k =>
       let s2 := s1.setCopy { k with phase := .unacked }
       let s3 := if first then
           (s2.wrap F.SLC_TXF_COUNT 1 n j k.frame.cls).wrap F.SLC_TXB_COUNT (k.frame.len + 64) n j k.frame.cls
         else s2
       if k.frame.cls = 7 && first then
         (match (s3.port x).slot with
          | some o =>
            if o.left = 0 then s3.setPort x { s3.port x with slot := none }
            else if s3.mustPause x (s3.slotCtx x o.entry) then s3.pauseAt n x o (s3.slotCtx x o.entry)
            else s3
          | none => s3)
       else s3.endPause x
     | none => s1)
  | _, _ => s.setPort x { s.port x with wire := none }

/-- Shaper registers of a slice that are not all zero. -/
def shaperKeys (s : State) (n : Nat) : List Nat :=
  let b := 0x1000000 + n * 0x100000
  let inr (a : Nat) : Bool :=
    (decide (b + 0x80200 ≤ a) && decide (a < b + 0x80280)) || (decide (b + 0x80400 ≤ a) && decide (a < b + 0x80C00))
      || (decide (b + 0x84000 ≤ a) && decide (a < b + 0x88000))
  ((s.regs.map (·.1) ++ s.shadow.map (·.1)).filter inr).eraseDups

/-- The committed fields of a shaper taken from the fields shadowed at GO; a disabled shaper keeps TOKENS (R282). -/
def commitShaper (snap : List (Nat × BitVec 64)) (s : State) (a : Nat) : State :=
  let old := s.rawReg a
  let new := (readKey 0#64 snap a).toNat
  let v := putBits old 0 37 (bitsOf new 0 37)
  let s1 : State := { s with regs := writeKey 0#64 s.regs a (BitVec.ofNat 64 v) }
  let cap : Int := 16 * shBurst v
  if !shOn v then s1 else if !shOn old then s1.setTokens a cap else s1.setTokens a (min cap (s.shTokens a))

/-- SHP_COMMIT.GO of a slice: the fields shadowed now act from the first refill tick after this tick (R282). -/
def shpCommit (s : State) (n : Nat) : State :=
  let v := s.slice n
  let ks := s.shaperKeys n
  s.setSlice n { v with shpDue := v.shpDue ++ [(s.now, s.shadow.filter fun e => ks.contains e.1)] }

/-- One shaper refilled (R281). -/
def refillShaper (s : State) (a : Nat) : State :=
  let v := s.rawReg a
  if shOn v then s.setTokens a (min (16 * shBurst v : Int) (s.shTokens a + 64 * shRate v)) else s

/-- One policer refilled (R284). -/
def refillPolicer (s : State) (n k : Nat) : State :=
  if s.flag F.SLC_POL_CFG_EN n k then
    (s.setFld F.SLC_POL_TOK_TC (min (16 * s.fld F.SLC_POL_SIZE_CBS n k)
        (s.fld F.SLC_POL_TOK_TC n k + 64 * s.fld F.SLC_POL_CFG_CIR n k)) n k).setFld F.SLC_POL_TOK_TP
      (min (16 * s.fld F.SLC_POL_SIZE_PBS n k) (s.fld F.SLC_POL_TOK_TP n k + 64 * s.fld F.SLC_POL_CFG_PIR n k)) n k
  else s

/-- Policers of a slice that are in use. -/
def policersOf (s : State) (n : Nat) : List Nat :=
  let b := RegName.SLC_POL_CFG.addr n 0
  (s.regs.filter fun e => decide (b ≤ e.1) && decide (e.1 < b + 0x4000) && decide ((e.1 - b) % 0x40 = 0)).map fun e =>
    (e.1 - b) / 0x40

/-- Refill of a slice's shapers and policers, a pending commit first (R281, R282, R284). S1 keeps its counts (R286). -/
def refillSlice (s : State) (n : Nat) : State :=
  if s.fld F.SLC_DRAIN_STATE n = 2 then s
  else
    let v := s.slice n
    let ks := s.shaperKeys n
    let due := v.shpDue.filter fun g => decide (g.1 < s.now)
    let s1 := (due.foldl (fun a g => ks.foldl (commitShaper g.2) a) s).setSlice n
      { v with shpDue := v.shpDue.filter fun g => !decide (g.1 < s.now) }
    (s1.policersOf n).foldl (fun a k => a.refillPolicer n k) (ks.foldl refillShaper s1)

/-- Every shaper of a slice full, every policer's buckets full (R286). -/
def fillSlice (s : State) (n : Nat) : State :=
  let s1 := (s.shaperKeys n).foldl (fun a k => if shOn (a.rawReg k) then a.setTokens k (16 * shBurst (a.rawReg k)) else a) s
  (s1.policersOf n).foldl (fun a k =>
    (a.setFld F.SLC_POL_TOK_TC (16 * a.fld F.SLC_POL_SIZE_CBS n k) n k).setFld F.SLC_POL_TOK_TP
      (16 * a.fld F.SLC_POL_SIZE_PBS n k) n k) s1

/-- The counters of chapter 11 of a slice at 0 (R286): samples and maxima, policer colours, port and class counters, stalls. -/
def clearQueueCounters (s : State) (n : Nat) : State :=
  let b := 0x1000000 + n * 0x100000
  let mine (a : Nat) : Bool :=
    (decide (b + 0xA4000 ≤ a) && decide (a < b + 0xAC000)) || (decide (b + 0xC0000 ≤ a) && decide (a < b + 0xC2400))
      || (decide (b + 0x90000 ≤ a) && decide (a < b + 0x94000) && decide (0x18 ≤ (a - b) % 0x40) && decide ((a - b) % 0x40 < 0x30))
  { s with regs := s.regs.filter fun e => !mine e.1 }

/-- The colour a policer gives a frame, and its debits (R283, R284). -/
def meter (s : State) (n j : Nat) (f : Frame) : State × Nat :=
  let m := s.rd .SLC_POLMAP n j f.part
  if f.cls = 7 ∨ !bitOf m (56 + f.cls) then (s, f.colour)
  else
    let k := bitsOf m (8 * f.cls) 8
    let b := 16 * (f.len + 64)
    let tc := s.fld F.SLC_POL_TOK_TC n k
    let tp := s.fld F.SLC_POL_TOK_TP n k
    let aware := s.flag F.SLC_POL_CFG_AWARE n k
    let inc := if aware then min f.colour 2 else 0
    if inc = 2 ∨ tp < b then (s.wrap F.SLC_POL_RED_COUNT 1 n k, 2)
    else if inc = 1 ∨ tc < b then ((s.wrap F.SLC_POL_YELLOW_COUNT 1 n k).setFld F.SLC_POL_TOK_TP (tp - b) n k, 1)
    else (((s.wrap F.SLC_POL_GREEN_COUNT 1 n k).setFld F.SLC_POL_TOK_TP (tp - b) n k).setFld F.SLC_POL_TOK_TC (tc - b) n k, 0)

/-- The sample of one queue (R287). -/
def sampleQueue (s : State) (n j x p c : Nat) : State :=
  let q := queueIx j p c
  let d := s.depth x p c
  let hol := match s.headOf x p c with
    | some k => min (s.count - k.commitAt) 0xFFFFFF
    | none => 0
  (((s.setFld F.SLC_QSAMP_DEPTH d n q).setFld F.SLC_QSAMP_HOL hol n q).setFld F.SLC_QMAX_MAX_DEPTH
    (max d (s.fld F.SLC_QMAX_MAX_DEPTH n q)) n q).setFld F.SLC_QMAX_MAX_HOL (max hol (s.fld F.SLC_QMAX_MAX_HOL n q)) n q

/-- Every queue of every slice sampled in one tick (R287): samples of empty queues read 0. -/
def sampleAll (s : State) : State :=
  let cleared : State := { s with regs := s.regs.filter fun e =>
    !(decide (0x1000000 ≤ e.1) && decide (e.1 < 0x2000000) && decide (0xA4000 ≤ e.1 % 0x100000)
      && decide (e.1 % 0x100000 < 0xA8000)) }
  let qs := (s.copies.filter fun k => k.phase == .queued || k.phase == .wire).filterMap fun k =>
    match k.out with
    | .port x => some (x, k.frame.part, k.frame.cls)
    | _ => none
  qs.eraseDups.foldl (fun a q =>
    match a.portAt q.1 with
    | some (n, j) => a.sampleQueue n j q.1 q.2.1 q.2.2
    | none => a) cleared

/-- Every SLCn_QMAXq of a slice set to 0 (R287). -/
def clearMax (s : State) (n : Nat) : State :=
  let b := RegName.SLC_QMAX.addr n 0
  { s with regs := s.regs.filter fun e => !(decide (b ≤ e.1) && decide (e.1 < b + 0x4000)) }

/-- The slot clock of a slice: SCH_COUNT less the running lag (R161). -/
def slotClock (s : State) (n : Nat) : Nat := s.count - s.lag n

/-- The value of the slot clock at which a slot has reached its first tick in this tick, if it has: the counts that this tick
passed come in, and a clock that stands still stands at its first tick (R142, R161). -/
def slotReached (s : State) (n : Nat) (e : SlotX) : Option Nat :=
  let v := s.slotClock n
  let m := v - (v + s.roundLen - e.offset) % s.roundLen
  if e.offset ≤ v ∧ ((s.slice n).slotFrom ≤ m ∨ m = v) then some m else none

/-- Whether a slot of a port begins or waits in this tick: it has reached its first tick and has not begun. -/
def slotTurn (s : State) (n x : Nat) (e : SlotX) : Bool :=
  match s.slotReached n e with
  | some m => (s.port x).begunAt != some m && (s.port x).slot.isNone
  | none => false

/-- Whether a slot of some port of a slice pauses the slot clock in this tick: one that has reached its first tick, or one whose
frame has ended (R160). -/
def pauseArises (s : State) (n : Nat) : Bool :=
  (s.slicePorts n).any fun p =>
    ((s.slotsOf p.1).any fun e => s.slotTurn n p.1 e && s.mustPause p.1 e.ctx)
      || (match (s.port p.1).slot, (s.port p.1).wire with
        | some o, none => o.left != 0 && s.mustPause p.1 (s.slotCtx p.1 o.entry)
        | _, _ => false)

/-- A slot reaches its first tick at the running lag (R157, R160, R161): it begins, unless it pauses the slice or another port
does in the same tick; then it begins when the pause ends. -/
def slotStart (s0 : State) (x e : Nat) : State :=
  match s0.portAt x, (s0.slotsOf x).find? fun k => k.entry == e with
  | some (n, j), some k =>
    let s := s0.dropExpired n j x s0.copies.length
    let q := s.port x
    if s.slotTurn n x k ∧ ¬ s.flag F.SCH_LAG_PAUSED n then
      let o : OpenSlot := ⟨e, k.nfr⟩
      let begun (st : State) : State := st.setPort x { st.port x with begunAt := s.slotReached n k }
      if s.mustPause x k.ctx then begun (s.pauseAt n x o k.ctx)
      else if s.pauseArises n then s
      else if (s.ready7 x k.ctx).isSome then
        let s1 := begun (s.setPort x { q with slot := some o })
        if q.wire = none ∧ s.portState x = 4 then s1.runSlot n j x else s1
      else begun s
    else s0
  | _, _ => s0

/-- The slot span of a slice's round ends, and the next round starts (R161, R162): at once with the lag less one guard band, or,
where the lag is less than that, at its nominal count with none. A lag to be dropped goes at its round boundary (R163). -/
def slotSpanEnd (s : State) (n : Nat) : State :=
  let l := s.lag n
  let g := s.guardBand
  let y := s.slice n
  let rl := s.roundLen
  let next := s.count / rl * rl
  let k := s.slotClock n / rl
  let drop := match y.dropAt with
    | some b => decide (b ≤ s.count)
    | none => false
  if drop = true ∨ (l < g ∧ y.spanFrom < next) then
    ((s.setFld F.SCH_LAG_LAG 0 n).setFld F.SCH_LAG_RUN 0 n).setSlice n
      { y with spanFrom := next, dropAt := if drop then none else y.dropAt, slipped := false }
  else if g ≤ l ∧ l ≤ s.count ∧ rl - g ≤ s.slotClock n % rl ∧ y.spanFrom ≤ k * rl ∧ ¬ s.flag F.SCH_LAG_PAUSED n then
    ((s.setFld F.SCH_LAG_LAG (l - g) n).setFld F.SCH_LAG_RUN
        (if l = g then 0 else min 255 (s.fld F.SCH_LAG_RUN n + 1)) n).setSlice n
      { y with spanFrom := (k + 1) * rl, slipped := y.slipped && l != g }
  else s

/-- The severity that acts on a raise of source i (R407, R409): FC_SELF and FC_EVQ_UE are fixed; in the tick of a severity
write the old one acts. -/
def sevOf (s : State) (i : Nat) : Nat :=
  let v := match s.fc.oldSev.find? fun e => e.1 == i / 16 && e.2.1 == s.now with
    | some e => e.2.2
    | none => s.rd .FC_SEV (i / 16)
  if i = 0 then 3 else if i = 1 then 1 else bitsOf v (2 * (i % 16)) 2

/-- Scheduled contexts with a launch in progress and a slot on a port of a slice (R163). -/
def slipContexts (s : State) (n : Nat) : List Nat :=
  (((s.slicePorts n).flatMap fun p => (s.slotsOf p.1).map (·.ctx)).eraseDups).filter s.inProgress

/-- The contexts that cause a slice's pause are released (R163). -/
def releasePause (s : State) (n : Nat) : State :=
  (s.slicePorts n).foldl (fun a p =>
    match (a.port p.1).waiting with
    | some w =>
      let c := a.slotCtx p.1 w.entry
      (a.setPort p.1 { a.port p.1 with waiting := none }).setCtx c
        { a.ctx c with released := a.lcount c + 1 + b2n ((a.ctx c).active && ((a.ctx c).deferred || (a.ctx c).heldBack)) }
    | none => a) (s.setFld F.SCH_LAG_PAUSED 0 n)

/-- SCHED_SLIP of a slice: the running lag exceeds G × (C - RUN) (R162, R163). -/
def slip (s : State) (n : Nat) : State :=
  let y := s.slice n
  if s.guardBand * (s.fld F.SCH_ROUND_CFG_CATCHUP - s.fld F.SCH_LAG_RUN n) < s.lag n ∧ y.slipped = false then
    let cs := s.slipContexts n
    let s1 := ((s.setSlice n { y with slipped := true }).bump F.SCH_SLIP_SLIPS 1 n).report 0x0D n (leBytes 16 (s.rd .SCH_LAG n))
    let s2 := cs.foldl (fun a c => a.setFld F.SCH_CTX_STATUS_SLIPPED 1 c) s1
    if s.sevOf 0x0D < 2 then (if s.flag F.SCH_LAG_PAUSED n then s2.releasePause n else s2)
    else
      let s3 := cs.foldl (fun a c => a.abortCtx c 4) s2
      let s4 := if s.flag F.SCH_LAG_PAUSED n then s3.releasePause n else s3
      s4.setSlice n { s4.slice n with dropAt := some ((s.count / s.roundLen + 1) * s.roundLen) }
  else s

end State

end Sys2Proof.Machine
end

