-- ==== Sys2Proof/Machine/LinkKeys.lean ====
section
/-! DEFINITION. Link sessions and their keys (R395 to R398). -/

namespace Sys2Proof.Machine

namespace State

/-- Open SPDM sessions replaced: SEC_SESSIONS.OPEN and each partition's SESSIONS follow (R392). -/
def setSessions (s : State) (l : List SessionX) : State :=
  let s1 := ({ s with sec := { s.sec with sessions := l } } : State).setFld F.SEC_SESSIONS_OPEN l.length
  (List.range 16).foldl (fun a p => a.setFld F.SEC_PART_STAT_SESSIONS (l.countP fun e => e.role == .tenant p) p) s1

/-- The partitions a port carries with link encryption on. -/
def sealedParts (s : State) (x : Nat) : List Nat := (List.range 16).filter fun p => s.carries x p && s.linkEnc x p

/-- Whether this end of a fabric link is its session's requester (R317, R395). -/
def requests (s : State) (n j x : Nat) : Bool :=
  let b := s.fld F.SLC_PORT_PEER0_ADDR n j
  s.fabric x && (decide (s.ownAddr < b) || (s.ownAddr == b && decide (x < s.fld F.SLC_PORT_PEER0_PORT n j)))

/-- The key of a generation (R396). -/
def deriveKey (q : LinkSession) (dir p gen : Nat) : LinkKey :=
  let b := Config.hkdfExpand q.ems (ascii 6 "Y5LINK" ++ leBytes 1 dir ++ leBytes 1 p ++ beBytes 4 gen) 36
  ⟨gen, b.take 32, (b.drop 32).take 4, 0⟩

/-- KEY_WAIT: some partition of the port has no transmit key in force, or has used its key up (R343, R398). -/
def showKeyWait (s : State) (n j x : Nat) : State :=
  let waits := (s.sealedParts x).any fun p =>
    match lookupKey (s.port x).txKey p with
    | some k => decide (0xFFFFFFFE ≤ k.fcount)
    | none => true
  s.setFld F.SLC_WLK_STAT_KEY_WAIT (b2n waits) n j

/-- RX_STATE follows the states of a partition's receive epochs (R397). -/
def showEpochs (s : State) (x p : Nat) : State :=
  let q := s.port x
  s.setFld F.SEC_LKEY_RX_STATE ((List.range 4).foldl (fun a e => a + readKey 0 q.rxState (p * 4 + e) * 4 ^ e) 0) x p

/-- Whether the receiver holds a NEXT epoch. -/
def holdsNext (s : State) (x p : Nat) : Bool := (List.range 4).any fun e => readKey 0 (s.port x).rxState (p * 4 + e) == 1

/-- A rekey request installs its epoch as NEXT, the first generation as CURRENT; while a NEXT epoch is held nothing
changes (R397, R398). -/
def installEpoch (s : State) (x p gen : Nat) : State :=
  let q := s.port x
  match q.session with
  | none => s
  | some l =>
    if s.holdsNext x p then s
    else
      let e := p * 4 + gen % 4
      (s.setPort x { q with rxKey := insertKey q.rxKey e (deriveKey l (b2n l.requester) p gen),
                            rxState := writeKey 0 q.rxState e (if gen = 1 then 2 else 1) }).showEpochs x p

/-- The first frame accepted under a NEXT epoch makes it CURRENT; the CURRENT epoch becomes RETIRED, its key erased
(R397). -/
def useEpoch (s : State) (x p e : Nat) : State :=
  let q := s.port x
  if readKey 0 q.rxState (p * 4 + e) = 1 then
    let old := ((List.range 4).map (p * 4 + ·)).filter fun k => readKey 0 q.rxState k == 2
    (s.setPort x { q with rxState := writeKey 0 (old.foldl (fun m k => writeKey 0 m k 3) q.rxState) (p * 4 + e) 2,
                          rxKey := old.foldl eraseKey q.rxKey }).showEpochs x p
  else s

/-- A REKEY_ACK: the transmitter goes over to the generation it asked for; the old key is erased (R398). -/
def rekeyAcked (s : State) (n j x p gen : Nat) : State :=
  let q := s.port x
  match q.session with
  | none => s
  | some l =>
    if s.flag F.SEC_LKEY_REKEY_PENDING x p ∧ gen = s.fld F.SEC_LKEY_GEN x p + 1 then
      let s1 := s.setPort x { q with txKey := insertKey q.txKey p (deriveKey l (b2n !l.requester) p gen) }
      ((((s1.setFld F.SEC_LKEY_REKEY_PENDING 0 x p).setFld F.SEC_LKEY_GEN gen x p).setFld F.SEC_LKEY_TX_EPOCH (gen % 4) x
        p).setFld F.SEC_LKEY_TX_VALID 1 x p).showKeyWait n j x
    else s

/-- Every encrypted partition of a port without a transmit key asks for its first (R398). -/
def firstKeys (s : State) (x : Nat) : State :=
  if (s.port x).session.isNone then s
  else
    ((s.sealedParts x).filter fun p => (lookupKey (s.port x).txKey p).isNone && !s.flag F.SEC_LKEY_REKEY_PENDING x p).foldl
      (fun a p => a.startRekey x p) s

/-- The link session of a port is established (R395, R396). -/
def sessionUp (s : State) (x : Nat) (ems : Bytes) (requester : Bool) : State :=
  (s.setPort x { s.port x with session := some ⟨ems, requester⟩ }).firstKeys x

/-- LINK_KEY_FAIL of a port (R395). -/
def sessionFailed (s : State) (x : Nat) : State := s.raiseLink 0x2F x

/-- The requester's next move on a port after a response, none at the start (R395; log entry 8). -/
def linkMove (s : State) (x : Nat) (response : Bytes) : State :=
  let k := 2 ^ 41 + x
  let n := readKey 0 s.sec.spdm k
  let s1 : State := { s with sec := { s.sec with spdm := writeKey 0 s.sec.spdm k (n + 1) } }
  match Config.spdmMove x n response with
  | .send b => s1.sendSpdm x ((s.sealedParts x).headD 0) b
  | .established ems chain =>
    (match chain with
     | some c => if Config.chainAccepts Config.skovbelRoot c then s1.sessionUp x ems true else s1.sessionFailed x
     | none => s1.sessionFailed x)
  | .failed => s1.sessionFailed x

/-- The requester of a port that carries an encrypted partition and has no session starts one (R395). -/
def startSession (s : State) (n j x : Nat) : State :=
  if s.sealedParts x ≠ [] ∧ (s.port x).session = none ∧ s.requests n j x = true then s.linkMove x [] else s

end State

end Sys2Proof.Machine
end

