-- ==== Sys2Proof/Machine/LinkOps.lean ====
section
/-! DEFINITION. Link-level retry, credits and the port state machine (R302 to R320, R333 to R339, R395). -/

namespace Sys2Proof.Machine

namespace State

/-! Acknowledgement and retry -/

/-- Whether LSEQ a is at or behind b modulo 2^16. -/
def seqLe (a b : Nat) : Bool := decide ((b + 2 ^ 16 - a) % 2 ^ 16 < 2 ^ 15)

/-- Frames of a port sent, or on its wire, and not acknowledged, oldest LSEQ first (R337). -/
def unackedSorted (s : State) (x : Nat) : List Copy :=
  (s.copies.filter fun k => k.out == .port x && (k.phase == .unacked || k.phase == .wire)).foldl
    (fun l c => (l.takeWhile fun d => seqLe d.lseq c.lseq) ++ c :: l.dropWhile fun d => seqLe d.lseq c.lseq) []

/-- Every frame up to an ACKSEQ is freed (R338). One still on the wire stays until its last byte has left. -/
def ackTo (s : State) (x a : Nat) : State :=
  let mine (k : Copy) : Bool := k.out == .port x && k.phase == .unacked && seqLe k.lseq a
  let t := s.freeWhere mine
  if s.copies.any mine then t.setPort x { t.port x with ackAt := s.now } else t

/-- Retransmission of every unacknowledged frame, from the oldest (R339). -/
def retransmit (s : State) (x : Nat) : State :=
  s.setPort x { s.port x with retx := (s.unackedSorted x).map (·.id), ackAt := s.now }

/-- A NACK with an ACKSEQ (R339): one with the ACKSEQ of the run in progress is ignored. -/
def nackTo (s : State) (x a : Nat) : State :=
  let s1 := s.ackTo x a
  let q := s1.port x
  if q.retx ≠ [] ∧ q.retxAck = some a then s1
  else (s1.setPort x { q with retxAck := some a }).retransmit x

/-- t_frame: ticks of 8,256 bytes at a port's width (R38). -/
def tFrame (s : State) (x : Nat) : Nat := s.frameTicks x 8192

/-- T_retry (R38). -/
def tRetry (s : State) (n j x : Nat) : Nat := 2 * s.fld F.SLC_PORT_RTT_RTT n j + 2 * s.tFrame x + 64

/-- A NACK frame (R332, R339). -/
def nackFrame (expect cause : Nat) : Frame :=
  { typ := Frame.NACK, payload := leBytes 2 expect ++ leBytes 1 cause ++ leBytes 1 0 }

/-- A receive episode starts (R339), unless one is in progress. -/
def startEpisode (s : State) (n j x cause : Nat) : State :=
  if s.flag F.SLC_WLK_STAT_EPISODE n j then s
  else
    let s1 := ((s.setFld F.SLC_WLK_STAT_EPISODE 1 n j).wrap F.SLC_WLK_EPIS_COUNT 1 n j).bump F.SLC_WLK_NACK_TX 1 n j
    (s1.setPort x { s1.port x with episodeAt := s.now }).sendControl x
      (nackFrame (s.fld F.SLC_WLK_STAT_RX_EXPECT n j) cause)

/-- A receive episode ends with the acceptance of the frame expected (R339). -/
def endEpisode (s : State) (n j x : Nat) : State :=
  if s.flag F.SLC_WLK_STAT_EPISODE n j then
    (s.setFld F.SLC_WLK_STAT_EPISODE 0 n j).setFld F.SLC_WLK_MAXEP_TK
      (min (2 ^ 32 - 1) (max (s.fld F.SLC_WLK_MAXEP_TK n j) (s.now - (s.port x).episodeAt))) n j
  else s

/-! Credits -/

/-- Credits the image grants on a port, by pair (R234, R336). -/
def creditGrants (s : State) (x : Nat) : List (Nat × Nat) :=
  let ps := s.image.parts.flatMap fun p =>
    if s.carries x p.1 then
      (p.2.credits.filter fun g => g.1 == x && s.lossless p.1 g.2.1).map fun g => (p.1 * 8 + g.2.1, g.2.2)
    else []
  ps ++ if s.fabric x then [(128, 16)] else []

/-- On entry to UP from HELLO, USED is 0 and GRANTED the image grant in both directions (R333). -/
def grantCredits (s : State) (x : Nat) : State :=
  let g := s.creditGrants x
  let m : List (Nat × Credit) := g.foldl (fun m e => writeKey {} m e.1 ⟨e.2, 0⟩) []
  g.foldl (fun a e => a.showCredit x e.1) (s.setPort x { s.port x with tx := m, rx := m, changed := [] })

/-- The entries of a CREDIT payload as (pair, GRANTED) (R334). -/
def creditEntries (p : Bytes) : List (Nat × Nat) :=
  (List.range (p.length / 8)).map fun i => (leAt p (8 * i) 1, leAt p (8 * i + 4) 4)

/-- Whether an entry names a pair that the port carries and that is lossless (R334). -/
def creditPair (s : State) (x q : Nat) : Bool :=
  if q = 128 then s.fabric x else decide (q < 128) && s.carries x (q / 8) && s.lossless (q / 8) (q % 8)

/-- One entry taken when it is ahead of the own copy (R334). -/
def takeCredit (s : State) (x : Nat) (e : Nat × Nat) : State :=
  let t := readKey ({} : Credit) (s.port x).tx e.1
  let d := (e.2 + 2 ^ 32 - t.granted) % 2 ^ 32
  if s.creditPair x e.1 && d != 0 && decide (d < 2 ^ 31) then
    (s.setPort x { s.port x with tx := writeKey {} (s.port x).tx e.1 { t with granted := e.2 } }).showCredit x e.1
  else s

/-- A CREDIT payload received; its entries take effect in the next tick (R334). -/
def takeCredits (s : State) (x : Nat) (p : Bytes) : State :=
  s.setPort x { s.port x with creditsIn := (s.port x).creditsIn ++ creditEntries p }

/-- The entries that a port received in the tick before take effect, in the order of their arrival (R334). -/
def applyCredits (s : State) (x : Nat) : State :=
  (s.port x).creditsIn.foldl (fun a e => a.takeCredit x e) (s.setPort x { s.port x with creditsIn := [] })

/-- Lists of at most 128 entries (R331). -/
def chunks128 : (fuel : Nat) → List Nat → List (List Nat)
  | 0, _ => []
  | f + 1, l => if l = [] then [] else l.take 128 :: chunks128 f (l.drop 128)

/-- A CREDIT frame queued with every changed entry, or with every lossless entry of the port (R334). -/
def sendCredits (s : State) (x : Nat) (all : Bool) : State :=
  let q := s.port x
  let pairs := if all then (s.creditGrants x).map (·.1) else q.changed
  let entry (p : Nat) : Bytes := leBytes 1 p ++ leBytes 3 0 ++ leBytes 4 (readKey ({} : Credit) q.rx p).granted
  (chunks128 2 pairs).foldl (fun a l => a.sendControl x { typ := Frame.CREDIT, payload := l.flatMap entry })
    (s.setPort x { q with changed := if all then q.changed.filter (!pairs.contains ·) else [] })

/-! States of a port (R305) -/

/-- Whether a port is contained, or held down by the safe state (R410, R412). -/
def portHeld (s : State) (x : Nat) : Bool :=
  s.safe || s.fc.held.any fun h =>
    (decide (0x28 ≤ h.1) && decide (h.1 ≤ 0x30) && h.1 != 0x2D && h.2 == x) || ((h.1 == 0x2D || h.1 == 0x3C) && h.2 == s.sliceOf x)

/-- The link session of a port ends and its keys are erased (R395). -/
def endSession (s : State) (n j x : Nat) : State :=
  let q := s.port x
  let parts := (q.txKey.map (·.1)) ++ q.rxKey.map (·.1 / 4)
  let s1 := (s.setPort x { q with txKey := [], rxKey := [], rxState := [], session := none }).setFld
    F.SLC_WLK_STAT_KEY_WAIT 0 n j
  let s2 := parts.eraseDups.foldl (fun a p => a.wr .SEC_LKEY 0 x p) s1
  if s2.sec.sessions.any fun e => e.link == some x then s2.setSessions (s2.sec.sessions.filter fun e => e.link != some x) else s2

/-- The copies that wait on a port, in its queues or for acknowledgement, are dropped and counted in TXD; credits of both
directions go (R306). -/
def dropPort (s : State) (n j x : Nat) : State :=
  let mine (k : Copy) : Bool := k.out == .port x && [Phase.queued, .wire, .unacked].contains k.phase
  let s1 := (s.copies.filter mine).foldl (fun a k => a.wrap F.SLC_TXD_COUNT 1 n j k.frame.cls) s
  let s2 := s1.freeWhere mine
  let q := s2.port x
  let pairs := (q.tx.map (·.1)) ++ q.rx.map (·.1)
  let s3 := s2.setPort x { q with wire := none, control := [], retx := [], retxAck := none, tx := [], rx := [], changed := [], creditsIn := [],
                                  ackOwed := false, slot := none }
  let s4 : State := { s3 with arrivals := s3.arrivals.map fun a => if a.port = x then { a with pair := none } else a }
  let s5 := pairs.foldl (fun a p => a.showCredit x p) s4
  (s5.setFld F.SLC_WLK_STAT_EPISODE 0 n j).setFld F.SLC_WLK_STAT_HUNTING 0 n j

/-- The time parent port in use, when the Y5 runs an exchange (R144, R145). -/
def exchangePort (s : State) : Option Nat :=
  if s.flag F.SCH_SYNC_CFG_PARENT_VALID ∧ s.fld F.SCH_SYNC_CFG_SOURCE ≠ 0 then some (s.fld F.SCH_SYNC_STATUS_ACTIVE) else none

/-- The Y5's time parent has gone: the backup port takes over when it is up, otherwise a LOCKED counter goes to HOLDOVER
(R145, R146, R151). A Y5 on its backup stays there (log entry 91). -/
def parentLost (s : State) : State :=
  let bk := s.fld F.SCH_SYNC_CFG_BACKUP
  let s1 : State := { s with sync := { s.sync with asked := none, t1 := none } }
  if s.flag F.SCH_SYNC_CFG_BACKUP_VALID ∧ ¬ s.flag F.SCH_SYNC_STATUS_ON_BACKUP ∧ s.portUp bk then
    ((s1.setFld F.SCH_SYNC_STATUS_ACTIVE bk).setFld F.SCH_SYNC_STATUS_ON_BACKUP 1).setFld F.SCH_SYNC_STATUS_MISSED 0
  else if s.fld F.SCH_SYNC_CFG_SOURCE = 2 ∧ s.fld F.SCH_SYNC_STATUS_STATE = 2 then
    (({ s1 with sync := { s1.sync with holdAt := s.count, drifted := false, corr := 0 } } : State).setFld
      F.SCH_SYNC_STATUS_STATE 3).report 0x09 0
  else s1

/-- SCH_SYNC_STATUS names the parent port in use under a new image: the primary, or the backup where it was in use and both are
as before (R145; log entry 91). -/
def showParent (s old : State) : State :=
  let same := s.fld F.SCH_SYNC_CFG_PARENT == old.fld F.SCH_SYNC_CFG_PARENT && s.fld F.SCH_SYNC_CFG_BACKUP == old.fld F.SCH_SYNC_CFG_BACKUP
    && s.flag F.SCH_SYNC_CFG_PARENT_VALID == old.flag F.SCH_SYNC_CFG_PARENT_VALID
    && s.flag F.SCH_SYNC_CFG_BACKUP_VALID == old.flag F.SCH_SYNC_CFG_BACKUP_VALID
  if same then s
  else
    let p := if s.flag F.SCH_SYNC_CFG_PARENT_VALID then s.fld F.SCH_SYNC_CFG_PARENT else 0
    (((({ s with sync := { s.sync with asked := none, t1 := none } } : State).setFld F.SCH_SYNC_STATUS_ACTIVE p).setFld
      F.SCH_SYNC_STATUS_ON_BACKUP 0).setFld F.SCH_SYNC_STATUS_MISSED 0)


/-- A port enters a state of R305: what belongs to the state it leaves is forgotten; outside the states that carry frames nothing
waits for a codeword. -/
def enterState (s : State) (n j x st : Nat) : State :=
  let h := s.helloOf x
  let s1 := (s.setFld F.SLC_PORT_STAT_STATE st n j).setHello x
    { h with enteredAt := s.now, peerSeen := false, seenSent := false, peerSaw := false, refuses := false, badRun := 0,
             propOn := false, prop := 0, peerProp := none, txDue := none, rxDue := none, loops := false,
             loopReq := if st = 8 then h.loopReq else false }
  if 3 ≤ st ∧ st ≤ 6 then s1 else s1.setPort x { s1.port x with txBytes := [] }

/-- Receive lanes of a port hunt anew; lanes without light are BAD, the others take part (R302, R305, R314). -/
def huntLanes (s : State) (n j : Nat) : State :=
  (s.portLanes n j).foldl (fun a l =>
    let b := if a.fld F.SLC_LANE_STAT_LSTATE n l = 2 then a.bump F.SLC_LANE_STAT_UNLOCKS 1 n l else a
    (((b.setFld F.SLC_LANE_STAT_LSTATE 0 n l).setFld F.SLC_LANE_STAT_WIN_INVALID 0 n l).setFld F.SLC_LANE_STAT_BAD
      (b2n (!b.flag F.SLC_LANE_STAT_LIGHT n l)) n l).setRxLane (n * 32 + l) {}) s

/-- ALIGN: every lane hunts, Standard FEC both ways (R301, R302, R305). -/
def enterAlign (s : State) (n j x : Nat) : State :=
  let s1 := ((s.enterState n j x 2).huntLanes n j).setFld F.SLC_PORT_STAT_FEC_NOW 1 n j
  s1.setHello x { s1.helloOf x with fecAck := false, fecTxDue := false, fecRxDue := false, fecRxLow := false }

/-- Whether any lane of a port has light. -/
def anyLight (s : State) (n j : Nat) : Bool := (s.portLanes n j).any fun l => s.flag F.SLC_LANE_STAT_LIGHT n l

/-- WAIT_LIGHT, and ALIGN at once when a lane has light (R305). -/
def enterWait (s : State) (n j x : Nat) : State :=
  let s1 := s.enterState n j x 1
  if s1.anyLight n j then s1.enterAlign n j x else s1

/-- A port leaves UP or RETRAIN for good: R306, its session ends, LINK_DOWN. -/
def linkDown (s : State) (n j x : Nat) : State :=
  let s1 := ((s.dropPort n j x).endSession n j x).raiseLink 0x29 x
  if s.exchangePort = some x then s1.parentLost else s1

/-- A port leaves its state for another that carries no frames but hellos: R306 applies when it was UP or in RETRAIN. In
QUARANTINED and TEST it keeps the lane list that its hellos and test payloads use (log entry 99). -/
def portDown (s : State) (n j x st : Nat) : State :=
  let up := s.portUp x
  let s1 := if up then s else s.endSession n j x
  let s2 := (s1.enterState n j x st).setFld F.SLC_PORT_STAT_ACTIVE
    (if st = 6 ∨ st = 8 then s1.fld F.SLC_PORT_STAT_ACTIVE n j else 0) n j
  let s3 := s2.setFld F.SLC_PORT_STAT_REDUCED 0 n j
  let s4 := if st = 7 then s3.bump F.SLC_PORT_STAT_DOWNS 1 n j else s3
  if up then s4.linkDown n j x else s4

/-- Whether the ports of a slice run: AWAKE, DRAINING, S1, or waking from S1 (R432). -/
def sliceRuns (s : State) (n : Nat) : Bool :=
  decide (s.fld F.PWR_SLICE_STAT_STATE n ≤ 2) || (s.fld F.PWR_SLICE_STAT_STATE n == 5 && lookupKey s.pwr.waking n == some 1)

/-- Whether a port may leave DISABLED: VALID, EN, neither it nor its slice masked, its slice awake (R32, R305, R433). -/
def portEnabled (s : State) (n j x : Nat) : Bool :=
  s.flag F.SLC_PORT_CFG_VALID n j && s.flag F.SLC_PORT_CTRL_EN n j
    && !bitOf (s.rd .GLB_DISABLED_PORT (x / 32)) (x % 32) && !bitOf (s.rd .GLB_DISABLED_SLICE) n && s.sliceRuns n

/-- A port that may run and is DISABLED starts, in DOWN_HOLD where it is held (R410, R412); one that may not goes to DISABLED
(R305). -/
def enablePort (s : State) (n j x : Nat) : State :=
  if s.portEnabled n j x then
    (if s.fld F.SLC_PORT_STAT_STATE n j ≠ 0 then s
     else if s.portHeld x then s.portDown n j x 7
     else s.enterWait n j x)
  else if s.fld F.SLC_PORT_STAT_STATE n j = 0 then s
  else s.portDown n j x 0

/-- The active lane list of a port that leaves ALIGN or RETRAIN (R305), and REDUCED; the receiver takes it from its next AM. -/
def takeLanes (s : State) (n j x : Nat) : State :=
  let m := lowestLanes (s.rxOk n j)
  let full := 2 ^ s.portWidth n j - 1
  let s1 := (s.setFld F.SLC_PORT_STAT_ACTIVE m n j).setFld F.SLC_PORT_STAT_REDUCED (b2n (m != full)) n j
  s1.setPort x { s1.port x with rxActive := m, rxNext := none, rxTurn := none }

/-- Entry to UP from HELLO: sequence numbers, credits, version, hunting, LINK_UP (R309, R327, R333, R337, R341). -/
def enterUp (s : State) (n j x : Nat) : State :=
  let minor := min (s.ownWalha n j % 256) (s.fld F.SLC_PORT_PEER0_WALHA_VER n j % 256)
  let s1 := (((s.enterState n j x 4).setFld F.SLC_WLK_STAT_EFF_MINOR minor n j).setFld F.SLC_WLK_STAT_TX_NEXT 0 n j).setFld
    F.SLC_WLK_STAT_RX_EXPECT 0 n j
  let s2 := (s1.grantCredits x).setFld F.SLC_WLK_STAT_HUNTING 1 n j
  ((s2.showKeyWait n j x).raiseLink 0x28 x).startSession n j x

/-- Return to UP from RETRAIN: state, credits and queues are kept, unacknowledged frames are sent again (R315). -/
def endRetrain (s : State) (n j x : Nat) : State :=
  (((s.takeLanes n j x).enterState n j x 4).setFld F.SLC_WLK_STAT_HUNTING 1 n j).retransmit x

/-- Whether a port's FEC change is over, when both ends ask for Low-latency (R309). -/
def fecDone (s : State) (n j x : Nat) : Bool :=
  let h := s.helloOf x
  s.flag F.SLC_PORT_CFG_FEC_STD n j || !h.fecAck || (!s.flag F.SLC_PORT_STAT_FEC_NOW n j && h.fecRxLow)

/-- Every lane of the port with light locked and deskewed, and one at least (R305). -/
def realigned (s : State) (n j : Nat) : Bool :=
  s.anyLight n j && (s.portLanes n j).all fun l =>
    !s.flag F.SLC_LANE_STAT_LIGHT n l || (s.laneLocked n l && s.deskewed n j l)

/-- HELLO and RETRAIN end when both ends have seen each other; HELLO in a tick after that of the hello (R305, R309). -/
def tryUp (s : State) (n j x : Nat) : State :=
  let h := s.helloOf x
  if h.peerSaw && h.seenSent && !s.portHeld x then
    (if s.portState x = 3 then (if s.fecDone n j x && decide (h.sawAt < s.now) then s.enterUp n j x else s)
     else if s.portState x = 5 then (if s.realigned n j then s.endRetrain n j x else s)
     else s)
  else s

/-- A port in UP enters RETRAIN; one already there stays (R314). -/
def startRetrain (s : State) (n j x : Nat) : State :=
  if s.portState x = 4 then
    ((s.enterState n j x 5).huntLanes n j).setFld F.SLC_WLK_STAT_HUNTING 1 n j
  else s

/-- A port quarantined with a reason (R311, R312). Leaving UP or RETRAIN this way, it drops what R306 names (log entry 18). -/
def quarantine (s : State) (n j x rsn : Nat) : State :=
  let s1 := (s.portDown n j x 6).setFld F.SLC_PORT_STAT_QRSN rsn n j
  s1.raiseLink 0x2A x

/-- Whether this end prevails over the partner (R317). -/
def prevails (s : State) (n j x : Nat) : Bool :=
  let a := s.helloAddr x
  let b := s.fld F.SLC_PORT_PEER0_ADDR n j
  !s.fabric x || decide (a < b) || (a == b && decide (x < s.fld F.SLC_PORT_PEER0_PORT n j))

/-- The proposal of an end (R316): the lowest lanes that both ends receive. -/
def propose (s : State) (n j x : Nat) : State :=
  let u := lowestLanes (Nat.land (s.rxOk n j) (s.fld F.SLC_PORT_PEER0_RX_OK n j))
  let h := s.helloOf x
  if u = 0 then s else s.setHello x { h with propOn := true, prop := u }

/-- The transmitter's new lane list takes effect (R316). -/
def narrow (s : State) (n j x mask : Nat) : State :=
  let full := 2 ^ s.portWidth n j - 1
  let s1 := s.setFld F.SLC_PORT_STAT_ACTIVE mask n j
  if mask = full ∨ s.flag F.SLC_PORT_STAT_REDUCED n j then s1
  else (s1.setFld F.SLC_PORT_STAT_REDUCED 1 n j).raiseLink 0x2C x

/-- An AM sent on a port: the changes that wait for it take effect (R301, R316). -/
def amSent (s : State) (n j x : Nat) : State :=
  let h := s.helloOf x
  let s1 := match h.txDue with
    | some m => (s.setHello x { h with txDue := none, propOn := h.rxDue.isSome }).narrow n j x m
    | none => s
  if h.fecTxDue then
    ((s1.setFld F.SLC_PORT_STAT_FEC_NOW 0 n j).setHello x { s1.helloOf x with fecTxDue := false }).tryUp n j x
  else s1

/-- An AM received on a port (R301, R316). -/
def amSeen (s : State) (n j x : Nat) : State :=
  let h := s.helloOf x
  let s0 := s.setHello x { h with rxDue := none, propOn := h.propOn && !(h.rxDue.isSome && h.txDue.isNone),
                                  fecRxDue := false, fecRxLow := h.fecRxLow || h.fecRxDue }
  let s1 := if h.rxDue.isSome then s0.setPort x { s0.port x with rxNext := h.rxDue } else s0
  s1.tryUp n j x

/-- What follows a change of the lanes of a port (R292, R302, R305, R316). -/
def lanesChanged (s : State) (n j x : Nat) : State :=
  let ls := s.portLanes n j
  let locked := ls.filter (s.laneLocked n)
  match s.portState x with
  | 1 => if s.anyLight n j then s.enterAlign n j x else s
  | 2 =>
    if s.realigned n j && !s.portHeld x then ((s.takeLanes n j x).enterState n j x 3) else s
  | 4 =>
    let act := ls.zipIdx.filter fun l => bitOf (s.fld F.SLC_PORT_STAT_ACTIVE n j) l.2
    if locked = [] ∨ act.all (fun l => !s.laneLocked n l.1) = true then s.portDown n j x 7
    else if act.any fun l => !s.laneLocked n l.1 then s.propose n j x
    else s
  | 5 => s.tryUp n j x
  | 6 => if ls.all fun l => s.fld F.SLC_LANE_STAT_LSTATE n l != 2 then s.portDown n j x 7 else s
  | _ => s

/-- A port by its number, with its place, or nothing when the image has none. -/
def onPort (s : State) (x : Nat) (f : Nat → Nat → State) : State :=
  match s.portAt x with
  | some (n, j) => f n j
  | none => s

end State

end Sys2Proof.Machine
end

