-- ==== Sys2Proof/Machine/Cmd.lean ====
section
/-! DEFINITION. Command packets: their layout, taking them, their checks, their responses (R365 to R375, R380, R381, R387,
R388, R399). -/

namespace Sys2Proof.Machine

/-- Fields of a command packet (R369). -/
def pkVer (b : Bytes) : Nat := leAt b 0 1
def pkOp (b : Bytes) : Nat := leAt b 1 1
def pkFlags (b : Bytes) : Nat := leAt b 2 2
def pkTag (b : Bytes) : Nat := leAt b 4 2
def pkFwd (b : Bytes) : Nat := leAt b 6 2
def pkAddr (b : Bytes) : Nat := leAt b 8 8
def pkLen (b : Bytes) : Nat := leAt b 16 4
def pkPart (b : Bytes) : Nat := leAt b 20 1
def pkArg (b : Bytes) : Nat := leAt b 24 8
def pkAuth (b : Bytes) : Bool := bitOf (pkFlags b) 0
def pkForwarded (b : Bytes) : Bool := bitOf (pkFlags b) 2
def pkViaHost (b : Bytes) : Bool := bitOf (pkFlags b) 3
/-- The chip an ADDR names, and the offset in its window (R376). -/
def pkChip (b : Bytes) : Nat := bitsOf (pkAddr b) 30 4
def pkOffset (b : Bytes) : Nat := bitsOf (pkAddr b) 0 30
def pkPayload (b : Bytes) : Bytes := Machine.slice b 32 (pkLen b)
def pkTrailer (b : Bytes) : Bytes := Machine.slice b (32 + pkLen b) 32
/-- Bytes of the whole packet. -/
def pkSize (b : Bytes) : Nat := 32 + pkLen b + (if pkAuth b then 32 else 0)

namespace TakenX

def op (c : TakenX) : Nat := pkOp c.bytes
def part (c : TakenX) : Nat := pkPart c.bytes
def arg (c : TakenX) : Nat := pkArg c.bytes
def offset (c : TakenX) : Nat := pkOffset c.bytes
def payload (c : TakenX) : Bytes := pkPayload c.bytes

end TakenX

/-- Opcodes of normal operation (R371). -/
def opcodes : List Nat :=
  [0x01, 0x02, 0x03, 0x08, 0x09, 0x0A, 0x10, 0x11, 0x12, 0x13, 0x18, 0x19, 0x1A, 0x20, 0x21, 0x22, 0x23, 0x24, 0x25, 0x26,
   0x27, 0x30, 0x31, 0x32, 0x33, 0x34, 0x35, 0x38, 0x39, 0x3A, 0x3B]

/-- Opcodes of a partition: CTX_ALLOC, GROUP_ALLOC, GROUP_FREE, MG_READ, MG_ACK, MG_CHECKPOINT, DEBUG_SET (R387). -/
def partOpcodes : List Nat := [0x08, 0x09, 0x0A, 0x18, 0x19, 0x1A, 0x33]

/-- A command from a host queue. -/
def CmdPath.isHost : CmdPath → Bool
  | .host _ _ => true
  | .frame _ _ => false

namespace State

def queue (s : State) (q : Nat) : QueueX := readKey {} s.cmd.queues q
def setQueue (s : State) (q : Nat) (x : QueueX) : State :=
  { s with cmd := { s.cmd with queues := writeKey {} s.cmd.queues q x } }

/-- The chip's own index (R376). -/
def ownChip (s : State) : Nat := s.fld F.GLB_ID_CHIP

/-! Responses -/

/-- A session by its ID. -/
def session (s : State) (id : Nat) : Option SessionX := s.sec.sessions.find? fun x => x.id == id

/-- A packet with FWD, FLAGS bits 2 and 3 and bit 15 at 0, as a MAC covers it (R399). -/
def macForm (b : Bytes) : Bytes :=
  let f := pkFlags b
  b.take 2 ++ leBytes 2 (f - bitsOf f 2 2 * 4 - bitsOf f 15 1 * 2 ^ 15) ++ Machine.slice b 4 2 ++ leBytes 2 0 ++ b.drop 8

/-- The MAC of a packet under a session, direction 0 for commands and 1 for responses (R399). -/
def macOf (ems : Bytes) (dir : Nat) (packet trailer16 : Bytes) : Bytes :=
  (Config.hmacSha384 (Config.hkdfExpand ems (ascii 5 "Y5CMD" ++ leBytes 1 dir) 48) (macForm packet ++ trailer16)).take 16

/-- A response packet (R370), PHASE 0: a status other than OK has no payload; a session's command gets a trailer. -/
def responseBytes (s : State) (c : TakenX) (status arg : Nat) (payload : Bytes) : Bytes :=
  let body := if status = 0 then payload else []
  let flags := 2 + b2n c.session.isSome + 4 * b2n (pkForwarded c.bytes)
  let h := Machine.slice c.bytes 0 2 ++ leBytes 2 flags ++ Machine.slice c.bytes 4 12 ++ leBytes 4 body.length
    ++ Machine.slice c.bytes 20 1 ++ leBytes 1 0 ++ leBytes 2 status ++ leBytes 8 arg
  match c.session.bind s.session with
  | some x =>
    let t := Machine.slice (pkTrailer c.bytes) 0 12 ++ leBytes 4 0
    h ++ body ++ t ++ macOf x.ems 1 (h ++ body) t
  | none => h ++ body

/-- A response written to a completion ring with its PHASE (R367), or discarded once the queue pair has been reset
(R368). -/
def deliverHost (s : State) (q gen : Nat) (b : Bytes) : State :=
  let x := s.queue q
  if gen ≠ x.gen ∨ ¬ s.flag F.MGT_QP_CTRL_EN q then s.bump F.MGT_HP_STAT_RSP_LOST
  else
    let flags := putBits (pkFlags b) 15 1 (b2n x.phase)
    let size := 2 ^ s.fld F.MGT_CQ_CFG_LOG2 q
    let tail := s.fld F.MGT_CQ_TAIL_TAIL q + ceilDiv b.length 64
    let s1 := (s.setQueue q { x with reserved := x.reserved - 1, phase := if size ≤ tail then !x.phase else x.phase }).setFld
      F.MGT_CQ_TAIL_TAIL (tail % size) q
    let s2 := s1.emit (.completion q (b.take 2 ++ leBytes 2 flags ++ b.drop 4))
    if s.flag F.MGT_QP_CTRL_IRQ_EN q then s2.emit (.interrupt (s.fld F.MGT_QP_CTRL_VECTOR q)) else s2

/-- A response to a CMD frame: CMD_RSP_Y5 to a Y5 across a fabric port, CMD_RSP otherwise (R331, R375). -/
def deliverFrame (s : State) (x src part : Nat) (b : Bytes) : State :=
  let typ := if src % 32 = 0 ∧ s.fabric x then Frame.CMD_RSP_Y5 else Frame.CMD_RSP
  s.originate (s.sliceOf x) { typ := typ, cls := 6, part := part, dest := src, payload := b }

/-- A response goes back on the path of its command. -/
def deliver (s : State) (c : TakenX) (b : Bytes) : State :=
  match c.path with
  | .host q gen => s.deliverHost q gen b
  | .frame x src => s.deliverFrame x src c.part b

/-- The one response of a command (R370). SEC_AUTH_FAIL goes with AUTH, SESSION_UNKNOWN and SEQ_REPLAY (R406). -/
def respond (s : State) (c : TakenX) (status : Nat) (arg : Nat := 0) (payload : Bytes := []) : State :=
  let s1 := if status = 6 ∨ status = 0x301 ∨ status = 0x302 then s.report 0x34 0 else s
  s1.deliver c (s1.responseBytes c status arg payload)

/-! Checks -/

/-- The partition whose scope an offset of the chip window lies in; none for device scope (R387). -/
def scopeOf (s : State) (off : Nat) : Option Nat :=
  if 0x1000 ≤ off ∧ off < 0x2000 then some ((off - 0x1000) / 0x100)
  else if 0x580000 ≤ off ∧ off < 0x600000 then s.image.ctxOwner ((off - 0x580000) / 0x80)
  else if 0x2000000 ≤ off ∧ off < 0x4000000 then
    (s.image.device.cores.find? fun g => g.1 == (off - 0x2000000) / 0x10000).map (·.2)
  else if 0x10000000 ≤ off ∧ off < 0x20000000 then
    (s.image.device.cores.find? fun g => g.1 == (off - 0x10000000) / 0x80000).map (·.2)
  else none

/-- Offsets of the 4-byte words a register command names; a REG_READ whose ARG is no byte count of R371 names none. -/
def wordsOf (b : Bytes) : List Nat :=
  let n := if pkOp b ≠ 2 then pkLen b / 4 else if pkArg b % 4 = 0 ∧ pkArg b ≤ 8160 then pkArg b / 4 else 0
  (List.range (min n 2040)).map fun i => pkOffset b + 4 * i

/-- Whether a role may act on partition p (R387). -/
def partAllows (s : State) (r : Role) (p : Nat) : Bool :=
  match r with
  | .tenant t => t == p
  | .host | .operator => s.flag F.SEC_PART_STAT_OPERATOR_ACCESS p
  | _ => false

/-- HOST or OPERATOR. -/
def rules (r : Role) : Bool := r == .host || r == .operator

/-- The permission check of R387 for one word of a register command. -/
def wordAllows (s : State) (r : Role) (write : Bool) (off : Nat) : Bool :=
  match s.scopeOf off with
  | some p => s.partAllows r p
  | none => rules r || (!write && r == .peer)

/-- The permission check of R387; EVT_READ, TEL_SNAPSHOT and TEL_READ are device-scope reads (R421). -/
def permitted (s : State) (r : Role) (b : Bytes) : Bool :=
  match pkOp b with
  | 0x01 | 0x30 | 0x31 => true
  | 0x02 => (wordsOf b).all (s.wordAllows r false)
  | 0x03 => (wordsOf b).all (s.wordAllows r true)
  | 0x34 => rules r || r == .tenant (pkPart b)
  | 0x38 | 0x3A | 0x3B => rules r || r == .peer
  | op => if partOpcodes.contains op then s.partAllows r (pkPart b) else rules r

/-- The partition commands and PART_REMOVE and LINK_REKEY name a defined partition (R373). -/
def partOk (s : State) (b : Bytes) : Bool :=
  !(partOpcodes ++ [0x34, 0x35]).contains (pkOp b) || s.partDefined (pkPart b)

/-- Reserved fields of a command (R369, R370, R380). -/
def reservedOk (b : Bytes) : Bool :=
  bitsOf (pkFlags b) 4 12 == 0 && !bitOf (pkFlags b) 1 && pkAddr b / 2 ^ 34 == 0 && decide (pkPart b ≤ 15)
    && leAt b 21 1 == 0 && leAt b 22 2 == 0 && (pkForwarded b || pkFwd b == 0) && (pkForwarded b || !pkViaHost b)

/-- Whether the boot ROM runs in recovery mode. -/
def recovering (s : State) : Bool := s.flag F.GLB_STATUS_RECOVERY

/-- Header checks after VER and LEN (R374): FORMAT, OPCODE, BOARD_MISMATCH; 0 when they pass. -/
def headerStatus (s : State) (b : Bytes) : Nat :=
  if !reservedOk b then 3
  else if !(opcodes.contains (pkOp b) || (s.recovering && decide (0x2C ≤ pkOp b) && decide (pkOp b ≤ 0x2F))) then 2
  else if pkForwarded b && pkChip b != s.ownChip then 0xC
  else 0

/-- VER and LEN (R369). -/
def framed (b : Bytes) : Bool := pkVer b == 1 && decide (pkSize b ≤ 8192)

/-- Whether a board table entry holds a frame's SRC coordinates (R380). -/
def boardNames (s : State) (src : Nat) : Bool :=
  (List.range 16).any fun i => i != s.ownChip && s.flag F.MGT_BOARD_VALID i && s.fld F.MGT_BOARD_COORD i == src / 32

/-- The role a path gives a command without a trailer (R380, R386). -/
def pathRole (s : State) (path : CmdPath) (b : Bytes) : Role :=
  let openHost := s.flag F.SEC_POLICY_HOST_OPEN
  match path with
  | .host _ _ => if openHost then .host else .observer
  | .frame x src =>
    if pkForwarded b && pkViaHost b && s.boardNames src && openHost then .host
    else if (s.port x).session.isSome then
      (if src != s.linkPeer x then .observer else if s.fabric x then .peer else .endpoint)
    else .observer

/-- Whether the party at an in-band SRC holds a role other than OBSERVER (R388). -/
def admitted (s : State) (path : CmdPath) (b : Bytes) : Bool :=
  [0x01, 0x30, 0x31].contains (pkOp b) ||
    match path with
    | .host _ _ => true
    | .frame _ src => s.pathRole path b != .observer || s.sec.sessions.any fun x => x.src == some src && x.role != .observer

/-- The trailer check of R399: its status, and the session. -/
def trailerCheck (s : State) (b : Bytes) : Nat × Option SessionX :=
  let t := pkTrailer b
  match s.session (leAt t 0 4) with
  | none => (0x301, none)
  | some x =>
    let stale := match x.seq with
      | some k => decide (leAt t 4 8 ≤ k)
      | none => false
    if stale then (0x302, none)
    else if Machine.slice t 16 16 ≠ macOf x.ems 0 (b.take (32 + pkLen b)) (t.take 16) then (6, none)
    else (0, some x)

/-- Whether a command comes from the PEER that is the upstream of the relay table, with an opcode R458 opens to it. -/
def upstream (s : State) (path : CmdPath) (r : Role) (b : Bytes) : Bool :=
  match path with
  | .frame _ src => r == .peer && [0x20, 0x21, 0x22].contains (pkOp b) && s.image.relay.up == some (src / 32)
  | .host _ _ => false

/-- The status of a command without trailer whose path's role may not do what it asks: AUTH where only a session could permit it,
as HOST may not either, or the host port is not open; PERMISSION otherwise (R32, R387, R399; log entry 22). -/
def noTrailer (s : State) (path : CmdPath) (b : Bytes) : Nat :=
  if !s.permitted .host b || (path.isHost && !s.flag F.SEC_POLICY_HOST_OPEN) then 6 else 7

/-- Checks of a command for this chip after the header checks (R374, R387, R388, R399): the status, and the command as
taken. -/
def commandCheck (s : State) (path : CmdPath) (b : Bytes) : Nat × TakenX :=
  let c : TakenX := { path := path, bytes := b }
  if s.recovering then (if path.isHost && (pkOp b == 1 || (decide (0x2C ≤ pkOp b) && decide (pkOp b ≤ 0x2F))) then 0 else 1, c)
  else if ¬ s.flag F.GLB_STATUS_MP_READY then (1, c)
  else if pkAuth b then
    let t := s.trailerCheck b
    match t.2 with
    | none => (t.1, c)
    | some x =>
      let d := { c with session := some x.id, role := x.role }
      if !s.partOk b then (8, d)
      else if s.permitted x.role b || s.upstream path x.role b then (0, d)
      else (7, d)
  else
    let r := s.pathRole path b
    let d := { c with role := r }
    if !s.admitted path b then (6, d)
    else if !s.partOk b then (8, d)
    else if s.permitted r b || s.upstream path r b then (0, d)
    else (s.noTrailer path b, d)

/-- The last SEQ of a command's session is the command's (R399). -/
def noteSeq (s : State) (c : TakenX) : State :=
  match c.session with
  | some id =>
    { s with sec := { s.sec with sessions := s.sec.sessions.map fun x =>
      if x.id = id then { x with seq := some (leAt (pkTrailer c.bytes) 4 8) } else x } }
  | none => s

/-- A command that has been read goes on: checked, refused with a status, or taken for execution or forwarding. -/
def takeCommand (s : State) (path : CmdPath) (b : Bytes) : State :=
  let h := s.headerStatus b
  let raw : TakenX := { path := path, bytes := b }
  if h ≠ 0 then s.respond raw h
  else if pkChip b ≠ s.ownChip then
    { s with cmd := { s.cmd with taken := s.cmd.taken ++ [{ raw with role := s.pathRole path b }] } }
  else
    let r := s.commandCheck path b
    if r.1 ≠ 0 then s.respond r.2 r.1
    else (({ s with cmd := { s.cmd with taken := s.cmd.taken ++ [r.2] } } : State)).noteSeq r.2

/-! Ready packets -/

/-- Slots of the packet at the head of a queue: 1 when its boundaries cannot be known (R366). -/
def headSlots (x : QueueX) : Nat :=
  let b := (x.slots.headD (0, [])).2
  if framed b then ceilDiv (pkSize b) 64 else 1

/-- The tick at which the head packet of a host queue became ready, when it can be taken (R366, R367, R381). -/
def hostReady (s : State) (q : Nat) : Option Nat :=
  let x := s.queue q
  let k := headSlots x
  let size := 2 ^ s.fld F.MGT_CQ_CFG_LOG2 q
  let used := (s.fld F.MGT_CQ_TAIL_TAIL q + size - s.fld F.MGT_CQ_HEAD_HEAD q % size) % size
  if s.flag F.MGT_QP_CTRL_EN q && !s.flag F.MGT_QP_STAT_STOPPED q && x.slots != [] && decide (k ≤ x.slots.length)
    && decide (used + 128 * (x.reserved + 1) ≤ size - 1) then
    (x.slots[k - 1]?).map (·.1)
  else none

/-- The host queue whose head packet is taken next, with its ready tick: earliest first, then ascending number. -/
def nextHost (s : State) : Option (Nat × Nat) :=
  (List.range 8).foldl (fun m q =>
    match s.hostReady q, m with
    | some t, none => some (q, t)
    | some t, some (p, u) => if t < u then some (q, t) else some (p, u)
    | none, m => m) none

/-- The head packet of a host queue taken (R366, R367). -/
def takeHost (s : State) (q : Nat) : State :=
  let x := s.queue q
  let k := headSlots x
  let raw := (x.slots.take k).flatMap (·.2)
  let b := if framed raw then raw.take (pkSize raw) else raw.take 64
  let s1 := s.setQueue q { x with slots := x.slots.drop k, reserved := x.reserved + 1 }
  let s2 := (s1.setFld F.MGT_SQ_HEAD_HEAD ((s.fld F.MGT_SQ_HEAD_HEAD q + k) % 2 ^ s.fld F.MGT_SQ_CFG_LOG2 q) q).wrap
    F.MGT_QP_STAT_TAKEN 1 q
  if framed b then s2.takeCommand (.host q x.gen) b
  else (s2.setFld F.MGT_QP_STAT_STOPPED 1 q).respond { path := .host q x.gen, bytes := b } 3

/-- The oldest in-band command taken; its buffers and credits go back (R234, R375). -/
def takeInband (s : State) (i : InbandX) (rest : List InbandX) : State :=
  let s1 : State := { s with cmd := { s.cmd with inband := rest } }
  let s2 := match i.copy with
    | some id => s1.freeCopy id
    | none => s1
  let path := CmdPath.frame i.port i.src
  if framed i.bytes && i.bytes.length == pkSize i.bytes then s2.takeCommand path i.bytes
  else s2.respond { path := path, bytes := Machine.slice i.bytes 0 32 } 3

/-- The in-band commands that wait; one whose copy was dropped with its slice is gone (R251). -/
def waitingInband (s : State) : List InbandX :=
  s.cmd.inband.filter fun i => match i.copy with
    | some id => s.copies.any fun k => k.id == id
    | none => true

/-- The engine takes the ready command that is next in the order of R381. -/
def takeNext (s : State) : State :=
  match s.nextHost, s.waitingInband with
  | some (q, t), i :: rest => if t ≤ i.tick then s.takeHost q else s.takeInband i rest
  | some (q, _), [] => s.takeHost q
  | none, i :: rest => s.takeInband i rest
  | none, [] => s

/-- The oldest taken command, when it is for this chip and has the opcode, is executed. -/
def run (s : State) (op : Nat) (f : State → TakenX → State) : State :=
  match s.cmd.taken with
  | c :: rest =>
    if c.op = op ∧ pkChip c.bytes = s.ownChip then f { s with cmd := { s.cmd with taken := rest } } c else s
  | [] => s

end State

end Sys2Proof.Machine
end

