-- ==== Sys2Proof/Machine/Contexts.lean ====
section
/-! DEFINITION. Contexts and groups: allocation (R110, R111), the commands of one tick (R113 to R119), launch starts
(R117, R159, R52), abort frames (R119) and the launch timeout (R138). -/

namespace Sys2Proof.Machine

namespace State

/-- Whether the committed image defines a context and grants it to a partition (R118). -/
def ctxDefined (s : State) (c : Nat) : Bool :=
  s.ctxGranted c (s.ctxPart c) && decide (0 < s.fld F.SCH_CTX_CFG_TILES c)

/-- SEC_PARTp_STAT.STATE (R403). -/
def partState (s : State) (p : Nat) : Nat := s.fld F.SEC_PART_STAT_STATE p

/-- A removal of the partition is in progress (R403). -/
def leaving (s : State) (p : Nat) : Bool := decide (2 ≤ s.partState p)

/-- A command or write for a context was ignored. -/
def cmdIgnored (s : State) (c : Nat) : State := s.setFld F.SCH_CTX_STATUS_CMD_IGNORED 1 c

/-- Whether a held containment bars ARMs of a context (R410): of the context, its partition or a pool of its partition. -/
def ctxContained (s : State) (c : Nat) : Bool :=
  s.fc.held.any fun h => (h.1 == 0x10 && h.2 == c)
    || ((h.1 == 0x11 || h.1 == 0x12) && h.2 == s.ctxPart c)
    || (decide (0x20 ≤ h.1) && decide (h.1 ≤ 0x23) && h.2 % 32 == s.ctxPart c)

/-- Whether an ARM of LAUNCHES launches takes effect in Bound or Completed (R117, R151, R159, R403, R410, R412). -/
def armOk (s : State) (c launches : Nat) : Bool :=
  let start := s.fld F.SCH_CTX_START_START c
  launches != 0 && !s.safe && !s.leaving (s.ctxPart c) && !s.ctxContained c
    && (!s.scheduled c || (decide (s.count ≤ start) && start % 2 ^ s.fld F.SCH_ROUND_CFG_LOG2_LEN == 0
      && decide (2 ≤ s.fld F.SCH_SYNC_STATUS_STATE)))

/-- ARM takes effect (R116, R117). -/
def arm (s : State) (c launches : Nat) : State :=
  let s1 := (((s.setFld F.SCH_CTX_STATUS_STATE 3 c).setFld F.SCH_CTX_STATUS_COMPLETED 0 c).setFld F.SCH_CTX_STATUS_ABORTED 0
    c).setFld F.SCH_CTX_STATUS_ABORT_IGNORED 0 c
  ((s1.setFld F.SCH_CTX_STATUS_LEFT launches c).setCtx c
    { s.ctx c with base := s.fld F.SCH_CTX_START_START c, index := 0, armedAt := s.now, deferred := false, heldBack := false,
                   released := 0 }).showStall (s.ctxPart c)

/-- The children a context has at this Y5 (R112). -/
def childCount (s : State) (c : Nat) : Nat := (s.image.treesOf c).foldl (fun a t => max a t.children.length) 0

/-- The inputs a context has at this Y5. -/
def inputsOf (s : State) (c : Nat) : List Nat :=
  (s.localMembers c).map (·.1) ++ (List.range (s.childCount c)).map (32 + ·)

/-- BIND_RSN of a binding under the pending values; 0 when it is accepted (R113). -/
def bindRsn (s : State) (c : Nat) : Nat :=
  let g := s.rdShadow .SCH_CTX_GROUP c
  let p0 := s.rdShadow .SCH_CTX_PRESENT0 c
  let p1 := s.rdShadow .SCH_CTX_PRESENT1 c
  let e := bitsOf g 36 4
  let x := s.ctx c
  let bits := (List.range 77).filter fun i => if i < 64 then bitOf p0 i else bitOf p1 (i - 64)
  let used := readKey 0 x.unbinds e
  let members := bitsOf g 16 18
  let order := match x.lastEpoch with
    | some l => e == (l + 1) % 16
    | none => true
  if !order then 1
  else if s.now < max s.resetEnd used + s.lifeLimit then 2
  else if !s.groups.contains (s.ctxPart c * 65536 + bitsOf g 0 16) then 3
  else if bits.isEmpty || bits.any (fun i => !(s.inputsOf c).contains i) then 4
  else if members = 0 ∨ 131072 < members ∨ members < ((s.localMembers c).filter fun m => bits.contains m.1).length then 5
  else 0

/-- COMMIT in Unbound or Reserved: the context is bound, or the reason is shown (R113 to R116, R270). -/
def bindCtx (s : State) (c : Nat) : State :=
  let r := s.bindRsn c
  if r ≠ 0 then s.setFld F.SCH_CTX_STATUS_BIND_RSN r c
  else
    let s1 := ((s.commitShadow .SCH_CTX_GROUP c).commitShadow .SCH_CTX_PRESENT0 c).commitShadow .SCH_CTX_PRESENT1 c
    let s2 := (((s1.wr .SCH_CTX_STATUS 2 c).setFld F.SCH_CTX_STALE_STALE 0 c).setFld F.SCH_CTX_REJECT_REJECT 0 c).setFld
      F.SCH_CTX_LAUNCH_LCOUNT 0 c
    let s3 := (s2.setFld F.SCH_CTX_RATE_RATE (s.fld F.SCH_CTX_RLIM_RATE_MAX c) c).setFld F.SCH_CTX_RATE_ECHOES 0 c
    s3.setCtx c { unbinds := (s.ctx c).unbinds, lastEpoch := some (s1.epoch c), words := (s.ctx c).words,
                  slots := (s.ctx c).slots }

/-- UNBIND: Unbound, the tick recorded as the end of the epoch's use (R113, R116). Buffers and core state are freed at the end of
the tick, when no other command of it can have the UNBIND ignored (R118). -/
def unbindCtx (s : State) (c : Nat) : State :=
  let x := s.ctx c
  let s1 := s.setFld F.SCH_CTX_STATUS_STATE 0 c
  if s.ctxState c = 1 then s1
  else
    let s2 := (s1.setCtx c { unbinds := writeKey 0 x.unbinds (s.epoch c) s.now, lastEpoch := x.lastEpoch }).showStall
      (s.ctxPart c)
    { s2 with unbound := s2.unbound.filter (· != c) ++ [c] }

/-- The buffers and core state of the contexts unbound in the tick are freed (R116). -/
def freeUnbound (s : State) : State :=
  s.unbound.foldl (fun a c => (a.freeWhere (uncommitted c)).abortCores c) { s with unbound := [] }

/-- The end of the data path of a tick (R357, step 4): admissions, the outcome of aborts (R119), what UNBIND frees. -/
def closeTick (s : State) : State := s.admitAll.decideAborts.freeUnbound

/-- The commands of one tick for a context, given together (R118, R119). A context that completed in this tick was Running when
they came (R357). -/
def applyCtx (s : State) (c : Nat) (w : CtxBits) : State :=
  let others := w.arm || w.cancel || w.abort || w.go
  if !s.ctxDefined c then (if others || w.unbind then s.cmdIgnored c else s)
  else
    let st := if s.ctxState c = 5 ∧ (s.ctx c).endedAt = some s.now then 4 else s.ctxState c
    let unbind := w.unbind && !others
    let armed := w.arm && s.armOk c w.launches.toNat
    let ignored := (w.unbind && others) || (w.arm && !armed)
    if st ≤ 1 then
      let s1 := if w.go then s.bindCtx c else s
      let s2 := if unbind && st == 1 then s1.unbindCtx c else s1
      if w.arm || w.cancel || w.abort || (w.unbind && (others || st == 0)) then s2.cmdIgnored c else s2
    else if st = 2 ∨ st = 5 then
      let s1 := if armed && w.cancel then s.toAborted c 2
        else if armed then s.arm c w.launches.toNat
        else if unbind then s.unbindCtx c else s
      if ignored || w.go || w.abort || (w.cancel && !armed) then s1.cmdIgnored c else s1
    else if st = 3 then
      let s1 := if w.cancel then s.abortCtx c 2 else if w.abort then s.abortCtx c 1 else s
      if w.arm || w.unbind || w.go then s1.cmdIgnored c else s1
    else if st = 4 then
      let s1 := if w.abort then s.abortCtx c 1 else s
      if w.arm || w.unbind || w.go || w.cancel then s1.cmdIgnored c else s1
    else
      let s1 := if unbind then s.unbindCtx c else s
      if others then s1.cmdIgnored c else s1

/-- Whether a register offset lies in a context's block. -/
def inBlock (c a : Nat) : Bool := decide (RegName.SCH_CTX_CFG.addr c ≤ a) && decide (a < RegName.SCH_CTX_CFG.addr c + 0x80)

/-- What the commands for a context can change, as it stands. -/
def cmdView (s : State) (c : Nat) : CtxView :=
  { regs := s.regs.filter fun e => inBlock c e.1, shadow := s.shadow.filter fun e => inBlock c e.1, run := s.ctx c,
    aborts := s.aborts.filter fun a => a.ctx == c, unbound := s.unbound.contains c }

/-- What the commands for a context can change, put back. -/
def setCmdView (s : State) (c : Nat) (v : CtxView) : State :=
  let put (m : List (Nat × BitVec 64)) (l : List (Nat × BitVec 64)) : List (Nat × BitVec 64) :=
    l.foldl (fun m e => writeKey 0#64 m e.1 e.2) (m.filter fun e => !inBlock c e.1)
  ({ s with regs := put s.regs v.regs, shadow := put s.shadow v.shadow,
            aborts := (s.aborts.filter fun a => a.ctx != c) ++ v.aborts,
            unbound := s.unbound.filter (· != c) ++ (if v.unbound then [c] else []) } : State).setCtx c v.run

/-- The bits of two writes given as one; LAUNCHES is that of the later ARM (log entry 10). -/
def bothWrites (a b : CtxBits) : CtxBits :=
  { arm := a.arm || b.arm, cancel := a.cancel || b.cancel, abort := a.abort || b.abort, unbind := a.unbind || b.unbind,
    go := a.go || b.go, launches := if b.arm then b.launches else a.launches }

/-- A write of SCH_CTX_CMD or SCH_CTX_COMMIT: the commands of one tick act as though they came in one write (R118), which acts on
the context as it stood before them unless something else has changed it since. None acts while the MP is in reset (R120). -/
def writeCtx (s : State) (c : Nat) (w : CtxBits) : State :=
  let now := s.cmdView c
  let note (t : State) (w : CtxBits) (v : CtxView) : State :=
    { t with ctxWrites := (t.ctxWrites.filter fun e => e.1 != c) ++ [(c, w, v, t.cmdView c)] }
  if s.flag F.GLB_STATUS_MP_READY then
    match s.ctxWrites.find? fun e => e.1 == c with
    | some e =>
      if e.2.2.2 = now then
        let b := bothWrites e.2.1 w
        note ((s.setCmdView c e.2.2.1).applyCtx c b) b e.2.2.1
      else note (s.applyCtx c w) w now
    | none => note (s.applyCtx c w) w now
  else s

/-- A launch is due: it begins, or is held under R52, or deferred under R159 while the launch before it runs. -/
def launchStart (s : State) (c : Nat) : State :=
  let st := s.ctxState c
  let x := s.ctx c
  if (st = 3 ∨ st = 4) ∧ s.fld F.SCH_CTX_STATUS_LEFT c ≠ 0 ∧ s.startDue c = true then
    if x.active then (if s.scheduled c then s.setCtx c { x with deferred := true } else s)
    else if s.mgAdmits (s.ctxPart c) then s.openLaunch c
    else (s.setCtx c { x with heldBack := true }).showStall (s.ctxPart c)
  else s

/-- Whether a Y5 is the parent or a present child in a tree of the context. -/
def neighbour (s : State) (c coord : Nat) : Bool :=
  (s.image.treesOf c).any fun t => (t.parent != 0xFF && s.parentCoord t == coord) || (s.presentKids c t).contains coord

/-- An abort frame from a neighbour Y5 (R119). -/
def abortFrame (s : State) (c part epoch src : Nat) : State :=
  if s.ctxGranted c part && s.epoch c == epoch && s.neighbour c (src / 32) then s.abortCtx c 3 (some (src / 32)) else s

/-- The launch in progress has run for SCH_CTX_TMO µs (R138). -/
def ctxTimeout (s : State) (c : Nat) : State :=
  let x := s.ctx c
  if x.active && !x.timedOut && decide (x.startedAt + s.fld F.SCH_CTX_TMO_TMO c * 1000 ≤ s.now) then
    let s1 := (s.setCtx c { x with timedOut := true }).report 0x10 c (leBytes 16 (s.rd .SCH_CTX_STATUS c))
    if s.sevOf 0x10 < 2 then s1 else s1.abortCtx c 5
  else s

/-- The lowest group ID from g on that a list does not hold, looked for in as many steps as it has entries (R111). -/
def freeGroup (l : List Nat) : (steps g : Nat) → Nat
  | 0, g => g
  | k + 1, g => if l.contains g then freeGroup l k (g + 1) else g

/-- The group IDs of a partition that are allocated, rising. -/
def groupsOf (s : State) (p : Nat) : List Nat := (s.groups.filter fun g => g / 65536 == p).map (· % 65536)

/-- A group ID is marked allocated. -/
def addGroup (s : State) (p g : Nat) : State :=
  let k := p * 65536 + g
  { s with groups := s.groups.filter (· < k) ++ k :: s.groups.filter (k < ·) }

/-- Whether a bound context of the partition holds a group ID. -/
def groupHeld (s : State) (p g : Nat) : Bool :=
  s.image.device.contexts.any fun e => e.2 == p && decide (2 ≤ s.ctxState e.1) && s.fld F.SCH_CTX_GROUP_GROUP e.1 == g

/-- The lowest Unbound context of a partition and template (R110). -/
def freeCtx (s : State) (p t : Nat) : Option Nat :=
  ((s.image.device.contexts.filter fun e => e.2 == p && s.ctxDefined e.1 && s.fld F.SCH_CTX_CFG_TEMPLATE e.1 == t
    && s.ctxState e.1 == 0).map (·.1)).min?

/-- Contexts aborted with ABORT_RSN 0x6. -/
def abortAll (s : State) (cs : List Nat) : State := cs.foldl (fun a c => a.abortCtx c 6) s

/-- The cores of a slice. -/
def sliceCores (n : Nat) : List Nat := (List.range 32).map (32 * n + ·)

/-- A core in a state deeper than S1: its launch aborted, its registers lost, OFF (R193). -/
def offCore (s : State) (n : Nat) : State :=
  let cs := ((s.runCtx n).toList ++ (s.core n).starts.map fun p => s.fld F.RC_BIND_CTX n p.entry).eraseDups
  let s1 := s.abortAll (cs.filter fun c => s.ctxState c == 3 || s.ctxState c == 4)
  let b := RegName.RC_ID.addr n
  let keep (a : Nat) : Bool := decide (a < b) || decide (b + 0x10000 ≤ a) || a == b
    || (decide (b + 0x100 ≤ a) && decide (a < b + 0x180))
  ({ s1 with regs := s1.regs.filter fun e => keep e.1 } : State).setCore n {}

end State

/-- CTX_ALLOC (R110, R371). -/
def execCtxAlloc (s : State) : Host.Outcome State Fault Refusal :=
  .next (s.run 0x08 fun a c =>
    if 256 ≤ c.arg then a.respond c 3
    else if a.leaving c.part then a.respond c 0xD
    else match a.freeCtx c.part c.arg with
      | some x => (a.setFld F.SCH_CTX_STATUS_STATE 1 x).respond c 0 x
      | none => a.respond c 0x41)

/-- GROUP_ALLOC (R111, R371). -/
def execGroupAlloc (s : State) : Host.Outcome State Fault Refusal :=
  .next (s.run 0x09 fun a c =>
    let l := a.groupsOf c.part
    let low := State.freeGroup l l.length 0
    let g := if bitOf c.arg 16 then low else c.arg % 65536
    if 2 ^ 17 ≤ c.arg then a.respond c 3
    else if a.leaving c.part then a.respond c 0xD
    else if 65536 ≤ low then a.respond c 0x43
    else if l.contains g then a.respond c 0x4A
    else (a.addGroup c.part g).respond c 0 g)

/-- GROUP_FREE (R111). -/
def execGroupFree (s : State) : Host.Outcome State Fault Refusal :=
  .next (s.run 0x0A fun a c =>
    if 65536 ≤ c.arg then a.respond c 3
    else if ¬ (a.groupsOf c.part).contains c.arg then a.respond c 0x48
    else if a.groupHeld c.part c.arg then a.respond c 0x47
    else ({ a with groups := a.groups.filter (· != c.part * 65536 + c.arg) } : State).respond c 0)

/-- A write of SCH_CTX_COMMIT.GO (R113, R118). -/
def execCtxCommitGo (c : Nat) (w : CtxBits) (s : State) : Host.Outcome State Fault Refusal :=
  .next (s.writeCtx c { w with go := true })

/-- A write of SCH_CTX_CMD.ARM (R117, R118). -/
def execCtxArm (c : Nat) (w : CtxBits) (s : State) : Host.Outcome State Fault Refusal :=
  .next (s.writeCtx c { w with arm := true })

/-- A write of SCH_CTX_CMD.CANCEL (R118). -/
def execCtxCancel (c : Nat) (w : CtxBits) (s : State) : Host.Outcome State Fault Refusal :=
  .next (s.writeCtx c { w with cancel := true })

/-- A write of SCH_CTX_CMD.ABORT (R119). -/
def execCtxAbort (c : Nat) (w : CtxBits) (s : State) : Host.Outcome State Fault Refusal :=
  .next (s.writeCtx c { w with abort := true })

/-- A write of SCH_CTX_CMD.UNBIND (R116, R118). -/
def execCtxUnbind (c : Nat) (w : CtxBits) (s : State) : Host.Outcome State Fault Refusal :=
  .next (s.writeCtx c { w with unbind := true })

/-- LAUNCH_START (R117). -/
def execLaunchStart (c : Nat) (s : State) : Host.Outcome State Fault Refusal := .next (s.launchStart c)

/-- ABORT_FRAME_RX (R119). -/
def execAbortFrameRx (c part epoch src : Nat) (s : State) : Host.Outcome State Fault Refusal :=
  .next (s.abortFrame c part epoch src)

/-- CTX_TIMEOUT (R138). -/
def execCtxTimeout (c : Nat) (s : State) : Host.Outcome State Fault Refusal := .next (s.ctxTimeout c)

end Sys2Proof.Machine
end

