-- ==== Sys2Proof/Machine/Marigold.lean ====
section
/-! DEFINITION. The Marigold engine: the contract digest (R42, R45), record windows (R43 to R45), entries, chain and queue
(R41, R48 to R52, R488), drain (R53 to R55) and checkpoints (R56). -/

namespace Sys2Proof.Machine

namespace State

/-- A 256-bit value written to four registers of a partition's block. -/
def setDigest (s : State) (r : RegName) (p : Nat) (d : Bytes) : State :=
  (List.range 4).foldl (fun a k => a.wr r (leAt d (8 * k) 8) p k) s

/-- A 256-bit value of a partition's block. -/
def partDigest (s : State) (r : RegName) (p : Nat) : Bytes := (List.range 4).flatMap fun k => leBytes 8 (s.rd r p k)

/-- The MP firmware digest. -/
def fwDigest (s : State) : Bytes := (List.range 4).flatMap fun k => leBytes 8 (s.rd .GLB_FW_DIGEST k)

/-- The contract digest of a partition under the present terms (R42). -/
def contractNow (s : State) (p : Nat) : Bytes :=
  sha3 (5#8 :: leBytes 8 (s.rd .GLB_REPLAY_CLASS) ++ s.fwDigest ++ s.partDigest .CFG_PART_DIGEST p
    ++ leBytes 2 (s.rd .GLB_DISABLED_SLICE) ++ (List.range 8).flatMap (fun k => leBytes 4 (s.rd .GLB_DISABLED_PORT k))
    ++ (List.range 16).flatMap (fun k => leBytes 4 (s.rd .GLB_DISABLED_CORE k)))

/-- The contract terms may have changed: each running record takes the digest and notes the tick (R45). -/
def noteTerms (s : State) : State :=
  (List.range 16).foldl (fun a p =>
    let m := a.mgOf p
    let d := a.contractNow p
    if m.running && a.partDigest .GLB_MG_CONTRACT p != d then
      (a.setDigest .GLB_MG_CONTRACT p d).setMg p { m with changedAt := some a.count }
    else a) s

/-- A new chain of a partition (R39, R48): its first entry will be a CONTRACT. Entries of an earlier chain stay queued. A contract
digest other than the one before is a change of terms in this tick (R45). -/
def startChain (s : State) (p : Nat) : State :=
  let d := s.contractNow p
  let s1 := (((s.setDigest .GLB_MG_HEAD_CHAIN p []).setFld F.GLB_MG_SEQ_SEQ 0 p).setFld F.GLB_MG_LOST_LOST 0 p).setDigest
    .GLB_MG_CONTRACT p d
  s1.setMg p { s.mgOf p with running := true, appended := false, finished := [], held := [],
                             changedAt := if s.partDigest .GLB_MG_CONTRACT p = d then none else some s.count }

/-- The record of a partition is turned Off (R39, R56): nothing is appended from this tick on, and the checkpoints whose entries
are not appended will be answered STATE. -/
def stopChain (s : State) (p : Nat) : State :=
  let m := s.mgOf p
  s.setMg p { m with running := false, held := [], finished := [],
                     checkpoints := m.checkpoints.map fun k => if k.entry.isNone then { k with void := true } else k }

/-- FILL and the chain value before the oldest queued entry; of an empty queue, that before the entry to come, the value of
HEAD_CHAIN (log entry 88). -/
def showQueue (s : State) (p : Nat) : State :=
  let q := (s.mgOf p).queue
  let tail := match q with
    | e :: _ => e.chain
    | [] => s.partDigest .GLB_MG_HEAD_CHAIN p
  (s.setFld F.GLB_MG_FILL_FILL q.length p).setDigest .GLB_MG_TAIL_CHAIN p tail

/-- The oldest entry is overwritten (R51). A drain frame all of whose entries are overwritten is not sent again, and its
acknowledgement frees nothing (log entry 89). -/
def overwrite (s : State) (p : Nat) : State :=
  let m := s.mgOf p
  let ds := match m.drains with
    | d :: r => if d.entries ≤ 1 then r else { d with entries := d.entries - 1 } :: r
    | [] => []
  (s.setMg p { m with queue := m.queue.drop 1, drains := ds }).bump F.GLB_MG_LOST_LOST 1 p

/-- One entry is appended under a SEQ (R41, R48, R51); a CHECKPOINT entry gives its checkpoint its place (R56). -/
def append (s : State) (p seq : Nat) (e : Bytes) : State :=
  let full := decide (4160 ≤ (s.mgOf p).queue.length)
  let s1 := if full then s.overwrite p else s
  let m := s1.mgOf p
  let head := s1.partDigest .GLB_MG_HEAD_CHAIN p
  let b := leBytes 6 seq ++ Machine.slice e 6 16 ++ leBytes 2 (b2n full) ++ Machine.slice e 24 32 ++ head.take 8
  let next := sha3 (head ++ b)
  let contract := s1.partDigest .GLB_MG_CONTRACT p
  let cs := if leAt e 6 1 % 16 = 2 then
      match m.checkpoints.findIdx? (fun k => k.entry.isNone && !k.void) with
      | some i => m.checkpoints.modify i fun k => { k with entry := some (seq, next, contract, s.count) }
      | none => m.checkpoints
    else m.checkpoints
  (s1.setMg p { m with queue := m.queue ++ [⟨head, b, !m.appended⟩], appended := true, checkpoints := cs }).setDigest
    .GLB_MG_HEAD_CHAIN p next

/-- MODE bits 4 and 6 of a CONTRACT or CHECKPOINT entry. -/
def mgBits (s : State) (p : Nat) : Nat :=
  16 * b2n (s.fld F.GLB_MG_MODE_MODE p == 1) + 64 * s.fld F.GLB_MG_MODE_REPLAY_REQ p

/-- A CONTRACT or CHECKPOINT entry before its append. -/
def plainEntry (s : State) (p typ : Nat) (digest : Bytes) : Bytes :=
  leBytes 6 0 ++ leBytes 1 (typ + 16 * p) ++ leBytes 1 (s.mgBits p) ++ leBytes 16 0 ++ Machine.slice digest 0 32 ++ leBytes 8 0

/-- STATUS of a launch's entry: OLD_TERMS when it began before the last change of terms (R45). -/
def entryStatus (m : MgX) (f : Finished) : Nat :=
  f.status + 256 * (match m.changedAt with
    | some t => b2n (decide (f.began < t))
    | none => 0)

/-- Ended launches in ascending (CTX, LAUNCH). -/
def insertFinished (f : Finished) : List Finished → List Finished
  | [] => [f]
  | g :: r => if f.ctx < g.ctx ∨ (f.ctx = g.ctx ∧ f.launch < g.launch) then f :: g :: r else g :: insertFinished f r

/-- Folded runs of launches (R44), newest run last. -/
def foldRuns (m : MgX) : (done : List (List Finished)) → List Finished → List (List Finished)
  | done, [] => done
  | done, f :: r =>
    match done.getLast? with
    | some run =>
      match run.getLast? with
      | some g =>
        if entryStatus m g = 1 ∧ entryStatus m f = 1 ∧ g.ctx = f.ctx ∧ g.epoch = f.epoch ∧ f.launch = g.launch + 1
            ∧ run.length < 65535 then foldRuns m (done.dropLast ++ [run ++ [f]]) r
        else foldRuns m (done ++ [[f]]) r
      | none => foldRuns m (done ++ [[f]]) r
    | none => foldRuns m (done ++ [[f]]) r

/-- The COMPLETION entry of a run, before its append (R41, R47). -/
def runEntry (m : MgX) (p : Nat) (run : List Finished) : Bytes :=
  match run with
  | [] => []
  | f :: _ =>
    let d := if run.length = 1 then f.digest else sha3 (4#8 :: run.flatMap (·.digest))
    leBytes 6 0 ++ leBytes 1 (1 + 16 * p) ++ leBytes 1 f.mode ++ leBytes 2 (f.ctx + 4096 * f.epoch) ++ leBytes 2 f.group
      ++ leBytes 6 f.launch ++ leBytes 2 run.length ++ leBytes 2 (entryStatus m f) ++ leBytes 2 0 ++ Machine.slice d 0 32
      ++ leBytes 8 0

/-- The entries that fall due at the end of a window, in the order of R43, those held first. -/
def dueEntries (s : State) (p : Nat) : List Bytes :=
  let m := s.mgOf p
  let waiting := m.held.countP fun e => leAt e 6 1 % 16 == 2
  let contract := if (!m.appended && m.held.isEmpty) || m.changedAt.isSome then [s.plainEntry p 0 (s.partDigest .GLB_MG_CONTRACT p)] else []
  let runs := foldRuns m [] (m.finished.foldr insertFinished [])
  let checks := ((m.checkpoints.filter fun k => k.entry.isNone && !k.void).drop waiting).map fun k => s.plainEntry p 2 k.nonce
  m.held ++ contract ++ runs.map (runEntry m p) ++ checks

/-- Checkpoints whose entries will not be appended are answered STATE (R56): those the record's Off made void, or all. -/
def refuseChecks (s : State) (p : Nat) (all : Bool) : State :=
  let m := s.mgOf p
  let out (k : CheckpointX) : Bool := k.entry.isNone && (all || k.void)
  (m.checkpoints.filter out).foldl (fun a k => a.respond k.cmd 0xD)
    (s.setMg p { m with checkpoints := m.checkpoints.filter fun k => !out k,
                        held := if all then m.held.filter fun e => leAt e 6 1 % 16 != 2 else m.held })

/-- The end of a record window for one partition (R43, R45, R49, R56, R488). -/
def windowEnd (s0 : State) (p : Nat) : State :=
  let last := 2 ^ 48 - 1
  let stopped := !(s0.mgOf p).running || ((s0.mgOf p).appended && s0.fld F.GLB_MG_SEQ_SEQ p == last)
  let s := s0.refuseChecks p stopped
  let m := s.mgOf p
  if stopped then s.setMg p { m with finished := [], changedAt := none }
  else
    let due := s.dueEntries p
    let room := if s.fld F.GLB_MG_MODE_MODE p = 2 then 4160 - m.queue.length else due.length
    if due.isEmpty ∨ room = 0 then
      (s.setMg p { m with finished := [], changedAt := none, held := due }).showStall p
    else
      let seq := if m.appended then s.fld F.GLB_MG_SEQ_SEQ p + 1 else 0
      let s1 := (due.take room).foldl (fun a e => a.append p seq e) s
      let s2 := (s1.setMg p { s1.mgOf p with finished := [], changedAt := none, held := due.drop room }).setFld
        F.GLB_MG_SEQ_SEQ seq p
      let s3 := (s2.showQueue p).showStall p
      if seq = last then s3.report 0x11 p else s3

/-- An ECC check of words read from a Marigold queue, with an armed injection (R417, R419). -/
def readQueue (s : State) (p : Nat) : State :=
  match s.injected 8 p with
  | 1 => (s.injectSpent 8 p).bump F.FC_QECC_MG_CORR
  | 2 => ((s.injectSpent 8 p).bump F.FC_QECC_MG_UE).report 0x12 p (List.replicate 16 0#8) true
  | _ => s

/-- Entries of the queue that no outstanding drain holds. -/
def undrained (m : MgX) : List QueuedX := m.queue.drop (m.drains.foldl (fun a d => a + d.entries) 0)

/-- The oldest entries of one chain, at most n (log entry 23). -/
def takeChain (q : List QueuedX) (n : Nat) : List QueuedX :=
  match q.take n with
  | [] => []
  | e :: r => e :: r.takeWhile fun x => !x.first

/-- A new drain of a partition: a new serial over the oldest entries not drained yet (R53). -/
def newDrain (s : State) (p n : Nat) : State × Option DrainX :=
  let m := s.mgOf p
  match takeChain (undrained m) n with
  | [] => (s, none)
  | e :: r =>
    let es := e :: r
    let d : DrainX :=
      { serial := m.serial, entries := es.length, sentAt := s.now,
        payload := leBytes 4 m.serial ++ leBytes 1 p ++ leBytes 1 es.length ++ leBytes 2 0 ++ e.chain ++ es.flatMap (·.entry) }
    ((s.readQueue p).setMg p { m with serial := (m.serial + 1) % 2 ^ 32, drains := m.drains ++ [d] }, some d)

/-- A drain frame to the collector (R53). -/
def sendDrain (s : State) (p : Nat) (d : DrainX) : State :=
  s.originate 0 { typ := Frame.MG_DRAIN, cls := 6, part := p, dest := s.fld F.GLB_MG_DRAIN_DEST_DEST p,
                       payload := d.payload }

/-- The last sending of a drain frame is now. -/
def noteSent (s : State) (p serial : Nat) : State :=
  let m := s.mgOf p
  s.setMg p { m with drains := m.drains.map fun d => if d.serial = serial then { d with sentAt := s.now } else d }

/-- The entries of an acknowledged serial leave the queue (R54, R55). -/
def ackDrain (s : State) (p serial : Nat) : State :=
  let m := s.mgOf p
  match m.drains.findIdx? (fun d => d.serial == serial) with
  | none => s
  | some i =>
    let before := (m.drains.take i).foldl (fun a d => a + d.entries) 0
    let n := ((m.drains[i]?).map (·.entries)).getD 0
    let s1 := s.setMg p { m with queue := m.queue.take before ++ m.queue.drop (before + n), drains := m.drains.eraseIdx i }
    (s1.showQueue p).showStall p

/-- Whether a partition drains by host-port commands. -/
def drainsByHost (s : State) (p : Nat) : Bool := s.flag F.GLB_MG_DRAIN_DEST_DRAIN_HOST p

/-- An MG_ACK frame (R54, R332). -/
def mgAckFrame (s : State) (src : Nat) (b : Bytes) : State :=
  let p := leAt b 4 1
  if p < 16 ∧ b.length = 8 ∧ src = s.fld F.GLB_MG_DRAIN_DEST_DEST p then s.ackDrain p (leAt b 0 4) else s

/-- The checkpoint message of R56. -/
def checkMessage (p : Nat) (k : CheckpointX) (e : Nat × Bytes × Bytes × Nat) : Bytes :=
  ascii 16 "YELIMOS-MG-CKPT" ++ leBytes 32 Config.certDigest.toNat ++ leBytes 1 p ++ leBytes 7 0 ++ leBytes 8 e.1
    ++ Machine.slice e.2.1 0 32 ++ Machine.slice e.2.2.1 0 32 ++ leBytes 8 e.2.2.2 ++ Machine.slice k.nonce 0 32

end State

/-- MG_WINDOW_END (R43): in the tick that reaches or passes the last count of a record window (R142), after the data path
(R357). -/
def execMgWindowEnd (s : State) : Host.Outcome State Fault Refusal :=
  .next (if s.falls 2048 2047 then (List.range 16).foldl (fun a p => a.windowEnd p) s.closeTick else s)

/-- MG_DRAIN (R53). -/
def execMgDrain (p : Nat) (s : State) : Host.Outcome State Fault Refusal :=
  .next (if s.drainsByHost p then s
    else match s.newDrain p 126 with
      | (a, some d) => a.sendDrain p d
      | (a, none) => a)

/-- MG_DRAIN_RESEND (R54). -/
def execMgDrainResend (p serial : Nat) (s : State) : Host.Outcome State Fault Refusal :=
  .next (if s.drainsByHost p then s
    else match (s.mgOf p).drains.find? (fun d => d.serial == serial) with
      | some d =>
        if d.sentAt + s.fld F.GLB_MG_DRAIN_TMO_TMO p * 1000 ≤ s.now then (s.noteSent p serial).sendDrain p d else s
      | none => s)

/-- MG_ACK_RX (R54). -/
def execMgAckRx (src : Nat) (payload : List (BitVec 8)) (s : State) : Host.Outcome State Fault Refusal :=
  .next (s.mgAckFrame src payload)

/-- MG_READ (R55, R371). -/
def execMgRead (s : State) : Host.Outcome State Fault Refusal :=
  .next (s.run 0x18 fun a c =>
    if c.arg = 0 ∨ 126 < c.arg then a.respond c 3
    else if ¬ a.drainsByHost c.part then a.respond c 7
    else match (a.mgOf c.part).drains with
      | d :: _ => (a.readQueue c.part).respond c 0 0 d.payload
      | [] =>
        match a.newDrain c.part c.arg with
        | (b, some d) => b.respond c 0 0 d.payload
        | (b, none) => b.respond c 0)

/-- MG_ACK (R55, R371). -/
def execMgAck (s : State) : Host.Outcome State Fault Refusal :=
  .next (s.run 0x19 fun a c =>
    if 2 ^ 32 ≤ c.arg then a.respond c 3
    else if ¬ a.drainsByHost c.part then a.respond c 7
    else if (a.mgOf c.part).drains.any fun d => d.serial == c.arg then (a.ackDrain c.part c.arg).respond c 0
    else a.respond c 0xD)

/-- MG_CHECKPOINT (R56). -/
def execMgCheckpoint (s : State) : Host.Outcome State Fault Refusal :=
  .next (s.run 0x1A fun a c =>
    let p := c.part
    let m := a.mgOf p
    if c.payload.length ≠ 32 then a.respond c 3
    else if a.fld F.GLB_MG_MODE_MODE p = 0 ∨ (m.appended ∧ a.fld F.GLB_MG_SEQ_SEQ p = 2 ^ 48 - 1) then a.respond c 0xD
    else if 8 ≤ m.checkpoints.length then a.respond c 0x46
    else if a.fld F.GLB_MG_MODE_MODE p = 2 ∧ a.mgFree p ≤ a.inFlightOf p + (a.openChecks p + 1) + 2 then a.respond c 0x46
    else a.setMg p { m with checkpoints := m.checkpoints ++ [{ cmd := c, nonce := c.payload }] })

/-- CHECKPOINT_SIGNED (R56): the oldest checkpoint whose entry is appended is answered, by firmware that runs (R40). -/
def execCheckpointSigned (p : Nat) (s : State) : Host.Outcome State Fault Refusal :=
  .next (if ¬ s.flag F.GLB_STATUS_MP_READY then s else
    let m := s.mgOf p
    match m.checkpoints.findIdx? (fun k => k.entry.isSome) with
    | some i =>
      match m.checkpoints[i]? with
      | some k =>
        match k.entry with
        | some e =>
          let msg := State.checkMessage p k e
          (s.setMg p { m with checkpoints := m.checkpoints.eraseIdx i }).respond k.cmd 0 0
            (msg ++ Machine.slice (Config.signEcdsa msg) 0 96 ++ Machine.slice (Config.signMlDsa msg) 0 3309)
        | none => s
      | none => s
    | none => s)

end Sys2Proof.Machine
end

