-- ==== Sys2Proof/Machine/OpRows.lean ====
section
/-! DEFINITION. The commands of the reduction cores: starting, issuing, halting (chapters 7 and 8). -/

namespace Sys2Proof.Machine

open Sys2Proof

/-- Slot number: 0 A, 1 B, 2 M, 3 C. -/
def slotNum : Slot → Nat
  | .a => 0
  | .b => 1
  | .m => 2
  | .c => 3

/-- One operation issues in the current cycle of a RUNNING core: its faults are found in the order of R228, its operands
read now, its writes scheduled (R173, R188, R197). A core that does not run issues nothing (log entry 12). -/
def State.issueOne (s : State) (at_ : IssueAt) (opcode w : Nat) : State :=
  if s.coreState at_.core = 3 ∧ (s.core at_.core).halting = none then
    let o : Slotted := ⟨slotNum at_.slot, opcode, w⟩
    match State.rowFault s at_.core at_.ext.toNat o with
    | some f => s.issueFault at_.core ⟨[o], 0, at_.ext.toNat, 6⟩ f
    | none => s.issueOp at_.core at_.ext.toNat o
  else s

/-- A drain-point operation issued alone: it waits, or issues once nothing is in flight and its stream condition holds
(R176, R221, R223). -/
def State.drainOne (s : State) (at_ : IssueAt) (opcode w : Nat) : State :=
  if s.coreState at_.core = 3 ∧ (s.core at_.core).halting = none then
    s.drainRow at_.core ⟨slotNum at_.slot, opcode, w, at_.ext.toNat⟩
  else s

/-- A branch issued alone: its write is scheduled, and the next bundle is the target two cycles on when it is taken, and
follows in the next cycle when it is not (R225). -/
def State.branchOne (s : State) (at_ : IssueAt) (opcode w : Nat) : State :=
  let n := at_.core
  let t := s.issueOne at_ opcode w
  if s.coreState n = 3 ∧ (s.core n).halting = none ∧ (t.core n).halting = none then
    match branchOf opcode ⟨s, n, w, at_.ext.toNat⟩ with
    | some a => ((t.setCore n { t.core n with pcOver := false }).setFld F.RC_PC_PC a n).runCycles n 2
    | none => t.runCycles n 1
  else t

/-- Whether a core is contained by a fault source or by the safe state (R410, R412). -/
def State.coreHeld (s : State) (n : Nat) : Bool :=
  s.flag F.FC_SAFE_SAFE || s.fc.held.any fun h => (h.1 == 0x18 || h.1 == 0x19) && h.2 == n

/-- A core that is not OFF halts with CAUSE CONTAIN; a fault halt that was certain is reported and raised first, and the new
halt replaces its report (R187, R227, R410). -/
def State.containCore (s : State) (n : Nat) : State :=
  if s.coreState n = 0 then s
  else
    let s1 := s.settleCore n
    s1.enterHalt n ⟨6, 0, 0, 0, false, 0⟩

/-- Whether a core is granted and not disabled (R28, R360). -/
def State.coreUsable (s : State) (n : Nat) : Bool :=
  (lookupKey s.image.device.cores n).isSome && !bitOf (s.rd .GLB_DISABLED_CORE (n / 32)) (n % 32)

/-- A core leaves OFF, or is CONTAIN-halted while it is held (R193, R410). -/
def State.coreOn (s : State) (n : Nat) : State :=
  if s.coreState n = 0 ∧ s.coreUsable n then
    let s1 := s.setFld F.RC_STATUS_STATE 1 n
    if s1.coreHeld n then s1.containCore n else s1
  else s

/-- Frames of earlier launches of a context that no engine of core n took leave its inbound queue when the core starts a later
launch and no core still runs an earlier one (log entry 30). -/
def State.dropStale (s : State) (n : Nat) (p : PendStart) : State :=
  let c := s.fld F.RC_BIND_CTX n p.entry
  let behind := s.cores.any fun e => e.1 != n && (match e.2.run with
    | some r => r.ctx == c && decide (r.launch < p.launch)
    | none => false)
  if behind then s
  else s.freeWhere fun k => k.phase == .inCore && k.out == .core n && k.frame.ctx == c
    && (match k.launch with
      | some l => decide (l < p.launch)
      | none => false)

/-- An IDLE core takes its earliest pending start (R183); a contained core takes none (R410), nor one of a slice that drains
(R193). -/
def execCoreStart (n : Nat) (s : State) : Host.Outcome State Fault Refusal :=
  .next (if s.coreState n = 1 ∧ ¬ s.coreHeld n ∧ s.fld F.SLC_DRAIN_STATE (n / 32) = 0 then
    match State.firstStart (s.core n).starts with
    | some p => (s.dropStale n p).takeStart n p
    | none => s
  else s)

/-- A bundle is fetched and issued (R194), unless a halt is certain or a breakpoint stands before it (R187). -/
def execBundleIssue (n : Nat) (s : State) : Host.Outcome State Fault Refusal :=
  .next (if (s.coreState n = 3 ∨ s.coreState n = 2) ∧ (s.core n).halting = none then
    let s1 := s.setFld F.RC_STATUS_STATE 3 n
    if s.flag F.RC_CTRL_BREAK_EN n ∧ (s.core n).skipBreak = false
        ∧ s.fld F.RC_BREAK_ADDR n / 2 * 2 = s.fld F.RC_PC_PC n then
      s1.halting n ⟨3, 0, 0, 0, false, 0⟩
    else s1.issueNext n
  else s)

/-- A waiting SWAIT or END issues once earlier operations are complete and its stream condition holds (R176), unless one of
them ends in a fault (R188); a core stepping halts after it (R189). -/
def execDrainPointIssue (n : Nat) (s : State) : Host.Outcome State Fault Refusal :=
  .next (if s.coreState n = 4 ∧ (s.core n).halting = none then
    let d := s.drainCore n
    let t := if (d.core n).halting = none then d.issueNext n else d
    if (s.core n).stepping ∧ t.coreState n = 3 then (t.halting n ⟨2, 0, 0, 0, false, 0⟩).completeHalt n else t
  else s)

/-- The debug state of a core's partition (R400). -/
def State.debugState (s : State) (n : Nat) : Nat :=
  match lookupKey s.image.device.cores n with
  | some p => s.fld F.SEC_PART_STAT_DEBUG p
  | none => 0

/-- A halt requested at the next bundle boundary (R187); on a core that runs nothing, or LOCKED (R400), the write is
ignored. -/
def State.haltReq (s : State) (n : Nat) : State :=
  if s.debugState n ≠ 0 ∧ 2 ≤ s.coreState n ∧ s.coreState n ≤ 4 then s.halting n ⟨1, 0, 0, 0, false, 0⟩
  else s.setFld F.RC_STATUS_CMD_IGNORED 1 n

/-- A write of RCn_CTRL.HALT_REQ (R187, R400). -/
def execHaltReq (n : Nat) (s : State) : Host.Outcome State Fault Refusal := .next (s.haltReq n)

/-- A core enters HALTED once every issued operation has written (R226); a core of a draining slice that WAITS or is IDLE
halts with CAUSE SLEEP (R187, R193). -/
def execCoreHalt (n : Nat) (s : State) : Host.Outcome State Fault Refusal :=
  .next (if (s.core n).halting ≠ none then s.completeHalt n
  else if (s.coreState n = 4 ∨ s.coreState n = 1) ∧ s.fld F.SLC_DRAIN_STATE (n / 32) = 1 then s.sleepHalt n false
  else s)

/-- Whether RESUME and STEP are accepted: HALTED for a cause other than FAULT (R189), a contained core's halt ending only as
R189 says, a sleep halt only while the slice's clock runs (log entry 78), and the partition not LOCKED (R400). -/
def State.resumable (s : State) (n : Nat) : Bool :=
  s.debugState n != 0 && s.coreState n == 5 && ([1, 2, 3].contains (s.fld F.RC_HALT_CAUSE n)
    || (s.fld F.RC_HALT_CAUSE n == 5 && s.fld F.SLC_DRAIN_STATE (n / 32) != 2))

/-- Whether a halted core has no program to go on with: END issued under STEP, or the sleep halt began in IDLE (R184, R186;
log entry 29). -/
def State.programOver (s : State) (n : Nat) : Bool := (s.core n).ended || (s.core n).run.isNone

/-- A halted core runs on; the first bundle is not stopped by a breakpoint (R189). A core whose program is over becomes
IDLE (R184; log entry 29). -/
def State.resume (s : State) (n : Nat) : State :=
  if s.resumable n then
    if s.programOver n then (s.setCore n { s.core n with slept := 0 }).leaveProgram n
    else (s.setCore n { s.core n with skipBreak := true, slept := 0 }).setFld F.RC_STATUS_STATE 3 n
  else s.setFld F.RC_STATUS_CMD_IGNORED 1 n

/-- One bundle issues and the core halts again; at a drain point that cannot issue the core waits first (R189). -/
def State.stepCore (s : State) (n : Nat) : State :=
  if s.resumable n then
    if s.programOver n then (s.setCore n { s.core n with slept := 0 }).leaveProgram n
    else
    let s1 := (s.setCore n { s.core n with skipBreak := true, stepping := true, slept := 0 }).setFld F.RC_STATUS_STATE 3 n
    let t := s1.issueNext n
    if t.coreState n = 3 then (t.halting n ⟨2, 0, 0, 0, false, 0⟩).completeHalt n else t
  else s.setFld F.RC_STATUS_CMD_IGNORED 1 n

/-- A write of RCn_CTRL.RESUME (R189). -/
def execResume (n : Nat) (s : State) : Host.Outcome State Fault Refusal := .next (s.resume n)

/-- A write of RCn_CTRL.STEP (R189). -/
def execStepCore (n : Nat) (s : State) : Host.Outcome State Fault Refusal := .next (s.stepCore n)

/-- FADD, opcode 0x01 (R202). -/
def execFadd (at_ : IssueAt) (f : VForm) (s : State) : Host.Outcome State Fault Refusal :=
  .next (s.issueOne at_ 0x01 f.bits)

/-- FSUB, opcode 0x02 (R202). -/
def execFsub (at_ : IssueAt) (f : VForm) (s : State) : Host.Outcome State Fault Refusal :=
  .next (s.issueOne at_ 0x02 f.bits)

/-- FMUL, opcode 0x03 (R202). -/
def execFmul (at_ : IssueAt) (f : VForm) (s : State) : Host.Outcome State Fault Refusal :=
  .next (s.issueOne at_ 0x03 f.bits)

/-- FMIN, opcode 0x04 (R202). -/
def execFmin (at_ : IssueAt) (f : VForm) (s : State) : Host.Outcome State Fault Refusal :=
  .next (s.issueOne at_ 0x04 f.bits)

/-- FMAX, opcode 0x05 (R202). -/
def execFmax (at_ : IssueAt) (f : VForm) (s : State) : Host.Outcome State Fault Refusal :=
  .next (s.issueOne at_ 0x05 f.bits)

/-- FDIV, opcode 0x06 (R202). -/
def execFdiv (at_ : IssueAt) (f : VForm) (s : State) : Host.Outcome State Fault Refusal :=
  .next (s.issueOne at_ 0x06 f.bits)

/-- FSQRT, opcode 0x07 (R202). -/
def execFsqrt (at_ : IssueAt) (f : VForm) (s : State) : Host.Outcome State Fault Refusal :=
  .next (s.issueOne at_ 0x07 f.bits)

/-- FCVT, opcode 0x08 (R202). -/
def execFcvt (at_ : IssueAt) (f : VForm) (s : State) : Host.Outcome State Fault Refusal :=
  .next (s.issueOne at_ 0x08 f.bits)

/-- UNPK, opcode 0x09 (R202). -/
def execUnpk (at_ : IssueAt) (f : VForm) (s : State) : Host.Outcome State Fault Refusal :=
  .next (s.issueOne at_ 0x09 f.bits)

/-- IADD, opcode 0x0A (R202). -/
def execIadd (at_ : IssueAt) (f : VForm) (s : State) : Host.Outcome State Fault Refusal :=
  .next (s.issueOne at_ 0x0A f.bits)

/-- ISUB, opcode 0x0B (R202). -/
def execIsub (at_ : IssueAt) (f : VForm) (s : State) : Host.Outcome State Fault Refusal :=
  .next (s.issueOne at_ 0x0B f.bits)

/-- IMIN, opcode 0x0C (R202). -/
def execImin (at_ : IssueAt) (f : VForm) (s : State) : Host.Outcome State Fault Refusal :=
  .next (s.issueOne at_ 0x0C f.bits)

/-- IMAX, opcode 0x0D (R202). -/
def execImax (at_ : IssueAt) (f : VForm) (s : State) : Host.Outcome State Fault Refusal :=
  .next (s.issueOne at_ 0x0D f.bits)

/-- AND, opcode 0x0E (R202). -/
def execVand (at_ : IssueAt) (f : VForm) (s : State) : Host.Outcome State Fault Refusal :=
  .next (s.issueOne at_ 0x0E f.bits)

/-- OR, opcode 0x0F (R202). -/
def execVor (at_ : IssueAt) (f : VForm) (s : State) : Host.Outcome State Fault Refusal :=
  .next (s.issueOne at_ 0x0F f.bits)

/-- XOR, opcode 0x10 (R202). -/
def execVxor (at_ : IssueAt) (f : VForm) (s : State) : Host.Outcome State Fault Refusal :=
  .next (s.issueOne at_ 0x10 f.bits)

/-- MOV, opcode 0x11 (R202). -/
def execMov (at_ : IssueAt) (f : VForm) (s : State) : Host.Outcome State Fault Refusal :=
  .next (s.issueOne at_ 0x11 f.bits)

/-- BCAST, opcode 0x12 (R202). -/
def execBcast (at_ : IssueAt) (f : VForm) (s : State) : Host.Outcome State Fault Refusal :=
  .next (s.issueOne at_ 0x12 f.bits)

/-- PADD, opcode 0x13 (R202). -/
def execPadd (at_ : IssueAt) (f : VForm) (s : State) : Host.Outcome State Fault Refusal :=
  .next (s.issueOne at_ 0x13 f.bits)

/-- PHLOX_EXP, opcode 0x14 (R202). -/
def execPhloxExp (at_ : IssueAt) (f : VForm) (s : State) : Host.Outcome State Fault Refusal :=
  .next (s.issueOne at_ 0x14 f.bits)

/-- PHLOX_CVT, opcode 0x15 (R202). -/
def execPhloxCvt (at_ : IssueAt) (f : VForm) (s : State) : Host.Outcome State Fault Refusal :=
  .next (s.issueOne at_ 0x15 f.bits)

/-- PHLOX_NORM, opcode 0x16 (R202). -/
def execPhloxNorm (at_ : IssueAt) (f : VForm) (s : State) : Host.Outcome State Fault Refusal :=
  .next (s.issueOne at_ 0x16 f.bits)

/-- DOT_BLK16, opcode 0x18 (R202). -/
def execDotBlk16 (at_ : IssueAt) (f : DForm) (s : State) : Host.Outcome State Fault Refusal :=
  .next (s.issueOne at_ 0x18 f.bits)

/-- DOT_BLK32, opcode 0x19 (R202). -/
def execDotBlk32 (at_ : IssueAt) (f : DForm) (s : State) : Host.Outcome State Fault Refusal :=
  .next (s.issueOne at_ 0x19 f.bits)

/-- DOTP_BLK16, opcode 0x1A (R202). -/
def execDotpBlk16 (at_ : IssueAt) (f : DForm) (s : State) : Host.Outcome State Fault Refusal :=
  .next (s.issueOne at_ 0x1A f.bits)

/-- DOTP_BLK32, opcode 0x1B (R202). -/
def execDotpBlk32 (at_ : IssueAt) (f : DForm) (s : State) : Host.Outcome State Fault Refusal :=
  .next (s.issueOne at_ 0x1B f.bits)

/-- LD_V, opcode 0x20 (R202). -/
def execLdV (at_ : IssueAt) (f : MForm) (s : State) : Host.Outcome State Fault Refusal :=
  .next (s.issueOne at_ 0x20 f.bits)

/-- ST_V, opcode 0x21 (R202). -/
def execStV (at_ : IssueAt) (f : MForm) (s : State) : Host.Outcome State Fault Refusal :=
  .next (s.issueOne at_ 0x21 f.bits)

/-- LD_S, opcode 0x22 (R202). -/
def execLdS (at_ : IssueAt) (f : MForm) (s : State) : Host.Outcome State Fault Refusal :=
  .next (s.issueOne at_ 0x22 f.bits)

/-- ST_S, opcode 0x23 (R202). -/
def execStS (at_ : IssueAt) (f : MForm) (s : State) : Host.Outcome State Fault Refusal :=
  .next (s.issueOne at_ 0x23 f.bits)

/-- SSTART, opcode 0x24 (R202). -/
def execSstart (at_ : IssueAt) (f : StartForm) (s : State) : Host.Outcome State Fault Refusal :=
  .next (s.issueOne at_ 0x24 f.bits)

/-- SWAIT, opcode 0x25 (R202). -/
def execSwait (at_ : IssueAt) (f : WaitForm) (s : State) : Host.Outcome State Fault Refusal :=
  .next (s.drainOne at_ 0x25 f.bits)

/-- SREL, opcode 0x26 (R202). -/
def execSrel (at_ : IssueAt) (f : WaitForm) (s : State) : Host.Outcome State Fault Refusal :=
  .next (s.issueOne at_ 0x26 f.bits)

/-- END, opcode 0x2F (R202). -/
def execEndOp (at_ : IssueAt) (f : ZForm) (s : State) : Host.Outcome State Fault Refusal :=
  .next (s.drainOne at_ 0x2F f.bits)

/-- ADD, opcode 0x30 (R202). -/
def execSadd (at_ : IssueAt) (f : RForm) (s : State) : Host.Outcome State Fault Refusal :=
  .next (s.issueOne at_ 0x30 f.bits)

/-- SUB, opcode 0x31 (R202). -/
def execSsub (at_ : IssueAt) (f : RForm) (s : State) : Host.Outcome State Fault Refusal :=
  .next (s.issueOne at_ 0x31 f.bits)

/-- MUL, opcode 0x32 (R202). -/
def execSmul (at_ : IssueAt) (f : RForm) (s : State) : Host.Outcome State Fault Refusal :=
  .next (s.issueOne at_ 0x32 f.bits)

/-- AND_S, opcode 0x33 (R202). -/
def execSand (at_ : IssueAt) (f : RForm) (s : State) : Host.Outcome State Fault Refusal :=
  .next (s.issueOne at_ 0x33 f.bits)

/-- OR_S, opcode 0x34 (R202). -/
def execSor (at_ : IssueAt) (f : RForm) (s : State) : Host.Outcome State Fault Refusal :=
  .next (s.issueOne at_ 0x34 f.bits)

/-- XOR_S, opcode 0x35 (R202). -/
def execSxor (at_ : IssueAt) (f : RForm) (s : State) : Host.Outcome State Fault Refusal :=
  .next (s.issueOne at_ 0x35 f.bits)

/-- SHL, opcode 0x36 (R202). -/
def execShl (at_ : IssueAt) (f : RForm) (s : State) : Host.Outcome State Fault Refusal :=
  .next (s.issueOne at_ 0x36 f.bits)

/-- SHR, opcode 0x37 (R202). -/
def execShr (at_ : IssueAt) (f : RForm) (s : State) : Host.Outcome State Fault Refusal :=
  .next (s.issueOne at_ 0x37 f.bits)

/-- SRA, opcode 0x38 (R202). -/
def execSra (at_ : IssueAt) (f : RForm) (s : State) : Host.Outcome State Fault Refusal :=
  .next (s.issueOne at_ 0x38 f.bits)

/-- MOVI, opcode 0x39 (R202). -/
def execMovi (at_ : IssueAt) (f : JForm) (s : State) : Host.Outcome State Fault Refusal :=
  .next (s.issueOne at_ 0x39 f.bits)

/-- AADD, opcode 0x3A (R202). -/
def execAadd (at_ : IssueAt) (f : RForm) (s : State) : Host.Outcome State Fault Refusal :=
  .next (s.issueOne at_ 0x3A f.bits)

/-- MOVA, opcode 0x3B (R202). -/
def execMova (at_ : IssueAt) (f : RForm) (s : State) : Host.Outcome State Fault Refusal :=
  .next (s.issueOne at_ 0x3B f.bits)

/-- MOVS, opcode 0x3C (R202). -/
def execMovs (at_ : IssueAt) (f : RForm) (s : State) : Host.Outcome State Fault Refusal :=
  .next (s.issueOne at_ 0x3C f.bits)

/-- PSET, opcode 0x3D (R202). -/
def execPset (at_ : IssueAt) (f : RForm) (s : State) : Host.Outcome State Fault Refusal :=
  .next (s.issueOne at_ 0x3D f.bits)

/-- BR, opcode 0x3E (R202). -/
def execBr (at_ : IssueAt) (f : BForm) (s : State) : Host.Outcome State Fault Refusal :=
  .next (s.branchOne at_ 0x3E f.bits)

/-- LOOP, opcode 0x3F (R202). -/
def execLoop (at_ : IssueAt) (f : BForm) (s : State) : Host.Outcome State Fault Refusal :=
  .next (s.branchOne at_ 0x3F f.bits)

end Sys2Proof.Machine
end

