-- ==== Sys2Proof/Machine/Image.lean ====
section
/-! DEFINITION. Loading, validating and committing Flarn images (R352 to R360). -/

namespace Sys2Proof.Machine

namespace State

/-! Staging (R352, R353) -/

def stageState (s : State) : Nat := s.fld F.CFG_STAGE_STAT_STATE
def setStage (s : State) (v : Nat) : State := s.setFld F.CFG_STAGE_STAT_STATE v

/-- The party of a command as the staging records it. -/
def partyOf (c : TakenX) : Nat :=
  match c.path with
  | .host _ _ => 0
  | .frame _ src => src + 1

/-- IMG_BEGIN. -/
def beginImage (s : State) (c : TakenX) : State :=
  if s.stageState ≠ 0 then s.respond c 0x125
  else if 2 ^ 26 < c.arg then s.respond c 0x101
  else
    let s1 := ({ s with stage := { requester := partyOf c, total := c.arg } } : State).wr .CFG_STAGE_STAT 1
    s1.respond c 0

/-- Blocks of 4 KiB of a chunk. -/
def blocksOf (b : Bytes) : List Bytes := (List.range (ceilDiv b.length 4096)).map fun i => (b.drop (4096 * i)).take 4096

/-- Blocks written into a map from a block number on. -/
def putBlocks (m : List (Nat × Bytes)) (first : Nat) (l : List Bytes) : List (Nat × Bytes) :=
  (l.zipIdx).foldl (fun m e => insertKey m (first + e.2) e.1) m

/-- IMG_CHUNK. -/
def chunkImage (s : State) (c : TakenX) : State :=
  let b := c.payload
  let g := s.stage
  let last := c.arg + b.length
  if s.stageState ≠ 1 ∨ g.requester ≠ partyOf c ∨ g.total < last then s.respond c 0x125
  else if b = [] ∨ c.arg % 4096 ≠ 0 ∨ (b.length % 4096 ≠ 0 ∧ last ≠ g.total) then s.respond c 3
  else
    let m := putBlocks g.blocks (c.arg / 4096) (blocksOf b)
    (({ s with stage := { g with blocks := m } } : State).setFld F.CFG_STAGE_STAT_COVERED m.length).respond c 0

/-! Validation (R354, R355) -/

/-- The sections of the image that a package would leave committed. -/
def sectionsAfter (s : State) (b : Bytes) : List Section :=
  if hdKind b = 0 then sectionsOf b
  else (s.image.sections.filter fun x => x.part != hdPart b).foldr insertSection (sectionsOf b)

/-- The packages firmware holds after a commit of a package (R360). -/
def packagesAfter (s : State) (b : Bytes) : List Bytes :=
  if hdKind b = 0 then [b] else if s.image.packages = [] then [] else s.image.packages ++ [b]

/-- The image that a package would leave committed. -/
def imageAfter (s : State) (b : Bytes) : Image :=
  let l := s.sectionsAfter b
  buildImage l ((recsOf l).getD []) (s.packagesAfter b)

/-- The state with an image's registers and tables in force, for checks. -/
def withImage (s : State) (i : Image) : State := { s.loadRegs s.image.regs i.regs with image := i }

/-- The keys of an operator key slot that is valid (R390). -/
def opKeys (s : State) (k : Nat) : Option Bytes :=
  if s.fld F.SEC_OPKEY_STATE k = 1 then lookupKey s.sec.opkeys k else none

/-- The committed device digest. -/
def devDigestNow (s : State) : Bytes := (List.range 4).flatMap fun k => leBytes 8 (s.rd .CFG_DEV_DIGEST k)

/-- A package's terms against the committed image (step 4 of R354). -/
def baseStatus (s : State) (b : Bytes) : Nat :=
  if hdKind b = 0 then 0
  else if hdBase b ≠ s.devDigestNow then 0x105
  else if hdClass b ≠ s.rd .GLB_REPLAY_CLASS then 0x45
  else 0

/-- A section as a rejection names it, where no record of it can be named. -/
def wholeSection (x : Option (Nat × Nat)) : Option Rec := x.map fun e => ⟨e.2, e.1, 0, 0, []⟩

/-- Validation: the status and the record at fault. -/
def validate (s : State) (b : Bytes) : Nat × Option Rec :=
  if !headerWf b || !tableWf b then (0x101, none)
  else if hdDigest b ≠ packageDigest b then (0x103, none)
  else if !signaturesOk s.opKeys b then (0x104, none)
  else if s.baseStatus b ≠ 0 then (s.baseStatus b, none)
  else if (scopeFault b).isSome then (0x106, wholeSection (scopeFault b))
  else
    match recsOf (sectionsOf b) with
    | none => (0x101, wholeSection (badSection (sectionsOf b)))
    | some rs =>
      let i := s.imageAfter b
      let t := s.withImage i
      match rs.find? fun r => !recOk i.device (fun n j => t.fld F.SLC_PORT_CFG_LPORT n j) r with
      | some r => (0x106, some r)
      | none =>
        match firstFailure t.imageChecks with
        | some e => (e.1, locate ((recsOf i.sections).getD []) e.2)
        | none => (0, none)

/-- The end of validation (R352, R354). -/
def endValidation (s : State) : State :=
  if s.stageState ≠ 2 then s
  else
    let b := s.stage.bytes
    let covered := (List.range (ceilDiv s.stage.total 4096)).all fun i => (lookupKey s.stage.blocks i).isSome
    let r := if covered then s.validate b else (0x102, none)
    let s1 := ((s.setFld F.CFG_STAGE_STAT_STATUS r.1).setFld F.CFG_STAGE_STAT_KIND (hdKind b)).setFld F.CFG_STAGE_STAT_PART
      (hdPart b)
    if r.1 = 0 then
      (List.range 4).foldl (fun a k => a.wr .CFG_STAGED_DIGEST (leAt (hdDigest b) (8 * k) 8) k) (s1.setStage 3)
    else
      let loc := match r.2 with
        | some q => q.id + (q.part % 16) * 2 ^ 16 + q.index * 2 ^ 32
        | none => 0
      (s1.setStage 4).wr .CFG_ERR_LOC loc

/-! Arming (R356) -/

def lastStatus (s : State) (v : Nat) : State := s.setFld F.CFG_COMMIT_STAT_LAST_STATUS v

/-- LAST_KIND and LAST_PART. -/
def lastPackage (s : State) (b : Bytes) : State :=
  (s.setFld F.CFG_COMMIT_STAT_LAST_KIND (hdKind b)).setFld F.CFG_COMMIT_STAT_LAST_PART (hdPart b)

/-- Whether a package changes a partition under removal (R402). -/
def meetsRemoval (s : State) (b : Bytes) : Bool :=
  (List.range 16).any fun p => s.leaving p && (hdKind b == 0 || hdPart b == p)

/-- Whether a package changes a Larkspur slot or a class 7 route. -/
def changesSlots (s : State) (b : Bytes) : Bool :=
  let pick (m : List (Nat × BitVec 64)) := m.filter fun e =>
    match regAt e.1 with
    | some r => r.1 == RegName.SCH_SLOT || r.1 == RegName.SLC_C7RT
    | none => false
  pick s.image.regs != pick (s.imageAfter b).regs

/-- An ARM or NOW in a state other than VALID is refused, and one whose package no longer meets step 4 of R354 (log entry 25). -/
def armCommit (s : State) (now : Bool) : State :=
  let b := s.stage.bytes
  let go (due tick : Nat) : State := ({ s with stage := { s.stage with due := due, tick := tick } } : State).setStage 5
  if s.stageState ≠ 3 then s.lastStatus 0x124
  else if s.meetsRemoval b then (s.lastPackage b).lastStatus 0x306
  else if s.baseStatus b ≠ 0 then (s.lastPackage b).lastStatus (s.baseStatus b)
  else if now then go 0 (s.now + 1)
  else
    let t := s.fld F.CFG_COMMIT_AT_COUNT
    if t ≤ s.count ∨ (s.fld F.SCH_SYNC_STATUS_STATE < 2 ∧ s.changesSlots b) then (s.lastPackage b).lastStatus 0x123
    else go t 0

/-- The tick is that of the armed commit, or a later one. -/
abbrev commitNow (s : State) : Prop := s.stage.due ≤ s.count ∧ s.stage.tick ≤ s.now

/-- A write of CFG_COMMIT_CTRL; a CANCEL in the commit tick itself is ignored (R356). -/
def writeCommitCtrl (s : State) (v : Nat) : State :=
  let n := b2n (bitOf v 0) + b2n (bitOf v 1) + b2n (bitOf v 2)
  if 1 < n then s.lastStatus 3
  else if bitOf v 0 then s.armCommit false
  else if bitOf v 1 then s.armCommit true
  else if bitOf v 2 && s.stageState == 5 && !decide s.commitNow then s.setStage 3
  else s

/-- A write of CFG_STAGE_CTRL.DISCARD (R352). -/
def discardStage (s : State) : State :=
  if [1, 3, 4].contains s.stageState then ({ s with stage := {} } : State).setStage 0 else s

/-! Commit checks (R358) -/

/-- What an image says of a context: definition, tables, slots and class 7 routes. -/
def ctxView (t : State) (c : Nat) : List (Nat × BitVec 64) × (List Nat × List Nat × List Tree) × CtxX × Option Nat :=
  let own (e : Nat × BitVec 64) : Bool :=
    match regAt e.1 with
    | some (.SCH_CTX_CFG, i, _, _) | some (.SCH_CTX_PERIOD, i, _, _) | some (.SCH_CTX_RLIM, i, _, _) => i == c
    | some (.SCH_SLOT, i, j, _) => t.flag F.SCH_SLOT_VALID i j && t.fld F.SCH_SLOT_CTX i j == c
    | some (.SLC_C7RT, i, j, _) => t.flag F.SLC_C7RT_VALID i j && t.fld F.SLC_C7RT_CTX i j == c
    | _ => false
  (t.image.regs.filter own, (t.image.membersOf c, t.image.expertsOf c, t.image.treesOf c), t.image.ctxX c, t.image.ctxOwner c)

/-- What an image says of a core: its binding entries and code. -/
def coreView (t : State) (n : Nat) : List (Nat × BitVec 64) × List (Nat × Nat × Bytes) × Option Nat :=
  (t.image.regs.filter fun e => decide (RegName.RC_BIND.addr n 0 ≤ e.1) && decide (e.1 ≤ RegName.RC_BIND.addr n 15),
   t.image.code.filter fun r => r.1 == n, lookupKey t.image.device.cores n)

/-- The contexts and cores that an image names. -/
def namedCtxs (t : State) : List Nat :=
  (t.image.device.contexts.map (·.1) ++ t.imageCtxs ++ (t.setsOf .SCH_SLOT).map (fun e => t.fld F.SCH_SLOT_CTX e.1 e.2.1)
    ++ (t.setsOf .SLC_C7RT).map fun e => t.fld F.SLC_C7RT_CTX e.1 e.2.1).eraseDups
def namedCores (t : State) : List Nat :=
  (t.image.device.cores.map (·.1) ++ (t.setsOf .RC_BIND).map (·.1) ++ t.image.code.map (·.1)).eraseDups

/-- The contexts bound to a core. -/
def boundTo (t : State) (n : Nat) : List Nat :=
  (List.range 16).filterMap fun e => if t.flag F.RC_BIND_VALID n e then some (t.fld F.RC_BIND_CTX n e) else none

/-- A Scheduled context that is not Unbound. -/
def scheduledInUse (s : State) : Option Nat := s.imageCtxs.find? fun c => s.scheduled c && s.ctxState c != 0

/-- What an image says of a context's definition (R345, R359). -/
def ctxDefinition (t : State) (c : Nat) : List (Nat × BitVec 64) × (List Nat × List Nat) × CtxX × Option Nat :=
  let own (e : Nat × BitVec 64) : Bool :=
    match regAt e.1 with
    | some (.SCH_CTX_CFG, i, _, _) | some (.SCH_CTX_PERIOD, i, _, _) | some (.SCH_CTX_RLIM, i, _, _) => i == c
    | _ => false
  (t.image.regs.filter own, (t.image.membersOf c, t.image.expertsOf c), t.image.ctxX c, t.image.ctxOwner c)

/-- The first commit check of R358 that fails, with the unit; (0, 0) when all pass. The commit of the stored image at boot, when
every slice is still in S3, does not meet the sleep check (R18, R360; log entry 95). -/
def commitStatus (s : State) (i : Image) : Nat × Nat :=
  let t := s.withImage i
  let busy (c : Nat) := s.ctxState c != 0
  let cores := (s.namedCores ++ t.namedCores).eraseDups.filter fun n => s.coreView n != t.coreView n
  let ctxs := (s.namedCtxs ++ t.namedCtxs).eraseDups.filter fun c => busy c && s.ctxView c != t.ctxView c
  let pools := (List.range 272).filter fun k =>
    let n := k / 17
    let p := k % 17
    (s.fld F.SLC_POOL_CFG_BASE n p != t.fld F.SLC_POOL_CFG_BASE n p
        || s.fld F.SLC_POOL_CFG_SIZE n p != t.fld F.SLC_POOL_CFG_SIZE n p)
      && (s.heldBy n p != 0 || s.fld F.SLC_POOL_STAT_FREE n p != s.fld F.SLC_POOL_CFG_SIZE n p)
  let asleep := t.imageCtxs.filter fun c => !s.boot.fresh && t.scheduled c
    && ((t.namedCores.any fun n => (t.boundTo n).contains c && !s.sliceActive (n / 32))
      || (t.setsOf .SCH_SLOT).any fun e => t.flag F.SCH_SLOT_VALID e.1 e.2.1 && t.fld F.SCH_SLOT_CTX e.1 e.2.1 == c
        && !s.sliceActive (t.sliceOf e.1))
  match cores.find? fun n => (s.boundTo n ++ t.boundTo n).any busy with
  | some n => (0x120, n)
  | none =>
    match ctxs with
    | c :: _ => (0x121, c)
    | [] =>
      if s.rd .SCH_ROUND_CFG ≠ t.rd .SCH_ROUND_CFG ∧ s.scheduledInUse.isSome then (0x121, s.scheduledInUse.getD 0)
      else
        match pools with
        | k :: _ => (0x122, k / 17 * 32 + k % 17)
        | [] =>
          match asleep with
          | c :: _ => (0x126, c)
          | [] => (0, 0)

/-! Effects (R359) -/

/-- The ports of a state's image, as (slice, local port). -/
def definedPorts (t : State) : List (Nat × Nat) :=
  ((t.setsOf .SLC_PORT_CFG).filter fun e => t.flag F.SLC_PORT_CFG_VALID e.1 e.2.1).map fun e => (e.1, e.2.1)

/-- Ports whose entry changes go down before the new image is in force (R306, R359). -/
def dropChanged (s t : State) : State :=
  (s.definedPorts.filter fun e => s.rd .SLC_PORT_CFG e.1 e.2 != t.rd .SLC_PORT_CFG e.1 e.2).foldl (fun a e =>
    let x := s.fld F.SLC_PORT_CFG_LPORT e.1 e.2
    let stays := t.flag F.SLC_PORT_CFG_VALID e.1 e.2 && s.fld F.SLC_PORT_STAT_STATE e.1 e.2 != 0
    a.portDown e.1 e.2 x (if stays then 7 else 0)) s

/-- Ports whose entry changed go on in DOWN_HOLD, or DISABLED where they may not run. -/
def startChanged (s old : State) : State :=
  (s.definedPorts.filter fun e => s.rd .SLC_PORT_CFG e.1 e.2 != old.rd .SLC_PORT_CFG e.1 e.2).foldl (fun a e =>
    let x := a.fld F.SLC_PORT_CFG_LPORT e.1 e.2
    if a.portEnabled e.1 e.2 x then a.enterState e.1 e.2 x 7 else a.enterState e.1 e.2 x 0) s

/-- New credit grants of ports in UP (R334, R359): GRANTED rises to what the new grant allows. -/
def regrant (s : State) (x : Nat) : State :=
  let held (pair : Nat) := (s.arrivals.filter fun a => a.port == x && a.pair == some pair).foldl (fun a b => a + b.kib) 0
  let s1 := (s.creditGrants x).foldl (fun a e =>
    let q := a.port x
    let r := readKey {} q.rx e.1
    let now := (r.granted + 2 ^ 32 - r.used) % 2 ^ 32 + held e.1
    if now < e.2 then
      (a.setPort x { q with rx := writeKey {} q.rx e.1 { r with granted := (r.granted + (e.2 - now)) % 2 ^ 32 },
                            changed := q.changed.filter (· != e.1) ++ [e.1] }).showCredit x e.1
    else a) s
  if (s1.port x).changed = [] then s1 else s1.sendCredits x false

/-- Contexts whose definition changes: shadowed fields 0, epoch history kept (R359). -/
def clearCtx (s : State) (c : Nat) : State :=
  let z := [RegName.SCH_CTX_GROUP, .SCH_CTX_PRESENT0, .SCH_CTX_PRESENT1].foldl (fun a r => (a.wr r 0 c).wrShadow r 0 c) s
  z.setCtx c { unbinds := (s.ctx c).unbinds, lastEpoch := (s.ctx c).lastEpoch }

/-- A core's code region written from the image, bytes no record sets 0x00 (R351, R359). -/
def loadCode (s : State) (n : Nat) : State :=
  (s.image.code.filter fun r => r.1 == n).foldl (fun a r => a.writeSram n r.2.1 r.2.2) (s.zeroSram n 0 0xFFFF)

/-- A disabled-unit register follows the image and the fault masks (R28, R32). -/
def showDisabled (s : State) : State :=
  let d := s.image.device
  let bits (l : List Nat) (k w : Nat) : Nat := (List.range w).foldl (fun a b => if l.contains (k * w + b) then a + 2 ^ b else a) 0
  let s1 := s.wr .GLB_DISABLED_SLICE (Nat.lor (bits d.offSlices 0 16) (s.rd .GLB_FMASK_SLICE))
  let s2 := (List.range 8).foldl (fun a k => a.wr .GLB_DISABLED_PORT (Nat.lor (bits d.offPorts k 32) (s.rd .GLB_FMASK_PORT k))
    k) s1
  (List.range 16).foldl (fun a k => a.wr .GLB_DISABLED_CORE (Nat.lor (bits d.offCores k 32) (s.rd .GLB_FMASK_CORE k)) k) s2

/-- A core's owning partition (RCn_ID). -/
def showCore (s : State) (n : Nat) : State :=
  s.setFld F.RC_ID_PART ((lookupKey s.image.device.cores n).getD 0) n

/-- Digests, policies and the defined mask (R346, R359, R386, R387, R395). -/
def showDigests (s : State) : State :=
  let l := s.image.sections
  let d := s.image.device
  let dd := deviceDigest l
  let s1 := (List.range 4).foldl (fun a k => a.wr .CFG_DEV_DIGEST (leAt dd (8 * k) 8) k) s
  let s2 := ((s1.setFld F.SEC_POLICY_HOST_OPEN (b2n !d.hostClosed)).setFld F.SEC_POLICY_EP_AUTH_DEFAULT
    (b2n !d.epAuthOff)).setFld F.CFG_PART_DEFINED_MASK ((definedParts l).foldl (fun a p => a + 2 ^ p) 0)
  (List.range 16).foldl (fun a p =>
    let y := s.image.partOf p
    let defined := (definedParts l).contains p
    let b := a.setDigest .CFG_PART_DIGEST p (partitionDigest l p)
    let e := if defined then (b.setFld F.SEC_PART_STAT_OPERATOR_ACCESS (b2n y.operatorAccess) p).setFld
        F.SEC_PART_STAT_EP_AUTH (b2n (y.epAuth.getD !d.epAuthOff)) p
      else (b.setFld F.SEC_PART_STAT_OPERATOR_ACCESS 0 p).setFld F.SEC_PART_STAT_EP_AUTH 0 p
    if defined ∧ e.partState p = 0 then (e.setFld F.SEC_PART_STAT_STATE 1 p).setFld F.SEC_PART_STAT_DEBUG 0 p
    else if ¬ defined then (e.setFld F.SEC_PART_STAT_STATE 0 p).setFld F.SEC_PART_STAT_DEBUG 0 p else e) s2

/-- The records of partitions that the image turns on or off (R39, R48). -/
def showRecords (s : State) : State :=
  (List.range 16).foldl (fun a p =>
    let on := a.fld F.GLB_MG_MODE_MODE p != 0
    let m := a.mgOf p
    if on && !m.running then (a.startChain p).showQueue p
    else if !on && m.running then a.stopChain p
    else a) s

/-- The lossless grants of each port in its staging register. -/
def showGrants (s : State) : State :=
  s.definedPorts.foldl (fun a e =>
    a.setFld F.SLC_STAGE_LOSSLESS_KIB (s.portGrants (s.fld F.SLC_PORT_CFG_LPORT e.1 e.2)) e.1 e.2) s

/-- Whether the disabled-unit map disables a core (R28). -/
def coreOff (s : State) (n : Nat) : Bool := bitOf (s.rd .GLB_DISABLED_CORE (n / 32)) (n % 32)

/-- Cores that a commit excludes go OFF, and OFF cores that it grants in an awake slice become IDLE, their code regions
loaded (R28, R186). -/
def switchCores (s old : State) (cores : List Nat) : State :=
  cores.foldl (fun a n =>
    if a.coreOff n then (if old.coreOff n then a else a.offCore n)
    else if a.fld F.PWR_SLICE_STAT_STATE (n / 32) = 0 ∧ a.coreState n = 0 ∧ ¬ old.coreUsable n then (a.loadCode n).coreOn n
    else a) s

/-- A shaper's fields that wait for a refill after a GO are those of an entry that the image now gives: they are dropped (R282,
R359). -/
def dropCommit (s : State) (k : Nat) : State :=
  (List.range 16).foldl (fun a n =>
    if (a.slice n).shpDue.any fun g => g.2.any fun e => e.1 == k then
      a.setSlice n { a.slice n with shpDue := (a.slice n).shpDue.map fun g => (g.1, g.2.filter fun e => e.1 != k) }
    else a) s

/-- Pointers, deficits, turn flags, virtual times and tags of every port start afresh (R278, R279). -/
def clearSchedulers (s : State) : State :=
  s.ports.foldl (fun a e => a.setPort e.1 { e.2 with parts := {}, classes := [], vtime := 0, fprev := [] }) s

/-- An image put in force in one tick (R357, R359). -/
def applyImage (s : State) (i : Image) : State :=
  let t := s.withImage i
  let defined := (s.namedCtxs ++ t.namedCtxs).eraseDups.filter fun c => s.ctxDefinition c != t.ctxDefinition c
  let cores := (s.namedCores ++ t.namedCores).eraseDups
  let recoded := cores.filter fun n => (s.coreView n).2 != (t.coreView n).2
  let tables (a : State) := a.image.regs.filter fun e =>
    match regAt e.1 with
    | some r => [RegName.SLC_NBR, .SLC_NBRM, .SLC_EDGE, .SLC_RT_ORD].contains r.1
    | none => false
  let pools := (List.range 272).filter fun k =>
    s.fld F.SLC_POOL_CFG_BASE (k / 17) (k % 17) != t.fld F.SLC_POOL_CFG_BASE (k / 17) (k % 17)
      || s.fld F.SLC_POOL_CFG_SIZE (k / 17) (k % 17) != t.fld F.SLC_POOL_CFG_SIZE (k / 17) (k % 17)
  let polls := (t.setsOf .SLC_POL_CFG ++ t.setsOf .SLC_POL_SIZE).filter fun e =>
    s.rd .SLC_POL_CFG e.1 e.2.1 != t.rd .SLC_POL_CFG e.1 e.2.1 || s.rd .SLC_POL_SIZE e.1 e.2.1 != t.rd .SLC_POL_SIZE e.1 e.2.1
  let shapers := (t.image.regList.filter fun e => [RegName.SLC_PSHP, .SLC_TSHP, .SLC_QSHP].contains e.1).map fun e =>
    e.1.addr e.2.1 e.2.2.1 e.2.2.2
  let fresh := i.lasers.filter fun e => (s.slicePorts e.1).isEmpty && !(t.slicePorts e.1).isEmpty
  let a0 := s.dropChanged t
  let a1 : State := { a0.loadRegs s.image.regs i.regs with image := i }
  let a2 := a1.startChanged s
  let a3 := if tables s = tables t then a2 else a2.clearFlowlets
  let a4 := pools.foldl (fun a k => a.buildPool (k / 17) (k % 17)) a3
  let a5 := (((shapers.filter fun k => readKey 0#64 s.image.regs k != readKey 0#64 i.regs k).foldl
    (fun a k => (a.setTokens k (16 * shBurst (a.rawReg k))).dropCommit k) a4)).clearSchedulers
  let a6 := polls.foldl (fun a e =>
    (a.setFld F.SLC_POL_TOK_TC (16 * a.fld F.SLC_POL_SIZE_CBS e.1 e.2.1) e.1 e.2.1).setFld F.SLC_POL_TOK_TP
      (16 * a.fld F.SLC_POL_SIZE_PBS e.1 e.2.1) e.1 e.2.1) a5
  let a7 := defined.foldl (fun a c => a.clearCtx c) a6
  let a8 := recoded.foldl (fun a n => a.loadCode n) a7
  let a9 := (cores.foldl (fun a n => a.showCore n) a8.showDisabled).switchCores s (List.range 512)
  let a10 := if s.rd .SCH_ROUND_CFG = t.rd .SCH_ROUND_CFG then a9
    else (List.range 16).foldl (fun a n =>
      ((a.setFld F.SCH_LAG_LAG 0 n).setFld F.SCH_LAG_RUN 0 n).setSlice n { a.slice n with slipped := false, spanFrom := s.count / a.roundLen * a.roundLen, slotFrom := s.count, dropAt := none })
        a9
  let a11 := fresh.foldl (fun a e =>
    (a.setFld F.SLC_LSR_CTRL_EN (bitsOf e.2 0 1) e.1).setFld F.SLC_LSR_CTRL_OUT_EN (bitsOf e.2 8 8) e.1) a10
  let a12 := (a11.showParent s).showGrants.showDigests.showRecords.noteTerms
  let a13 := (a12.allPorts.filter a12.portUp).foldl (fun a x => a.regrant x) a12
  (a13.allPorts.filter a13.portUp).foldl (fun a x => a.onPort x fun n j =>
    ((a.showKeyWait n j x).startSession n j x).firstKeys x) a13

/-- An image committed, and the registers that say so. -/
def commitPackage (s : State) (b : Bytes) : State :=
  let r := s.commitStatus (s.imageAfter b)
  if r.1 ≠ 0 then ((s.lastPackage b).lastStatus r.1).wr .CFG_ERR_LOC (r.2 * 2 ^ 32)
  else
    let s1 := s.applyImage (s.imageAfter b)
    (((s1.lastPackage b).lastStatus 0).setFld F.CFG_COMMIT_TICK_COUNT s.count).bump F.CFG_COMMITS_COUNT

/-- An armed commit falls due (R356 to R358, R412). -/
def commitDue (s : State) : State :=
  if s.stageState = 5 ∧ s.commitNow then
    let b := s.stage.bytes
    if s.safe then ((s.lastPackage b).lastStatus 0x401).setStage 3
    else
      let s1 := s.commitPackage b
      if s1.fld F.CFG_COMMIT_STAT_LAST_STATUS = 0 then ({ s1 with stage := {} } : State).setStage 0 else s1.setStage 3
  else s

end State

/-- IMG_BEGIN (R353). -/
def execImgBegin (s : State) : Host.Outcome State Fault Refusal := .next (s.run 0x10 fun a c => a.beginImage c)

/-- IMG_CHUNK (R353). -/
def execImgChunk (s : State) : Host.Outcome State Fault Refusal := .next (s.run 0x11 fun a c => a.chunkImage c)

/-- IMG_VALIDATE (R354). -/
def execImgValidate (s : State) : Host.Outcome State Fault Refusal :=
  .next (s.run 0x12 fun a c => if a.stageState = 1 then (a.setStage 2).respond c 0 else a.respond c 0xD)

/-- VALIDATION_DONE (R354). -/
def execValidationDone (s : State) : Host.Outcome State Fault Refusal := .next s.endValidation

/-- IMG_STORE (R360, R461): the write to flash begins. -/
def execImgStore (s : State) : Host.Outcome State Fault Refusal :=
  .next (s.run 0x13 fun a c =>
    if a.image.packages = [] then a.respond c 0x124
    else if 96 * 2 ^ 20 < a.image.packages.foldl (fun n b => n + b.length) 0 then a.respond c 0x208
    else { a with cmd := { a.cmd with work := a.cmd.work ++ [(c, .store)] } })

/-- DISCARD (R352). -/
def execDiscard (s : State) : Host.Outcome State Fault Refusal := .next s.discardStage

/-- COMMIT_ARM (R356). -/
def execCommitArm (value : BitVec 32) (s : State) : Host.Outcome State Fault Refusal :=
  .next (s.writeCommitCtrl (value ||| 1#32).toNat)

/-- COMMIT_NOW (R356). -/
def execCommitNow (value : BitVec 32) (s : State) : Host.Outcome State Fault Refusal :=
  .next (s.writeCommitCtrl (value ||| 2#32).toNat)

/-- COMMIT_CANCEL (R356). -/
def execCommitCancel (value : BitVec 32) (s : State) : Host.Outcome State Fault Refusal :=
  .next (s.writeCommitCtrl (value ||| 4#32).toNat)

/-- IMAGE_COMMIT (R357). -/
def execImageCommit (s : State) : Host.Outcome State Fault Refusal := .next s.commitDue

end Sys2Proof.Machine
end

