-- ==== Sys2Proof/Machine/Faults.lean ====
section
/-! DEFINITION. The fault collector: a raise reaching it, containment and release, the safe state, ERR_N, the event FIFO and
fault injection (chapter 17). -/

namespace Sys2Proof.Machine

namespace State

/-! Sources -/

/-- The source IDs of R409 and R443. -/
def faultSources : List Nat :=
  [0x00, 0x01, 0x08, 0x09, 0x0A, 0x0B, 0x0C, 0x0D, 0x0E, 0x10, 0x11, 0x12, 0x18, 0x19, 0x20, 0x21, 0x22, 0x23, 0x28, 0x29,
   0x2A, 0x2B, 0x2C, 0x2D, 0x2E, 0x2F, 0x30, 0x34, 0x35, 0x38, 0x39, 0x3A, 0x3B, 0x3C, 0x3D, 0x3E]

/-- INFO of an entry by source and instance (R416). -/
def infoOf (s : State) (i inst : Nat) : Bytes :=
  if i = 0x18 then leBytes 16 (s.rd .RC_HALT inst)
  else if [0x28, 0x29, 0x2A, 0x2B, 0x2C, 0x2F, 0x30].contains i then s.linkInfo inst
  else if 0x20 ≤ i ∧ i ≤ 0x23 then s.poolInfo (inst / 32) (inst % 32)
  else if i = 0x10 then leBytes 16 (s.rd .SCH_CTX_STATUS inst)
  else if i = 0x0D then leBytes 16 (s.rd .SCH_LAG inst)
  else List.replicate 16 0

/-- Whether a rail is latched off (R425, R426). -/
def railLatched (s : State) (r : Nat) : Bool := s.fld F.PWR_RAIL_STAT_STATE r == 3

/-- Whether a rail of a slice is latched. -/
def sliceLatched (s : State) (n : Nat) : Bool := s.railLatched n || s.railLatched (16 + n)

/-- Ports, of all slices, for which a condition holds. -/
def portsWhere (s : State) (p : Nat → Nat → Bool) : List Nat :=
  s.allPorts.filter fun x =>
    match s.portAt x with
    | some (n, j) => p n j
    | none => false

/-- The instances for which the cause of a level source persists, rising; none for an event source (R409, R443). -/
def persists (s : State) (i : Nat) : List Nat :=
  let device (b : Bool) : List Nat := if b then [0] else []
  match i with
  | 0x00 => device s.fc.selfBad
  | 0x09 => device (s.fld F.SCH_SYNC_STATUS_STATE == 3)
  | 0x0A => device (s.fld F.SCH_SYNC_STATUS_STATE == 3 && s.sync.drifted)
  | 0x0B => device (!s.flag F.SCH_PULSE_OFS_SEEN)
  | 0x0E => device (s.count == 2 ^ 64 - 1)
  | 0x11 => (List.range 16).filter fun p => s.fld F.GLB_MG_SEQ_SEQ p == 2 ^ 48 - 1
  | 0x18 => (List.range 512).filter fun n => s.coreState n == 5 && s.fld F.RC_HALT_CAUSE n == 4
  | 0x23 => (List.range 512).filter fun k =>
      decide (k % 32 ≤ 16) && s.fld F.SLC_POOL_AUDIT_DEFICIT (k / 32) (k % 32) != 0
  | 0x2A => s.portsWhere fun n j => s.fld F.SLC_PORT_STAT_STATE n j == 6
  | 0x2C => s.portsWhere fun n j => s.flag F.SLC_PORT_STAT_REDUCED n j
  | 0x2D => (List.range 16).filter fun n =>
      Nat.land (s.fld F.SLC_LSR_CTRL_OUT_EN n) (255 - s.fld F.SLC_LSR_STAT_READY n) != 0
  | 0x30 => s.portsWhere fun n j => s.flag F.SLC_WLK_STAT_KEY_WAIT n j
  | 0x35 => device s.image.sections.isEmpty
  | 0x38 => if (List.range 7).any (fun k => s.railLatched (0x20 + k)) then [0]
      else (List.range 16).filter s.sliceLatched
  | 0x39 => device (s.flag F.PWR_CAP_STAT_ACTIVE)
  | 0x3A => device (s.flag F.PWR_CAP_STAT_FLOOR)
  | 0x3B => (List.range 16).filter fun n => decide (s.fld F.PWR_THERM_THROTTLE ≤ s.fld F.PWR_SLICE_TEMP_TEMP n)
  | 0x3C => (List.range 16).filter fun n => decide (105 ≤ s.fld F.PWR_SLICE_TEMP_TEMP n)
  | 0x3D => device (s.pwr.refLost || s.pwr.pllLost)
  | _ => []

/-! ERR_N -/

/-- FC_ERR.ASSERTED: a pulse, HOLD, or the safe state (R415). -/
def showErr (s : State) : State :=
  s.setFld F.FC_ERR_ASSERTED (b2n (s.flag F.FC_ERR_HOLD || s.flag F.FC_ERR_PULSING || s.safe))

/-- A raise at a severity starts a pulse, when ERR_N is not asserted (R407, R415). -/
def errPulse (s : State) (sev : Nat) : State :=
  if sev ≠ 0 ∧ (s.fld F.FC_ERR_ERR_MIN ≤ sev ∨ sev = 3) ∧ ¬ s.flag F.FC_ERR_ASSERTED then
    (({ s with fc := { s.fc with pulseAt := s.now } } : State).setFld F.FC_ERR_PULSING 1).showErr
  else s

/-! Containment -/

/-- Contexts that are Armed or Running. -/
def liveCtxs (s : State) : List Nat := s.grantedCtxs.filter fun c => s.ctxState c == 3 || s.ctxState c == 4

/-- Whether a context uses a port: a local member's edge port, a parent or child port of a tree, a slot entry. -/
def ctxUses (s : State) (c x : Nat) : Bool :=
  ((s.localMembers c).any fun m => s.flag F.SLC_EDGE_VALID (s.sliceOf x) m.1 && s.fld F.SLC_EDGE_PORT (s.sliceOf x) m.1 == x)
    || ((s.image.treesOf c).any fun t => (t.parent == x && x != 0xFF) || t.children.any fun k => k.port == x)
    || (s.slotsOf x).any fun e => e.ctx == c

/-- Contexts with a valid binding entry on a core of a slice, or a valid slot entry on a port of it. -/
def sliceBound (s : State) (n c : Nat) : Bool :=
  ((s.bindingsOf c).any fun b => b.1 / 32 == n) || (s.slicePorts n).any fun p => (s.slotsOf p.1).any fun e => e.ctx == c

/-- Live contexts that are bound to a core of a slice or use a port of it (R410, R426, R439). -/
def sliceCtxs (s : State) (n : Nat) : List Nat :=
  s.liveCtxs.filter fun c => s.sliceBound n c || (s.slicePorts n).any fun p => s.ctxUses c p.1

/-- A port goes to DOWN_HOLD, unless it is there or DISABLED. R306 applies on entry to a port in UP, RETRAIN or TEST (R410,
R412). -/
def holdPort (s : State) (x : Nat) : State :=
  s.onPort x fun n j =>
    let st := s.portState x
    if st = 0 ∨ st = 7 then s
    else if st = 8 then (s.portDown n j x 7).linkDown n j x
    else s.portDown n j x 7

/-- Ports contained: DOWN_HOLD, and the contexts that use them aborted (R410). -/
def containPorts (s : State) (xs : List Nat) : State :=
  let s1 := xs.foldl holdPort s
  s1.abortAll (s1.liveCtxs.filter fun c => xs.any fun x => s1.ctxUses c x)

/-- The instance of a raise at Contain is stopped and held (R410, R443). Sources with no containment of their own act as
Notify. -/
def contain (s : State) (i inst : Nat) : State :=
  let held (t : State) : State :=
    if t.fc.held.contains (i, inst) then t else { t with fc := { t.fc with held := t.fc.held ++ [(i, inst)] } }
  if [0x28, 0x29, 0x2A, 0x2B, 0x2C, 0x2E, 0x2F, 0x30].contains i then (held s).containPorts [inst]
  else if i = 0x2D ∨ i = 0x3C then
    ((held s).containPorts ((s.slicePorts inst).map (·.1))).abortAll (s.sliceCtxs inst)
  else if i = 0x18 ∨ i = 0x19 then
    let run := s.runCtx inst
    let s1 := (held s).containCore inst
    match run with
    | some c => s1.abortCtx c 6
    | none => s1
  else if i = 0x10 then held s
  else if i = 0x11 ∨ i = 0x12 then (held s).abortAll (s.liveCtxs.filter fun c => s.ctxPart c == inst)
  else if 0x20 ≤ i ∧ i ≤ 0x23 then (held s).abortAll (s.liveCtxs.filter fun c => s.ctxPart c == inst % 32)
  else if i = 0x38 ∧ s.fld F.PWR_SLICE_STAT_STATE inst = 6 then held s
  else s

/-- A core in a CONTAIN halt that nothing holds any more becomes IDLE (R189, R410, R413). -/
def freeCore (s : State) (n : Nat) : State :=
  if s.coreState n = 5 ∧ s.fld F.RC_HALT_CAUSE n = 6 ∧ ¬ s.coreHeld n then s.leaveProgram n else s

/-- A slice in RAIL_FAULT whose rails are not latched and which no source holds goes to S3 (R426, R443). -/
def freeSlice (s : State) (n : Nat) : State :=
  if s.fld F.PWR_SLICE_STAT_STATE n = 6 ∧ ¬ s.sliceLatched n ∧ ¬ s.fc.held.contains (0x38, n) then
    s.setFld F.PWR_SLICE_STAT_STATE 4 n
  else s

/-- HOLD runs from now on for the ports of a list that stand in DOWN_HOLD and nothing holds any more (R410, R413;
log entry 102). -/
def runHold (s : State) (xs : List Nat) : State :=
  (xs.filter fun x => s.portState x == 7 && !s.portHeld x).foldl (fun a x =>
    a.setHello x { a.helloOf x with enteredAt := a.now }) s

/-- Every instance a source holds contained is released (R411). -/
def release (s : State) (i : Nat) : State :=
  let mine := s.fc.held.filter fun h => h.1 == i
  let s1 : State := { s with fc := { s.fc with held := s.fc.held.filter fun h => h.1 != i } }
  if i = 0x18 ∨ i = 0x19 then mine.foldl (fun a h => a.freeCore h.2) s1
  else if i = 0x38 then mine.foldl (fun a h => a.freeSlice h.2) s1
  else if i = 0x2D ∨ i = 0x3C then s1.runHold ((mine.flatMap fun h => s.slicePorts h.2).map (·.1))
  else if 0x28 ≤ i ∧ i ≤ 0x30 then s1.runHold (mine.map (·.2))
  else s1

/-! The safe state -/

/-- The device enters the safe state (R412). -/
def enterSafe (s : State) (i : Nat) : State :=
  if s.safe then s
  else
    let s1 := ((s.setFld F.FC_SAFE_SAFE 1).setFld F.FC_SAFE_CAUSE i).setFld F.GLB_STATUS_SAFE 1
    let s2 := s1.allPorts.foldl holdPort s1
    let s3 := (List.range 512).foldl containCore s2
    (s3.abortAll s3.liveCtxs).showErr

/-- A write of FC_SAFE.EXIT (R413). -/
def exitSafe (s : State) : State :=
  if ¬ s.safe then s
  else if (List.range 64).any fun i => bitOf (s.rd .FC_STAT) i && s.sevOf i == 3 then s.setFld F.FC_SAFE_EXIT_REFUSED 1
  else
    let s1 := ((s.setFld F.FC_SAFE_SAFE 0).setFld F.GLB_STATUS_SAFE 0).showErr
    (List.range 512).foldl freeCore (s1.runHold s1.allPorts)

/-! The event FIFO -/

/-- An entry as its 32 bytes (R416); `bad` sets ECC_BAD. -/
def eventBytes (e : Event) (bad : Bool) : Bytes :=
  leBytes 8 e.tick ++ leBytes 4 e.seq ++ leBytes 1 e.src
    ++ leBytes 1 (e.sev + 4 * b2n e.injected + 8 * b2n e.reraise + 16 * b2n bad + 32 * b2n e.safe)
    ++ leBytes 2 e.inst ++ Machine.slice e.info 0 16

def showFill (s : State) : State := s.setFld F.FC_EVQ_STAT_FILL s.fc.fifo.length

/-- MSI-X vector 8, if FC_CTRL.IRQ_EN (R418). -/
def vector8 (s : State) : State := if s.flag F.FC_CTRL_IRQ_EN then s.emit (.interrupt 8) else s

/-- An entry is created (R416 to R418): the oldest gives way when the FIFO is full. -/
def createEntry (s : State) (e : Event) : State :=
  let old := s.fc.fifo
  let full := decide (65600 ≤ old.length)
  let q := (if full then old.drop 1 else old) ++ [{ e with seq := s.fld F.FC_EVQ_STAT_NEXT_SEQ }]
  let s1 := if full then s.bump F.FC_EVQ_LOST_LOST else s
  let s2 : State := { s1 with fc := { s1.fc with fifo := q, made := s1.fc.made + 1 } }
  let s3 := (s2.wrap F.FC_EVQ_STAT_NEXT_SEQ).showFill
  if old.isEmpty then s3.vector8 else s3

/-- An entry for a raise: created in this tick while fewer than 32 have been, otherwise it waits, or is lost (R418). -/
def queueEvent (s : State) (e : Event) : State :=
  if s.fc.waiting.isEmpty ∧ s.fc.made < 32 then s.createEntry e
  else if s.fc.waiting.length < 256 then { s with fc := { s.fc with waiting := s.fc.waiting ++ [e] } }
  else s.bump F.FC_EVQ_LOST_LOST

/-- A tick passes at the collector: up to 32 waiting entries are created (R418). -/
def eventTick (s : State) : State :=
  let now := s.fc.waiting.take 32
  let s1 : State := { s with fc := { s.fc with made := 0, waiting := s.fc.waiting.drop 32 } }
  now.foldl createEntry s1

/-! Raises -/

/-- A raise reaches the collector (R407, R408, R410, R412, R414 to R416). -/
def arrive (s : State) (r : Report) (reraise : Bool) : State :=
  let i := r.src
  let sev := s.sevOf i
  let first := !bitOf (s.rd .FC_STAT) i
  let s1 := ((s.setFld F.FC_STAT_STATUS (Nat.lor (s.rd .FC_STAT) (2 ^ i))).bump F.FC_SRC_CNT_COUNT 1 i).setFld
    F.FC_SRC_INST_LAST r.inst i
  let s2 := if first then (s1.setFld F.FC_SRC_FIRST_TICK r.tick i).setFld F.FC_SRC_INST_FIRST r.inst i else s1
  let s3 := if i = 0 then { s2 with fc := { s2.fc with selfBad := true, rewritten := [] } } else s2
  let s4 := s3.errPulse sev
  let s5 := if sev = 3 then s4.enterSafe i else if sev = 2 then s4.contain i r.inst else s4
  if sev = 0 then s5
  else s5.queueEvent ⟨r.tick, 0, i, sev, r.injected, reraise, s5.safe, r.inst, r.info⟩

/-- The raise that reaches the collector next: of the raises of the earliest tick, the lowest source and instance. -/
def nextReport (l : List Report) : Option Report :=
  l.foldl (fun m r =>
    match m with
    | none => some r
    | some q => if r.tick < q.tick ∨ (r.tick = q.tick ∧ (r.src < q.src ∨ (r.src = q.src ∧ r.inst < q.inst))) then some r
      else some q) none

/-- The next raise under way reaches the collector. -/
def deliverRaise (s : State) : State :=
  match nextReport s.fc.wires with
  | some r => ({ s with fc := { s.fc with wires := s.fc.wires.erase r } } : State).arrive r false
  | none => s

/-- A write of 1 to the bit of source i in FC_STAT (R411). -/
def clearSource (s : State) (i : Nat) : State :=
  if ¬ bitOf (s.rd .FC_STAT) i then s
  else
    match s.persists i with
    | [] => (s.setFld F.FC_STAT_STATUS (s.rd .FC_STAT - 2 ^ i)).release i
    | k :: ks =>
      let last := s.fld F.FC_SRC_INST_LAST i
      let inst := if (k :: ks).contains last then last else k
      s.arrive ⟨i, inst, s.count, s.infoOf i inst, false⟩ true

/-- A write of FC_STAT. -/
def clearSources (s : State) (mask : Nat) : State :=
  ((List.range 64).filter (bitOf mask)).foldl clearSource s

/-! The collector's configuration -/

/-- FC_SEVk (0 to 3), FC_ERR (4) or FC_CTRL (5) has been written: with all six written again the check bits are good (R414). -/
def rewrote (s : State) (k : Nat) : State :=
  let l := if s.fc.rewritten.contains k then s.fc.rewritten else s.fc.rewritten ++ [k]
  { s with fc := { s.fc with rewritten := l, selfBad := s.fc.selfBad && decide (l.length < 6) } }

/-- A write of FC_SEVk (R409): the fixed severities stay. -/
def writeSev (s : State) (k v : Nat) : State :=
  let known := s.fc.oldSev.any fun e => e.1 == k && e.2.1 == s.now
  let old := if known then s.fc.oldSev else [(k, s.now, s.rd .FC_SEV k)] ++ s.fc.oldSev.filter (fun e => e.1 != k)
  let s1 : State := { s with fc := { s.fc with oldSev := old } }
  (s1.wr .FC_SEV (if k = 0 then putBits v 0 4 7 else v) k).rewrote k

/-- A write of FC_ERR (R415). -/
def writeErr (s : State) (v : Nat) : State :=
  let s1 := ((s.setFld F.FC_ERR_ERR_MIN (max 1 (bitsOf v 0 2))).setFld F.FC_ERR_HOLD (bitsOf v 2 1)).setFld F.FC_ERR_PULSE
    (clampTo 16 1000 (bitsOf v 4 10))
  s1.showErr.rewrote 4

/-- The partition an injection into a checker with a debug condition looks at (R419). -/
def injectDebug (s : State) (checker inst : Nat) : Bool :=
  let full (p : Option Nat) : Bool := match p with
    | some q => s.fld F.SEC_PART_STAT_DEBUG q == 2
    | none => false
  if checker = 1 then full ((s.image.device.cores.find? fun g => g.1 == inst).map (·.2))
  else if checker = 8 then full (if inst < 16 then some inst else none)
  else true

/-- A write of FC_INJ: the selection, INJ_IGNORED cleared by 1, then GO (R419). -/
def writeInj (s : State) (v : Nat) : State :=
  let mode := if bitsOf v 4 2 = 3 then 0 else bitsOf v 4 2
  let checker := bitsOf v 0 4
  let inst := bitsOf v 6 10
  let s1 := ((s.setFld F.FC_INJ_CHECKER checker).setFld F.FC_INJ_MODE mode).setFld F.FC_INJ_INSTANCE inst
  let s2 := if bitOf v 18 then s1.setFld F.FC_INJ_INJ_IGNORED 0 else s1
  if ¬ bitOf v 16 then s2
  else if s2.flag F.FC_INJ_ARMED ∨ mode = 0 ∨ checker = 0 ∨ 9 < checker ∨ ¬ s2.injectDebug checker inst then
    s2.setFld F.FC_INJ_INJ_IGNORED 1
  else ({ s2 with fc := { s2.fc with inject := some (checker, inst, mode) } } : State).setFld F.FC_INJ_ARMED 1

/-- The collector's check of its own configuration in a tick (R414, R419): an armed injection raises FC_SELF. -/
def checkSelf (s : State) : State :=
  if s.injected 9 0 = 0 then s else (s.injectSpent 9 0).report 0 0 (List.replicate 16 0) true

/-! Commands of the FIFO -/

/-- Whether SEQ a is after b (R418). -/
def seqAfter (a b : Nat) : Bool :=
  let d := (a + 2 ^ 32 - b) % 2 ^ 32
  decide (1 ≤ d) && decide (d ≤ 2 ^ 31)

/-- The next word read from the FIFO passes its ECC check (R417, R419). -/
def readFifo (s : State) : State :=
  match s.injected 7 0 with
  | 0 => s
  | 1 => (s.injectSpent 7 0).bump F.FC_QECC_EVQ_CORR
  | _ => ((s.injectSpent 7 0).bump F.FC_QECC_EVQ_UE).report 1 0 (List.replicate 16 0) true

/-- EVT_READ (R418, R421). -/
def evtRead (s : State) (c : TakenX) : State :=
  if c.arg = 0 ∨ 254 < c.arg then s.respond c 3
  else
    let es := s.fc.fifo.take c.arg
    let bad := s.injected 7 0 == 2
    let bytes := match es with
      | [] => []
      | e :: rest => eventBytes e bad ++ rest.flatMap fun k => eventBytes k false
    (if es.isEmpty then s else s.readFifo).respond c 0 0 bytes

/-- EVT_ACK (R418). -/
def evtAck (s : State) (c : TakenX) : State :=
  if 2 ^ 32 ≤ c.arg then s.respond c 3
  else if seqAfter c.arg ((s.fld F.FC_EVQ_STAT_NEXT_SEQ + 2 ^ 32 - 1) % 2 ^ 32) then s.respond c 0xD
  else
    let s1 := ({ s with fc := { s.fc with fifo := s.fc.fifo.dropWhile fun e => !seqAfter e.seq c.arg } } : State).showFill
    (if s1.fc.fifo.isEmpty then s1 else s1.vector8).respond c 0

end State

/-- FAULT_RAISE (R407): the next raise under way reaches the collector, or the raise of a checker outside the model's reach
(an ECC error of the part itself), given as source and instance. A bit error that arises in a word of core SRAM comes with
it, and the ECC checks of the word's reads find it (R167; log entry 77). An uncorrectable word of the event FIFO or of a
Marigold queue is counted (R417). -/
def execFaultRaise (fault : FaultOp) (s0 : State) : Host.Outcome State Fault Refusal :=
  let s := match fault.upset with
    | some u => s0.upsetWord u.core u.word.toNat u.both
    | none => s0
  .next (match fault.raise with
  | none => s.deliverRaise
  | some r =>
    let i := r.src.toNat
    if State.faultSources.contains i then
      let s1 := if i = 0x01 then s.bump F.FC_QECC_EVQ_UE else if i = 0x12 then s.bump F.FC_QECC_MG_UE else s
      s1.arrive ⟨i, r.inst.toNat, s1.count, s1.infoOf i r.inst.toNat, false⟩ false
    else s)

/-- FC_STAT_CLEAR (R411). -/
def execFcStatClear (mask : BitVec 64) (s : State) : Host.Outcome State Fault Refusal := .next (s.clearSources mask.toNat)

/-- SAFE_EXIT (R413). -/
def execSafeExit (s : State) : Host.Outcome State Fault Refusal := .next s.exitSafe

/-- SEV_WRITE (R409). -/
def execSevWrite (k : Nat) (value : BitVec 32) (s : State) : Host.Outcome State Fault Refusal := .next (s.writeSev k value.toNat)

/-- FC_ERR_WRITE (R415). -/
def execFcErrWrite (value : BitVec 32) (s : State) : Host.Outcome State Fault Refusal := .next (s.writeErr value.toNat)

/-- ERR_PULSE_END (R415). -/
def execErrPulseEnd (s : State) : Host.Outcome State Fault Refusal :=
  .next (if s.flag F.FC_ERR_PULSING ∧ s.fc.pulseAt + s.fld F.FC_ERR_PULSE * 1000 ≤ s.now then (s.setFld F.FC_ERR_PULSING 0).showErr else s)

/-- FC_INJ_GO (R419). -/
def execFcInjGo (value : BitVec 32) (s : State) : Host.Outcome State Fault Refusal :=
  .next (s.writeInj (value ||| 0x10000#32).toNat)

/-- EVT_READ (R418). -/
def execEvtRead (s : State) : Host.Outcome State Fault Refusal := .next (s.run 0x38 State.evtRead)

/-- EVT_ACK (R418). -/
def execEvtAck (s : State) : Host.Outcome State Fault Refusal := .next (s.run 0x39 State.evtAck)

end Sys2Proof.Machine
end

