-- ==== Sys2Proof/Machine/Regs.lean ====
section
/-! DEFINITION. Reads and writes of a register under its access codes (R4, R8 to R10). -/

namespace Sys2Proof.Machine

/-- The fields whose written value is replaced by the nearer bound of a range, as (low bit, width, least, greatest). -/
def writeRanges : RegName → List (Nat × Nat × Nat × Nat)
  | .GLB_MG_DRAIN_TMO => [(0, 14, 10, 10000)]
  | .SCH_CTX_TMO => [(0, 24, 100, 10000000)]
  | .SLC_BUF_CTRL => [(0, 5, 16, 28), (8, 14, 1, 10000)]
  | .SLC_RT_FLOW => [(0, 16, 64, 65535), (16, 9, 1, 256)]
  | .SLC_PSHP | .SLC_TSHP | .SLC_QSHP => [(0, 16, 1, 65535), (16, 20, 1, 1048575)]
  | .SLC_PORT_TMR => [(0, 8, 1, 255), (8, 8, 1, 255), (16, 8, 1, 255), (24, 8, 1, 255)]
  | .SLC_WLK_CFG => [(0, 11, 16, 1024)]
  | .MGT_FWD_CFG => [(0, 14, 1, 10000)]
  | .MGT_SQ_CFG => [(0, 5, 6, 16)]
  | .MGT_CQ_CFG => [(0, 5, 8, 16)]
  | .MGT_QP_CTRL => [(1, 4, 0, 7)]
  | .FC_ERR => [(0, 2, 1, 3), (4, 10, 16, 1000)]
  | .PWR_CAP_CFG => [(0, 10, 300, 700), (10, 6, 5, 50)]
  | .PWR_WDT => [(0, 16, 100, 60000)]
  | .PWR_THERM => [(0, 8, 80, 104)]
  | _ => []

/-- A written value with the fields outside their ranges replaced (R4). -/
def clampReg (r : RegName) (v : Nat) : Nat :=
  (writeRanges r).foldl (fun a e => putBits a e.1 e.2.1 (clampTo e.2.2.1 e.2.2.2 (bitsOf v e.1 e.2.1))) v

/-- A value's bits outside a mask. -/
def without (v m : Nat) : Nat := Nat.land v (2 ^ 64 - 1 - m)

namespace State

/-- What a read of a register returns: WO fields as 0, RWC fields as last committed (R8). -/
def plainRead (s : State) (r : RegName) (i j k : Nat) : Nat := without (s.rd r i j k) (r.mask .wo)

/-- A write of a register: each field under its access code, and nothing more (R8, R9). -/
def plainWrite (s : State) (r : RegName) (v i j k : Nat) : State :=
  let v1 := clampReg r (v % 2 ^ r.row.width)
  let cur := s.rd r i j k
  let rw := r.mask .rw
  let c := r.mask .w1c
  let e := r.mask .w1s
  let new := Nat.lor (Nat.lor (without cur (rw + c + e)) (Nat.land v1 rw))
    (Nat.lor (Nat.land (without cur v) c) (Nat.land (Nat.lor cur v) e))
  let s1 := s.wr r new i j k
  let m := r.mask .rwc
  if m = 0 then s1
  else s1.wrShadow r (Nat.lor (without (s.rdShadow r i j k) m) (Nat.land v1 m)) i j k

end State

end Sys2Proof.Machine
end

