-- ==== Sys2Proof/Machine/Power.lean ====
section
/-! DEFINITION. Slice drains, sleep and wake, performance levels, the power cap and temperature (R248 to R251, R428 to
R434). -/

namespace Sys2Proof.Machine

namespace State

def sliceState (s : State) (n : Nat) : Nat := s.fld F.PWR_SLICE_STAT_STATE n
def setSliceState (s : State) (n v : Nat) : State := s.setFld F.PWR_SLICE_STAT_STATE v n
def setRail (s : State) (r v : Nat) : State := s.setFld F.PWR_RAIL_STAT_STATE v r
def awakeSlices (s : State) : List Nat := (List.range 16).filter fun n => s.sliceState n == 0

/-! Levels (R429) -/

/-- The effective level: the lowest performance of the requested level, the cap limit and the thermal limit. -/
def levelWanted (s : State) (n : Nat) : Nat :=
  max (s.fld F.PWR_SLICE_REQ_PLVL n) (max (s.fld F.PWR_SLICE_STAT_CAP_PLVL n) (s.fld F.PWR_SLICE_STAT_THERM_PLVL n))

/-- The effective level of an awake slice is to follow its three levels, from an AT: a change begins, or waits for the one
under way. -/
def retarget (s : State) (n at_ : Nat) : State :=
  let set (x : LevelX) : State := { s with pwr := { s.pwr with levels := insertKey s.pwr.levels n x } }
  if s.sliceState n ≠ 0 then s
  else
    match lookupKey s.pwr.levels n with
    | some x => set { x with next := some at_ }
    | none =>
      let t := s.levelWanted n
      let now := s.fld F.PWR_SLICE_STAT_PLVL n
      if t = now then s else set { target := t, at_ := at_, rises := decide (t < now) }

/-- The clock switches, once AT has come and, when performance rises, the voltage has settled, at the count given. -/
def switchLevel (s : State) (n settled : Nat) : State :=
  match lookupKey s.pwr.levels n with
  | some x =>
    if x.at_ ≤ s.count ∧ (x.rises → settled ≤ s.count) then
      let late := x.rises && x.at_ != 0 && decide (x.at_ < settled)
      let s1 : State := { s with pwr := { s.pwr with levels := eraseKey s.pwr.levels n } }
      let s2 := (s1.setFld F.PWR_SLICE_STAT_PLVL x.target n).bump F.PWR_SLICE_STAT_CHANGES 1 n
      let s3 := if late then s2.setFld F.PWR_SLICE_STAT_LATE 1 n else s2
      match x.next with
      | some a => s3.retarget n a
      | none => s3
    else s
  | none => s

/-! Draining (R193, R248 to R251, R432) -/

/-- A DRAINING slice starts on its way to S1, S2 or S3, and its drain timer at DRAIN_TMO (R248). -/
def startDrain (s : State) (n target : Nat) : State :=
  let s1 := (s.setSlice n { s.slice n with drainEnd := s.now + s.fld F.SLC_BUF_CTRL_DRAIN_TMO n * 1000 }).setFld F.SLC_DRAIN_STATE 1 n
  (((s1.setFld F.SLC_DRAIN_TARGET target n).setFld F.SLC_DRAIN_EARLY 0 n).setFld F.SLC_DRAIN_DROPPED 0 n).setSliceState n 1

/-- Every frame in the staging of the slice's ports and every copy in its pools is dropped; a copy of such a frame that is still
being written goes with its frame, and requests of the Y5's own wait on (R251). `counted` says whether in cause 0xC. Answers
the state and the number dropped. -/
def dropSlice (s : State) (n : Nat) (counted : Bool) : State × Nat :=
  let xs := (s.slicePorts n).map (·.1)
  let staged (a : Arrival) : Bool := a.staged && xs.contains a.port
  let groups := (s.arrivals.filter staged).map (·.group)
  let mine (k : Copy) : Bool := k.slice == n && k.phase != .asking
  let withFrame (k : Copy) : Bool := (k.phase == .granted || k.phase == .copying) && groups.contains k.group
  let held := s.copies.filter fun k => mine k && !withFrame k
  let total := groups.length + held.length
  let s1 := held.foldl (fun a k =>
    match k.out with
    | .port x =>
      if counted then
        match a.portAt x with
        | some (m, j) => a.wrap F.SLC_TXD_COUNT 1 m j k.frame.cls
        | none => a
      else a
    | _ => a) s
  let s2 := s1.freeWhere mine
  let s3 : State := { s2 with arrivals := xs.foldl (fun l x => leaveStaging x false l) (s2.arrivals.filter fun a => !staged a) }
  let s4 := xs.foldl (fun a x => a.showStaging x) s3
  (if counted then s4.bump F.SLC_DROP_COUNT total n 0xC else s4, total)

/-- A core still short of a drain point at the deadline, or waiting at one, halts with CAUSE SLEEP; the first is forced and
its context aborted (R193). -/
def sleepCore (s : State) (n : Nat) : State :=
  let st := s.coreState n
  if 1 ≤ st ∧ st ≤ 4 then
    let forced := st == 2 || st == 3
    let run := s.runCtx n
    let s1 := s.sleepHalt n forced
    match forced && s1.fld F.RC_HALT_CAUSE n == 5, run with
    | true, some c => s1.abortCtx c 6
    | _, _ => s1
  else s

/-- The slice goes DOWN and enters its sleep state (R248, R432). -/
def goDown (s : State) (n target : Nat) (early : Bool) : State :=
  let s1 := (sliceCores n).foldl sleepCore s
  let s2 := (s1.setFld F.SLC_DRAIN_STATE 2 n).setFld F.SLC_DRAIN_EARLY (b2n early) n
  let s3 : State := (({ s2 with pwr := { s2.pwr with levels := eraseKey s2.pwr.levels n } } : State).setFld
    F.SLC_DRAIN_TARGET target n).setSliceState n (target + 1)
  if target = 1 then s3
  else
    let s4 := (sliceCores n).foldl offCore s3
    let s5 := (s4.slicePorts n).foldl (fun a p => if a.portState p.1 = 0 then a else (a.sendDown n p.2).portDown n p.2 p.1 0) s4
    if target = 2 then s5 else (s5.setRail n 0).setRail (16 + n) 0

/-- Whether a DRAINING slice is empty (R250). -/
def sliceEmpty (s : State) (n : Nat) : Bool :=
  let xs := (s.slicePorts n).map (·.1)
  !(s.arrivals.any fun a => a.staged && xs.contains a.port)
    && !(s.copies.any fun k => k.slice == n && k.phase != .asking)
    && (sliceCores n).all fun c =>
      (decide (s.coreState c ≤ 1) || (s.coreState c == 5 && s.fld F.RC_HALT_CAUSE c == 5))
        && (List.range 4).all fun k => s.seState c k != 1

/-- The drain deadline (R193, R251). -/
def deadline (s : State) (n : Nat) : State :=
  let target := s.fld F.SLC_DRAIN_TARGET n
  if s.fld F.SLC_DRAIN_STATE n ≠ 1 ∨ s.now < (s.slice n).drainEnd then s
  else if target = 1 then s.goDown n 1 false
  else
    let d := s.dropSlice n true
    (d.1.goDown n target false).setFld F.SLC_DRAIN_DROPPED d.2 n

/-- A committed change of sleep state acts on a slice that is AWAKE, in S1 or in S2 (R432). -/
def beginSleep (s : State) (n target : Nat) : State :=
  match s.sliceState n with
  | 0 => s.startDrain n target
  | 2 => if target = 1 then s else (s.dropSlice n true).1.goDown n target (s.flag F.SLC_DRAIN_EARLY n)
  | 3 => if target = 3 then (((s.setRail n 0).setRail (16 + n) 0).setFld F.SLC_DRAIN_TARGET 3 n).setSliceState n 4 else s
  | _ => s

/-! Wake (R193, R248, R251, R433) -/

/-- The wake that may start for a slice: its AT has come, and from S2 or S3 no slice rail ramps and no such wake was
committed before it. -/
def wakeReady (s : State) (n : Nat) : Option WakeX :=
  (s.pwr.wakes.find? fun w => w.slice == n).filter fun w =>
    decide (w.at_ ≤ s.count) && (w.was == 1 || (s.pwr.slot.isNone && (s.pwr.wakes.find? fun v => v.was != 1) == some w))

/-- Ticks from the start of a wake slot to AWAKE, from S1, S2 and S3 (R433). -/
def wakeTicks (was : Nat) : Nat := if was = 1 then 20 else if was = 2 then 45572 else 205572

/-- A wake slot starts. -/
def startWake (s : State) (n : Nat) : State :=
  match s.wakeReady n with
  | none => s
  | some w =>
    let p : PwrX :=
      { s.pwr with wakes := s.pwr.wakes.erase w, waking := insertKey s.pwr.waking n w.was,
                   awakeAt := insertKey s.pwr.awakeAt n (s.now + wakeTicks w.was),
                   slot := if w.was = 1 then s.pwr.slot else some n }
    let s1 := ({ s with pwr := p } : State).setSliceState n 5
    if w.was = 1 then s1 else if w.was = 2 then s1.setRail n 1 else s1.setRail (16 + n) 1

/-- A core that sleep halted goes back to where it was, with what its status said (R193). -/
def unsleep (s : State) (n : Nat) : State :=
  let x := s.core n
  if s.coreState n = 5 ∧ s.fld F.RC_HALT_CAUSE n = 5 then
    if x.run.isSome then
      (((s.setCore n { x with slept := 0, sleptWait := 0, sleptStep := false, stepping := x.sleptStep }).setFld
        F.RC_STATUS_STATE (if x.slept = 4 then 4 else 3) n).setFld F.RC_STATUS_WAIT_SE (x.sleptWait % 4) n).setFld
        F.RC_STATUS_WAIT_DRAIN (x.sleptWait / 4) n
    else (s.setCore n { x with slept := 0, sleptWait := 0, sleptStep := false }).leaveProgram n
  else s

/-- Credits a slice withheld go back after wake (R249, R334). -/
def returnWithheld (s : State) (x : Nat) : State :=
  (s.port x).rx.foldl (fun a e =>
    let out := (e.2.granted + 2 ^ 32 - e.2.used) % 2 ^ 32
    let held := (a.arrivals.filter fun r => r.port == x && r.pair == some e.1).foldl (fun t r => t + r.kib) 0
    a.returnCredit x e.1 (a.imageGrant x e.1 - out - held)) s

/-- The ports of a slice start (R305). -/
def startPorts (s : State) (n : Nat) : State := (s.slicePorts n).foldl (fun a p => a.enablePort n p.2 p.1) s

/-- The pools of a slice are rebuilt (R247). -/
def buildPools (s : State) (n : Nat) : State := (List.range 17).foldl (fun a i => a.buildPool n i) s

/-- The last wake step passes (R433). -/
def wakeDone (s : State) (n : Nat) : State :=
  match lookupKey s.pwr.waking n with
  | none => s
  | some was =>
    if s.sliceState n ≠ 5 ∨ s.pwr.slot = some n ∨ (was ≠ 1 ∧ s.fld F.PWR_RAIL_STAT_STATE n ≠ 2)
        ∨ s.now < (lookupKey s.pwr.awakeAt n).getD 0 then s
    else
      let s1 : State := { s with pwr := { s.pwr with waking := eraseKey s.pwr.waking n, awakeAt := eraseKey s.pwr.awakeAt n } }
      let s2 := (s1.setFld F.SLC_DRAIN_STATE 0 n).setSliceState n 0
      let s3 :=
        if was = 1 then (s2.slicePorts n).foldl (fun a p => a.returnWithheld p.1) ((sliceCores n).foldl unsleep s2)
        else
          let a := s2.buildPools n
          let b := if was = 2 then (sliceCores n).foldl coreOn a
            else (sliceCores n).foldl (fun t c => t.zeroSram c 0x10000 0x7FFFF) a
          (((b.clearQueueCounters n).fillSlice n).setFld F.PWR_SLICE_STAT_PLVL (b.levelWanted n) n).startPorts n
      s3.retarget n 0

/-! Commits (R428) -/

/-- Whether R248 forbids a sleep state of a slice: a Scheduled context is bound to a core of it or has a slot on a port. -/
def sleepForbidden (s : State) (n : Nat) : Bool :=
  (s.image.device.contexts.map (·.1)).any fun c => s.ctxDefined c && s.scheduled c && s.sliceBound n c

/-- RSN of a commit of a slice's shadows; 0 when it is accepted. -/
def commitRsn (s : State) (n : Nat) : Nat :=
  let sleep := bitsOf (s.rdShadow .PWR_SLICE_REQ n) 2 2
  let at_ := s.rdShadow .PWR_SLICE_AT n
  let st := s.sliceState n
  let same := (sleep == 0 && st == 0) || (sleep != 0 && st == sleep + 1)
  if sleep ≠ 0 ∧ s.sleepForbidden n then 1
  else if st = 1 ∨ st = 5 ∨ (lookupKey s.pwr.levels n).isSome then 2
  else if (s.flag F.PWR_STANDBY_ACTIVE ∨ s.pwr.entering) ∧ sleep ≠ 3 then 3
  else if bitOf (s.rd .GLB_DISABLED_SLICE) n ∧ sleep ≠ 3 then 4
  else if s.safe ∧ ¬ same then 5
  else if st = 6 then 6
  else if at_ ≠ 0 ∧ at_ < s.count then 7
  else 0

/-- PWR_CAP_STAT.ACTIVE: a cap limit lies below its slice's requested level (R430). -/
def showCap (s : State) : State :=
  let on := (List.range 16).any fun n => decide (s.fld F.PWR_SLICE_REQ_PLVL n < s.fld F.PWR_SLICE_STAT_CAP_PLVL n)
  let s1 := s.setFld F.PWR_CAP_STAT_ACTIVE (b2n on)
  if on && !s.flag F.PWR_CAP_STAT_ACTIVE then s1.report 0x39 0 else s1

/-- The commit of one slice. -/
def commitSlice (s : State) (n : Nat) : State :=
  let r := s.commitRsn n
  if r ≠ 0 then (s.setFld F.PWR_SLICE_STAT_RSN r n).bump F.PWR_SLICE_STAT_REFUSALS 1 n
  else
    let s1 := (s.commitShadow .PWR_SLICE_REQ n).commitShadow .PWR_SLICE_AT n
    let sleep := s1.fld F.PWR_SLICE_REQ_SLEEP n
    let at_ := s1.fld F.PWR_SLICE_AT_AT n
    let st := s1.sliceState n
    let p : PwrX :=
      { s1.pwr with sleeps := eraseKey s1.pwr.sleeps n, wakes := s1.pwr.wakes.filter fun w => w.slice != n }
    let s2 : State := { s1 with pwr := p }
    if sleep = 0 then
      if st = 0 then s2.retarget n at_
      else { s2 with pwr := { s2.pwr with wakes := s2.pwr.wakes ++ [⟨n, st - 1, at_⟩] } }
    else if at_ = 0 then s2.beginSleep n sleep
    else { s2 with pwr := { s2.pwr with sleeps := insertKey s2.pwr.sleeps n ⟨sleep, at_⟩ } }

/-- A write of PWR_COMMIT.GO (R428). -/
def commitPower (s : State) (go : Nat) : State := (((List.range 16).filter (bitOf go)).foldl commitSlice s).showCap

/-! The cap and temperature (R430, R431) -/

/-- The supervisor's measurements of VIN_12V. -/
def showVin (s : State) (v : VinOp) : State :=
  ((s.setFld F.PWR_VIN_VOLT v.volt.toNat).setFld F.PWR_VIN_CURR v.curr.toNat).setFld F.PWR_VIN_POWER v.power.toNat

/-- Instantaneous power in units of 10 µW. -/
def powerNow (v : VinOp) : Nat := v.volt.toNat * v.curr.toNat

/-- A slice's cap limit changes. -/
def setCap (s : State) (n level : Nat) : State :=
  if s.fld F.PWR_SLICE_STAT_CAP_PLVL n = level then s
  else ((s.setFld F.PWR_SLICE_STAT_CAP_PLVL level n).bump F.PWR_CAP_STAT_STEPS).retarget n 0

/-- The awake slice of the best level, the highest number on a tie. -/
def fastest (s : State) : Option Nat :=
  s.awakeSlices.foldl (fun m n => match m with
    | none => some n
    | some k => if s.fld F.PWR_SLICE_STAT_PLVL n ≤ s.fld F.PWR_SLICE_STAT_PLVL k then some n else some k) none

/-- The awake slice of the lowest performance whose cap limit is below its request, the lowest number on a tie. -/
def slowestCapped (s : State) : Option Nat :=
  (s.awakeSlices.filter fun n => decide (s.fld F.PWR_SLICE_REQ_PLVL n < s.fld F.PWR_SLICE_STAT_CAP_PLVL n)).foldl
    (fun m n => match m with
      | none => some n
      | some k => if s.fld F.PWR_SLICE_STAT_PLVL k < s.fld F.PWR_SLICE_STAT_PLVL n then some n else some k) none

/-- One step of lowering. -/
def lowerCap (s : State) : State :=
  if s.fld F.PWR_VIN_POWER ≤ 10 * s.fld F.PWR_CAP_CFG_LIMIT then s
  else
    match s.fastest with
    | none => s
    | some n =>
      if s.fld F.PWR_SLICE_STAT_PLVL n = 3 then
        (if s.flag F.PWR_CAP_STAT_FLOOR then s else (s.setFld F.PWR_CAP_STAT_FLOOR 1).report 0x3A 0)
      else (s.setCap n (min 3 (s.fld F.PWR_SLICE_STAT_CAP_PLVL n + 1))).showCap

/-- One step of raising. -/
def raiseCap (s : State) : State :=
  if 10 * (s.fld F.PWR_CAP_CFG_LIMIT - s.fld F.PWR_CAP_CFG_HYST) ≤ s.fld F.PWR_VIN_POWER then s
  else
    match s.slowestCapped with
    | none => s
    | some n => ((s.setCap n (s.fld F.PWR_SLICE_STAT_CAP_PLVL n - 1)).setFld F.PWR_CAP_STAT_FLOOR 0).showCap

/-- The fast trip. -/
def fastTrip (s : State) (v : VinOp) : State :=
  if powerNow v ≤ 100000 * (s.fld F.PWR_CAP_CFG_LIMIT + 60) then s
  else ((s.awakeSlices.foldl (fun a n => a.setCap n 3) s).setFld F.PWR_CAP_STAT_FAST_TRIP 1).showCap

/-- One junction reading, 10 µs after the last: 100 readings are 1 ms. -/
def thermLimit (s : State) (n t : Nat) : State :=
  let thr := s.fld F.PWR_THERM_THROTTLE
  let x := readKey ({} : ThermX) s.pwr.therm n
  let y : ThermX := ⟨if thr ≤ t then x.hot + 1 else 0, if t + 5 < thr then x.cool + 1 else 0⟩
  let s1 : State := { s with pwr := { s.pwr with therm := writeKey {} s.pwr.therm n y } }
  let lim := s.fld F.PWR_SLICE_STAT_THERM_PLVL n
  if y.hot ≠ 0 ∧ y.hot % 100 = 0 ∧ lim < 3 then (s1.setFld F.PWR_SLICE_STAT_THERM_PLVL (lim + 1) n).retarget n 0
  else if 1000 ≤ y.cool ∧ y.cool % 100 = 0 ∧ 0 < lim then (s1.setFld F.PWR_SLICE_STAT_THERM_PLVL (lim - 1) n).retarget n 0
  else s1

/-- A sensor reading and its raises, below 115 °C. -/
def sampleTemp (s : State) (n t : Nat) : State :=
  let was := s.fld F.PWR_SLICE_TEMP_TEMP n
  let thr := s.fld F.PWR_THERM_THROTTLE
  let s1 := (s.setFld F.PWR_SLICE_TEMP_TEMP t n).setFld F.PWR_SLICE_TEMP_MAX (max t (s.fld F.PWR_SLICE_TEMP_MAX n)) n
  let s2 := if was < thr ∧ thr ≤ t then s1.report 0x3B n else s1
  let s3 := if was < 105 ∧ 105 ≤ t then s2.report 0x3C n else s2
  s3.thermLimit n t

end State

/-- SLICE_DRAIN_START (R432): the AT of a committed sleep state comes. -/
def execSliceDrainStart (n : Nat) (s : State) : Host.Outcome State Fault Refusal :=
  .next (match lookupKey s.pwr.sleeps n with
  | some x =>
    if x.at_ ≤ s.count then
      ({ s with pwr := { s.pwr with sleeps := eraseKey s.pwr.sleeps n } } : State).beginSleep n x.target
    else s
  | none => s)

/-- SLICE_EMPTY (R250). -/
def execSliceEmpty (n : Nat) (s : State) : Host.Outcome State Fault Refusal :=
  .next (if s.fld F.SLC_DRAIN_STATE n = 1 ∧ s.sliceEmpty n then s.goDown n (s.fld F.SLC_DRAIN_TARGET n) true else s)

/-- DRAIN_DEADLINE (R251). -/
def execDrainDeadline (n : Nat) (s : State) : Host.Outcome State Fault Refusal := .next (s.deadline n)

/-- PWR_COMMIT (R428). -/
def execPwrCommit (go : BitVec 16) (s : State) : Host.Outcome State Fault Refusal := .next (s.commitPower go.toNat)

/-- PLEVEL_SWITCH (R429): `settled` is the count at which the voltage had settled. -/
def execPlevelSwitch (n : Nat) (settled : BitVec 64) (s : State) : Host.Outcome State Fault Refusal :=
  .next (s.switchLevel n settled.toNat)

/-- CAP_LOWER (R430). -/
def execCapLower (vin : VinOp) (s : State) : Host.Outcome State Fault Refusal := .next (s.showVin vin).lowerCap

/-- FAST_TRIP (R430). -/
def execFastTrip (vin : VinOp) (s : State) : Host.Outcome State Fault Refusal := .next ((s.showVin vin).fastTrip vin)

/-- CAP_RAISE (R430). -/
def execCapRaise (vin : VinOp) (s : State) : Host.Outcome State Fault Refusal := .next (s.showVin vin).raiseCap

/-- SLICE_WAKE (R433). -/
def execSliceWake (n : Nat) (s : State) : Host.Outcome State Fault Refusal := .next (s.startWake n)

/-- WAKE_COMPLETE (R433). -/
def execWakeComplete (n : Nat) (s : State) : Host.Outcome State Fault Refusal := .next (s.wakeDone n)

/-- CODE_REGION_RELOAD (R193, R439): the code regions of an AWAKE slice's cores that are OFF are loaded, and they become
IDLE. -/
def execCodeRegionReload (n : Nat) (s : State) : Host.Outcome State Fault Refusal :=
  .next (if s.sliceState n = 0 then
    (State.sliceCores n).foldl (fun a c => if a.coreState c = 0 ∧ a.coreUsable c then (a.loadCode c).coreOn c else a) s
  else s)

end Sys2Proof.Machine
end

