-- ==== Sys2Proof/Machine/Telemetry.lean ====
section
/-! DEFINITION. Telemetry snapshots (R420). -/

namespace Sys2Proof.Machine

namespace State

/-- The seven counters of a port and class, in register order (R288, R420). -/
def classCounters : List RegName := [.SLC_TXF, .SLC_TXB, .SLC_RXF, .SLC_RXB, .SLC_MARK, .SLC_RXD, .SLC_TXD]

/-- One slice's block of a snapshot (R420). -/
def snapSlice (s : State) (n : Nat) (samples : Bool) : Bytes :=
  leBytes 8 n
    ++ ((List.range 16).flatMap fun j => (List.range 8).flatMap fun c =>
      classCounters.flatMap fun r => leBytes 8 (s.rd r n j c))
    ++ ((List.range 16).flatMap fun j => (List.range 5).flatMap fun k => leBytes 8 (s.rd .SLC_STALL n j k))
    ++ ((List.range 16).flatMap fun c => leBytes 4 (s.rd .SLC_DROP n c))
    ++ ((List.range 17).flatMap fun i => leBytes 8 (s.rd .SLC_POOL_STAT n i))
    ++ if samples then
      ((List.range 2048).flatMap fun q => leBytes 8 (s.rd .SLC_QSAMP n q))
        ++ ((List.range 2048).flatMap fun q => leBytes 8 (s.rd .SLC_QMAX n q))
    else []

/-- Bytes of a snapshot. -/
def snapLength (slices : Nat) (samples : Bool) : Nat :=
  320 + ((List.range 16).filter (bitOf slices)).length * (if samples then 40784 else 8016)

/-- The whole snapshot. -/
def snapBytes (s : State) (slices : Nat) (samples : Bool) : Bytes :=
  ascii 16 "YELIMOS-TEL" ++ leBytes 8 s.count ++ leBytes 2 slices ++ leBytes 1 (b2n samples) ++ leBytes 5 0
    ++ leBytes 4 (snapLength slices samples) ++ List.replicate 28 0
    ++ ((List.range 64).flatMap fun i => leBytes 4 (s.rd .FC_SRC_CNT i))
    ++ ((List.range 16).filter (bitOf slices)).flatMap fun n => s.snapSlice n samples

def snapState (s : State) : Nat := s.fld F.TEL_SNAP_STAT_STATE

/-- TEL_SNAPSHOT. -/
def askSnapshot (s : State) (c : TakenX) : State :=
  if 2 ^ 17 ≤ c.arg then s.respond c 3
  else if s.snapState = 1 then s.respond c 0x403
  else ({ s with tel := { s.tel with asked := some ⟨c, s.count, c.arg % 65536, bitOf c.arg 16⟩ } } : State).setFld
    F.TEL_SNAP_STAT_STATE 1

/-- The capture, at the first multiple of 1,024 tk after the tick in which the command was taken (R142, R420). -/
def capture (s : State) : State :=
  match s.tel.asked with
  | some a =>
    if s.falls 1024 0 ∧ a.count < s.count / 1024 * 1024 then
      let s1 : State := { s with tel := { asked := none, snap := s.snapBytes a.slices a.samples } }
      let s2 := (((s1.setFld F.TEL_SNAP_STAT_STATE 2).setFld F.TEL_SNAP_STAT_SLICES a.slices).setFld F.TEL_SNAP_STAT_SAMPLES
        (b2n a.samples)).setFld F.TEL_SNAP_STAT_LENGTH (snapLength a.slices a.samples / 8)
      ((s2.wrap F.TEL_SNAP_STAT_COUNT).setFld F.TEL_SNAP_TICK_TICK s.count).respond a.cmd 0 s.count
    else s
  | none => s

/-- TEL_READ. -/
def readSnapshot (s : State) (c : TakenX) : State :=
  let off := bitsOf c.arg 0 32
  let len := c.arg / 2 ^ 32
  if off % 8 ≠ 0 ∨ 8128 < len then s.respond c 3
  else if s.snapState = 1 then s.respond c 0x403
  else if s.snapState = 0 then s.respond c 0x404
  else if s.tel.snap.length < off + len then s.respond c 3
  else s.respond c 0 0 (Machine.slice s.tel.snap off len)

end State

/-- TEL_SNAPSHOT (R420). -/
def execTelSnapshot (s : State) : Host.Outcome State Fault Refusal := .next (s.run 0x3A State.askSnapshot)

/-- SNAPSHOT_CAPTURE (R420). -/
def execSnapshotCapture (s : State) : Host.Outcome State Fault Refusal := .next s.capture

/-- TEL_READ (R420). -/
def execTelRead (s : State) : Host.Outcome State Fault Refusal := .next (s.run 0x3B State.readSnapshot)

end Sys2Proof.Machine
end

