-- ==== Sys2Proof/Machine/Resets.lean ====
section
/-! DEFINITION. Resets and the fault masks (R32, R424, R439 to R442). -/

namespace Sys2Proof.Machine

/-- Offsets of the registers loaded only at VIN power-up (†, R422), and of the fuses. -/
def supervisorReg (a : Nat) : Bool :=
  a == 0x100000 || a == 0x100004 || a == 0x100018 || (decide (0x100400 ≤ a) && decide (a < 0x100538)) || a == 0x300004

/-- Offsets that a device warm reset keeps: those, and the ROS register SEC_DEBUG (R8, R439). -/
def warmKept (a : Nat) : Bool := supervisorReg a || a == 0x300008

namespace State

/-- Every part of the machine at reset but the registers kept, flash and fuses, and the model's own fields: what has left
the Y5, the commands that wait, the free-value counter, local time. -/
def afterReset (s : State) (kept : Nat → Bool) : State :=
  let t : State :=
    { State.reset with regs := s.regs.filter (fun e => kept e.1 && decide (e.1 < 0x400000)) ++ State.reset.regs,
                       nv := s.nv, outbox := s.outbox, pending := s.pending, free := s.free,
                       resetEnd := s.pwr.now, pwr := { now := s.pwr.now, kicked := s.pwr.now } }
  t.setFld F.GLB_BOOT_STAT_MIN_SVN s.nv.minSvn

/-- A rail at OFF with nothing measured; the count of its latches stays. -/
def railOff (s : State) (r : Nat) : State := s.wr .PWR_RAIL_STAT (s.fld F.PWR_RAIL_STAT_TRIPS r * 2 ^ 48) r

/-- Rails that are not latched turned off. -/
def railsOff (s : State) (rs : List Nat) : State := rs.foldl (fun a r => if a.railLatched r then a else a.railOff r) s

def allRails : List Nat := List.range 0x27
def sliceRails : List Nat := List.range 0x20

/-- A slice whose rail is still latched is in RAIL_FAULT after a reset (R425, R426). -/
def showRailFaults (s : State) : State :=
  (List.range 16).foldl (fun a n => if a.sliceLatched n then a.setSliceState n 6 else a) s

def setSeq (s : State) (v : Nat) : State := s.setFld F.PWR_STATUS_SEQ v
def seqState (s : State) : Nat := s.fld F.PWR_STATUS_SEQ

/-- A cause bit of PWR_RST_CAUSE is set (R440). -/
def noteCause (s : State) (bit : Nat) : State := s.wr .PWR_RST_CAUSE (Nat.lor (s.rd .PWR_RST_CAUSE) (2 ^ bit))

/-- Every rail is off: the logic has lost its state, only the supervisor runs (R425, R431, R436). -/
def logicOff (s : State) (seq : Nat) : State := ((s.afterReset supervisorReg).railsOff allRails).setSeq seq

/-- A power-on reset begins: every rail off, latches of device rails and, when asked, of all rails cleared, the first device
rail starts (R424, R439); the boot flash is reset (R478). -/
def powerOnReset (s : State) (cause : Nat) (clearAll : Bool) : State :=
  let s1 := (s.afterReset supervisorReg).emit (.xspiReset 10000)
  let s2 := allRails.foldl (fun a r => if clearAll || decide (0x20 ≤ r) || !a.railLatched r then a.railOff r else a) s1
  let s3 := ((s2.noteCause cause).setFld F.PWR_STATUS_ERR_DRIVE 0).setSeq 1
  ({ s3 with boot := { fresh := true } } : State).showRailFaults.setRail 0x20 1

/-- A device warm reset: all logic but the supervisor; slices in S3, device rails on, standby left (R439); the boot flash is
reset (R478). -/
def warmReset (s : State) (cause : Nat) : State :=
  if s.seqState < 2 ∨ 4 < s.seqState then s
  else
    let s1 := ((s.afterReset warmKept).emit (.xspiReset 10000)).railsOff sliceRails
    let s2 := (List.range 7).foldl (fun a k => (a.setRail (0x20 + k) 2).setFld F.PWR_RAIL_STAT_LOWPWR 0 (0x20 + k)) s1
    ({ (s2.noteCause cause).setSeq 2 with boot := { start := 1, fresh := true } } : State).showRailFaults

/-- The staging of a validation that an MP reset abandons: LOADING again, STATUS NOT_READY (R352). -/
def dropValidation (s : State) : State :=
  if s.fld F.CFG_STAGE_STAT_STATE = 2 then (s.setFld F.CFG_STAGE_STAT_STATE 1).setFld F.CFG_STAGE_STAT_STATUS 1 else s

/-- An MP reset (R439, R441): MP_READY falls, what firmware was executing is answered NOT_READY, a validation is abandoned, the
relay stops, the packages firmware held are lost, the watchdog starts enabled. -/
def mpReset (s : State) (cause : Nat) : State :=
  let open_ := s.cmd.taken ++ s.cmd.work.map (·.1)
  let s1 : State := { s with cmd := { s.cmd with taken := [], work := [] }, image := { s.image with packages := [] },
                             boot := { start := 2, fresh := s.boot.fresh, relay := s.boot.relay }, pwr := { s.pwr with kicked := s.pwr.now } }
  let s2 := (open_.foldl (fun a c => a.respond c 1) s1).dropValidation
  (((s2.setFld F.GLB_STATUS_MP_READY 0).setFld F.GLB_STATUS_RECOVERY 0).setFld F.PWR_WDT_EN 1).noteCause cause

/-- The registers of a slice's block and of its cores' blocks at their reset values, Img bits aside. -/
def resetSliceRegs (s : State) (n : Nat) : State :=
  let mine (a : Nat) : Bool :=
    (decide (0x1000000 + n * 0x100000 ≤ a) && decide (a < 0x1100000 + n * 0x100000))
      || (decide (0x2000000 + n * 0x200000 ≤ a) && decide (a < 0x2200000 + n * 0x200000))
  let m (a : Nat) : Nat := match regAt a with
    | some r => imgMask r.1
    | none => 0
  let keep (e : Nat × BitVec 64) : Option (Nat × BitVec 64) :=
    if mine e.1 then
      let v := e.2 &&& BitVec.ofNat 64 (m e.1)
      if v = 0#64 then none else some (e.1, v)
    else some e
  { s with regs := s.regs.filterMap keep, shadow := s.shadow.filterMap keep,
           tokens := s.tokens.filter fun e => !mine e.1 }

/-- MASK, IDLE_TK, MAX and a flush under way, which are written through all slices at once, come back into a slice from the copies
of another (R271, R273). -/
def restoreShared (s : State) (n : Nat) : State :=
  let m := (n + 1) % 16
  let s1 := (s.setFld F.SLC_RT_FLOW_IDLE_TK (s.fld F.SLC_RT_FLOW_IDLE_TK m) n).setFld F.SLC_RT_FLOW_MAX (s.fld F.SLC_RT_FLOW_MAX m) n
  (List.range 48).foldl (fun a k => a.setFld F.SLC_NBRM_MASK (a.fld F.SLC_NBRM_MASK m (k / 16) (k % 16)) n (k / 16) (k % 16))
    (s1.setFld F.SLC_RT_STATUS_FLUSH_BUSY (s.fld F.SLC_RT_STATUS_FLUSH_BUSY m) n)

/-- The logic, ports, pools and cores of a slice reset (R439): contexts aborted with 0x6, frames and copies dropped under
cause 0xC, R306 on the ports; core data regions stay. -/
def resetSlice (s : State) (n : Nat) : State :=
  let s1 := s.abortAll (s.sliceCtxs n)
  let s2 := (s1.dropSlice n true).1
  let s3 := (s2.slicePorts n).foldl (fun a p => if a.portState p.1 = 0 then a else a.portDown n p.2 p.1 0) s2
  let s4 := (sliceCores n).foldl offCore s3
  let dropped := s4.fld F.SLC_DROP_COUNT n 0xC
  let s5 := (s4.slicePorts n).foldl (fun a p => a.setPort p.1 {}) ((s4.resetSliceRegs n).restoreShared n)
  let s6 := (List.range 32).foldl (fun a l => (a.setRxLane (n * 32 + l) {}).setPcsLane (n * 32 + l) {}) (s5.setSlice n {})
  ((s6.setFld F.SLC_DROP_COUNT dropped n 0xC).fillSlice n).buildPools n

/-- A slice taken to S3 with its rails off. -/
def toS3 (s : State) (n : Nat) : State :=
  let p : PwrX :=
    { s.pwr with levels := eraseKey s.pwr.levels n, sleeps := eraseKey s.pwr.sleeps n,
                 wakes := s.pwr.wakes.filter (fun w => w.slice != n), waking := eraseKey s.pwr.waking n,
                 awakeAt := eraseKey s.pwr.awakeAt n, slot := if s.pwr.slot = some n then none else s.pwr.slot }
  (({ s with pwr := p } : State).railsOff [n, 16 + n]).setSliceState n 4

/-- A slice reset: ignored in S3 and RAIL_FAULT, to S3 from S1 and S2, otherwise the slice runs on and its ports start
(R248, R439). -/
def sliceReset (s : State) (n : Nat) : State :=
  match s.sliceState n with
  | 4 | 6 => s
  | 2 | 3 => ((s.resetSlice n).toS3 n).noteCause 9
  | 5 => (s.resetSlice n).noteCause 9
  | _ =>
    let s1 := (s.resetSlice n).setSliceState n 0
    (({ s1 with pwr := { s1.pwr with sleeps := eraseKey s1.pwr.sleeps n } } : State).startPorts n).noteCause 9

/-- A write of PWR_RST_CMD: with KEY 0xA5, its resets are due in 100 µs (R439). -/
def writeRst (s : State) (v : Nat) : State :=
  if bitsOf v 8 8 ≠ 0xA5 then s
  else
    let d := s.pwr.due
    let w := if bitOf v 0 ∧ d.warm.isNone then some s.now else d.warm
    let m := if bitOf v 1 ∧ d.mp.isNone then some s.now else d.mp
    let sl := ((List.range 16).filter fun n => bitOf v (16 + n)).foldl (fun l n =>
      if (lookupKey l n).isSome then l else insertKey l n s.now) d.slices
    { s with pwr := { s.pwr with due := { d with warm := w, mp := m, slices := sl } } }

/-- Whether the 100 µs since the write of a reset's command have passed (R439). -/
def rstDue (s : State) (t : Nat) : Bool := decide (t + 100000 ≤ s.now)

/-- Whether a reset due from the write of a tick is excluded by a device warm reset due from the same (R440). -/
def excluded (s : State) (t : Nat) : Bool := s.pwr.due.warm == some t

/-! Fault masks (R32) -/

/-- A masked port goes to DISABLED; R306 applies from UP, RETRAIN and TEST. -/
def maskPort (s : State) (x : Nat) : State :=
  s.onPort x fun n j =>
    if s.portState x = 0 then s
    else if s.portState x = 8 then (s.portDown n j x 0).linkDown n j x
    else s.portDown n j x 0

/-- A masked core goes to OFF, its running context aborted. -/
def maskCore (s : State) (n : Nat) : State :=
  let s1 := match s.runCtx n with
    | some c => s.abortCtx c 6
    | none => s
  let s2 := s1.drainCore n
  let s3 := (s2.leaveProgram n).stopEngines n
  s3.setFld F.RC_STATUS_STATE 0 n

/-- A masked slice is reset as a slice reset does, and taken to S3; in S3 it stays, without the sleep state it waited for. One in
RAIL_FAULT stays there (R32; log entry 96). -/
def maskSlice (s : State) (n : Nat) : State :=
  match s.sliceState n with
  | 4 => s.toS3 n
  | 6 => s
  | _ => ((s.resetSlice n).toS3 n).noteCause 9

/-- A write of a GLB_FMASK register: the bits newly set act, and the disabled-unit map follows (R32, R45). -/
def writeMask32 (s : State) (r : RegName) (k v : Nat) (act : State → Nat → State) : State :=
  let old := s.rd r k
  let new := without (v % 2 ^ r.row.width) old
  let w := if r = .GLB_FMASK_SLICE then 16 else 32
  let s1 := s.wr r (Nat.lor old (v % 2 ^ w)) k
  (((List.range w).filter (bitOf new)).foldl (fun a b => act a (32 * k + b)) s1).showDisabled.noteTerms

end State

/-- FMASK_SLICE_WRITE (R32). -/
def execFmaskSliceWrite (value : BitVec 32) (s : State) : Host.Outcome State Fault Refusal :=
  .next (s.writeMask32 .GLB_FMASK_SLICE 0 value.toNat State.maskSlice)

/-- FMASK_PORT_WRITE (R32). -/
def execFmaskPortWrite (k : Nat) (value : BitVec 32) (s : State) : Host.Outcome State Fault Refusal :=
  .next (s.writeMask32 .GLB_FMASK_PORT k value.toNat State.maskPort)

/-- FMASK_CORE_WRITE (R32). -/
def execFmaskCoreWrite (k : Nat) (value : BitVec 32) (s : State) : Host.Outcome State Fault Refusal :=
  .next (s.writeMask32 .GLB_FMASK_CORE k value.toNat State.maskCore)

/-- RST_CMD_WARM: a write of PWR_RST_CMD with WARM 1 (R439). -/
def execRstCmdWarm (value : BitVec 32) (s : State) : Host.Outcome State Fault Refusal :=
  .next (s.writeRst (value ||| 1#32).toNat)

/-- RST_CMD_MP: a write of PWR_RST_CMD with MP 1. -/
def execRstCmdMp (value : BitVec 32) (s : State) : Host.Outcome State Fault Refusal :=
  .next (s.writeRst (value ||| 2#32).toNat)

/-- RST_CMD_SLICE: a write of PWR_RST_CMD with SLICE bits. -/
def execRstCmdSlice (value : BitVec 32) (s : State) : Host.Outcome State Fault Refusal := .next (s.writeRst value.toNat)

/-- POWER_ON_RESET: the one that waits begins (R436, R439, R440). -/
def execPowerOnReset (s : State) : Host.Outcome State Fault Refusal :=
  .next (match s.pwr.due.power with
  | some b => s.powerOnReset b false
  | none => s)

/-- DEVICE_WARM_RESET: 100 µs after its command (R439). -/
def execDeviceWarmReset (s : State) : Host.Outcome State Fault Refusal :=
  .next (if s.pwr.due.warm.any s.rstDue then s.warmReset 5 else s)

/-- SLICE_RESET: 100 µs after its command (R439, R440). -/
def execSliceReset (n : Nat) (s : State) : Host.Outcome State Fault Refusal :=
  .next (match lookupKey s.pwr.due.slices n with
  | some t =>
    let s1 : State := { s with pwr := { s.pwr with due := { s.pwr.due with slices := eraseKey s.pwr.due.slices n } } }
    if !s.rstDue t then s else if s.excluded t then s1 else s1.sliceReset n
  | none => s)

/-- MP_RESET: 100 µs after its command (R439, R440). -/
def execMpReset (s : State) : Host.Outcome State Fault Refusal :=
  .next (match s.pwr.due.mp with
  | some t =>
    let s1 : State := { s with pwr := { s.pwr with due := { s.pwr.due with mp := none } } }
    if !s.rstDue t then s else if s.excluded t then s1 else s1.mpReset 7
  | none => s)

/-- WDT_KICK (R442). -/
def execWdtKick (s : State) : Host.Outcome State Fault Refusal :=
  .next { s with pwr := { s.pwr with kicked := s.pwr.now } }

/-- WDT_EXPIRY: TMO ms of local time since the last kick (R442). -/
def execWdtExpiry (s : State) : Host.Outcome State Fault Refusal :=
  .next (if s.flag F.PWR_WDT_EN ∧ s.pwr.kicked + s.fld F.PWR_WDT_TMO * 1000000 ≤ s.pwr.now then (s.report 0x3E 0).mpReset 8 else s)

end Sys2Proof.Machine
end

