-- ==== Sys2Proof/Machine/Supply.lean ====
section
/-! DEFINITION. Supply, rails, clocks, standby and SMBus (R422 to R427, R434 to R438, R469, R472). -/

namespace Sys2Proof.Machine

namespace State

/-- A slice rail latches: the slice is lost (R426, R434). -/
def loseSlice (s : State) (n : Nat) : State :=
  let s1 := (s.abortAll (s.sliceCtxs n)).railsOff [n, 16 + n]
  let s2 := (s1.dropSlice n false).1
  let s3 := (s2.slicePorts n).foldl (fun a p => if a.portState p.1 = 0 then a else a.portDown n p.2 p.1 0) s2
  let s4 := (sliceCores n).foldl offCore s3
  ((((s4.toS3 n).setFld F.SLC_DRAIN_STATE 2 n).setFld F.SLC_DRAIN_TARGET 3 n).setSliceState n 6).report 0x38 n

/-- A rail latches off for a cause: 1 voltage, 2 current (R425, R426, R434, R435). -/
def latchRail (s : State) (r kind : Nat) : State :=
  let f := if kind = 1 then F.PWR_RAIL_STAT_FAIL_WINDOW else F.PWR_RAIL_STAT_FAIL_CURRENT
  let s1 := ((s.setRail r 3).setFld f 1 r).bump F.PWR_RAIL_STAT_TRIPS 1 r
  let s2 := (s1.setFld F.PWR_STATUS_FAIL_RAIL r).setFld F.PWR_STATUS_FAIL_KIND kind
  if r < 0x20 then s2.loseSlice (r % 16)
  else if s.seqState = 4 then ((s2.setSeq 3).setFld F.PWR_STATUS_ERR_DRIVE 1).report 0x38 0
  else (s2.logicOff 5).setFld F.PWR_STATUS_ERR_DRIVE 1

/-- A rail reaches 90 %: ON, and what follows it starts (R424, R433, R435). -/
def railUp (s : State) (r : Nat) (m : RailOp) : State :=
  if s.fld F.PWR_RAIL_STAT_STATE r ≠ 1 then s
  else
    let s1 := ((s.setRail r 2).setFld F.PWR_RAIL_STAT_MV m.mv.toNat r).setFld F.PWR_RAIL_STAT_CURR m.curr.toNat r
    if 0x20 ≤ r then
      if r < 0x26 then (if s.seqState = 1 ∨ s.seqState = 4 then s1.setRail (r + 1) 1 else s1)
      else if s.seqState = 4 then ((s1.setSeq 2).setFld F.PWR_STANDBY_ACTIVE 0).setFld F.GLB_STATUS_STANDBY 0
      else s1
    else if 0x10 ≤ r then
      (if lookupKey s.pwr.waking (r - 16) = some 3 then s1.setRail (r - 16) 1 else s1)
    else if s.pwr.slot = some r then { s1 with pwr := { s1.pwr with slot := none } }
    else s1

/-- The management PLL's lock (R424, R438, R472): the MP is released to the boot ROM once the rails are up. -/
def pllLock (s : State) (locked : Bool) : State :=
  if ¬ locked ∨ s.pwr.refLost then s
  else
    let s1 : State := { s with pwr := { s.pwr with pllLost := false } }
    if s.seqState = 1 ∧ s.fld F.PWR_RAIL_STAT_STATE 0x26 = 2 then
      { s1.setSeq 2 with boot := { s1.boot with start := 1 }, pwr := { s1.pwr with kicked := s1.pwr.now } }
    else s1

/-- A write of PWR_STANDBY (R435). -/
def writeStandby (s : State) (v : Nat) : State :=
  let refuse (a : State) : State := a.setFld F.PWR_STANDBY_REFUSED 1
  let s0 := if bitOf v 3 then s.setFld F.PWR_STANDBY_REFUSED 0 else s
  let asleep := (List.range 16).all fun n => s.sliceState n == 4 && s.fld F.PWR_SLICE_REQ_SLEEP n == 3
  match bitOf v 0, bitOf v 1 with
  | false, false => s0
  | true, true => refuse s0
  | true, false =>
    if asleep ∧ s.seqState = 2 ∧ ¬ s.pwr.entering then { s0 with pwr := { s0.pwr with entering := true } } else refuse s0
  | false, true =>
    if s.seqState = 3 then
      let s1 := [0x20, 0x21, 0x22, 0x23].foldl (fun a r => a.setFld F.PWR_RAIL_STAT_LOWPWR 0 r) s0
      (s1.setSeq 4).setRail 0x24 1
    else refuse s0

/-- The standby rail sequence ends (R435). -/
def standbyEntered (s : State) : State :=
  if ¬ s.pwr.entering then s
  else
    let s1 : State := { s with pwr := { s.pwr with entering := false } }
    let s2 := [0x20, 0x21, 0x22, 0x23].foldl (fun a r => a.setFld F.PWR_RAIL_STAT_LOWPWR 1 r) (s1.railsOff [0x26, 0x25, 0x24])
    ((s2.setSeq 3).setFld F.PWR_STANDBY_ACTIVE 1).setFld F.GLB_STATUS_STANDBY 1

/-- A write of PWR_WDT: KICK, and EN set, restart the watchdog (R442). -/
def writeWdt (s : State) (v : Nat) : State :=
  let s1 := s.plainWrite .PWR_WDT v 0 0 0
  if bitOf v 16 ∨ (bitOf v 17 ∧ ¬ s.flag F.PWR_WDT_EN) then { s1 with pwr := { s1.pwr with kicked := s1.pwr.now } } else s1

/-- A write of a PWR register. -/
def writePwr (s : State) (r : RegName) (v i : Nat) : State :=
  match r with
  | .PWR_RST_CMD => s.writeRst v
  | .PWR_STANDBY => s.writeStandby v
  | .PWR_COMMIT => s.commitPower (v % 65536)
  | .PWR_WDT => s.writeWdt v
  | r => s.plainWrite r v i 0 0

/-! SMBus (R427) -/

/-- Whether SMBus reads a register. -/
def smbusReads (s : State) (off : Nat) : Bool :=
  (decide (0x100000 ≤ off) && decide (off < 0x200000))
    || ((s.seqState == 2 || s.seqState == 3)
      && [RegName.GLB_ID, .GLB_SERIAL, .GLB_STATUS, .FC_STAT, .FC_SAFE].any fun r => off == r.addr)

/-- The bytes that SMBus REG_READ returns. -/
def smbusBytes (s : State) (off : Nat) : Bytes :=
  match (if s.smbusReads off then regAt off else none) with
  | some (r, i, j, k) => leBytes (r.row.width / 8) (s.plainRead r i j k)
  | none => leBytes 4 0

/-- SMBus REG_WRITE. -/
def smbusWrite (s : State) (off : Nat) (data : Bytes) : State :=
  match (if 0x100000 ≤ off ∧ off < 0x200000 then regAt off else none) with
  | some (r, i, _, _) => if data.length * 8 = r.row.width then s.writePwr r (leNat data) i else s
  | none => s

/-- RAIL_CLEAR of a latched rail (R426, R427, R431, R443). -/
def railClear (s : State) (r : Nat) : State :=
  if ¬ s.railLatched r ∨ s.pwr.shutdown then s
  else if 0x20 ≤ r then s.powerOnReset 3 false
  else (s.railOff r).freeSlice (r % 16)

end State

/-- VIN_POWER_UP: VIN_12V rises through 10.8 V; the supervisor starts with its own registers loaded, and the rail sequence
begins (R422, R424). -/
def execVinPowerUp (volt : BitVec 16) (s : State) : Host.Outcome State Fault Refusal :=
  .next (if 10800 ≤ volt.toNat then
    ((s.afterReset fun a => a == 0x300004).powerOnReset 0 true).setFld F.PWR_VIN_VOLT volt.toNat
  else s)

/-- VIN_POWER_DOWN: below 10.2 V the supervisor stops and every rail is off (R422, R469). -/
def execVinPowerDown (volt : BitVec 16) (s : State) : Host.Outcome State Fault Refusal :=
  .next (if volt.toNat < 10200 then s.afterReset fun a => a == 0x300004 else s)

/-- RAIL_UP (R424). -/
def execRailUp (r : Nat) (m : RailOp) (s : State) : Host.Outcome State Fault Refusal := .next (s.railUp r m)

/-- RAIL_WINDOW_MISS (R425, R434, R435). -/
def execRailWindowMiss (r : Nat) (s : State) : Host.Outcome State Fault Refusal :=
  .next (if s.fld F.PWR_RAIL_STAT_STATE r = 1 then s.latchRail r 1 else s)

/-- RAIL_TRIP: over current, or below 90 % after it has come up (R423, R425, R426). -/
def execRailTrip (r : Nat) (current : Bool) (s : State) : Host.Outcome State Fault Refusal :=
  .next (if s.fld F.PWR_RAIL_STAT_STATE r = 2 ∨ (s.fld F.PWR_RAIL_STAT_STATE r = 1 ∧ current) then
    s.latchRail r (if current then 2 else 1)
  else s)

/-- PLL_LOCK (R424, R472). -/
def execPllLock (locked : Bool) (s : State) : Host.Outcome State Fault Refusal := .next (s.pllLock locked)

/-- SMBUS_REG_READ (R427): a wrong PEC has no effect. -/
def execSmbusRegRead (off : BitVec 32) (pec : Bool) (s : State) : Host.Outcome State Fault Refusal :=
  .next (if pec then s.emit (.smbus (s.smbusBytes off.toNat)) else s)

/-- SMBUS_REG_WRITE (R427). -/
def execSmbusRegWrite (off : BitVec 32) (data : List (BitVec 8)) (pec : Bool) (s : State) : Host.Outcome State Fault Refusal :=
  .next (if pec then s.smbusWrite off.toNat data else s)

/-- RAIL_CLEAR (R427). -/
def execRailClear (r : BitVec 8) (pec : Bool) (s : State) : Host.Outcome State Fault Refusal :=
  .next (if pec ∧ r.toNat < 0x27 then s.railClear r.toNat else s)

/-- POWER_CYCLE (R427, R439). -/
def execPowerCycle (data : BitVec 8) (pec : Bool) (s : State) : Host.Outcome State Fault Refusal :=
  .next (if pec ∧ data = 0xA5#8 then s.powerOnReset 2 true else s)

/-- WARM_RESET (R427, R439). -/
def execWarmReset (data : BitVec 8) (pec : Bool) (s : State) : Host.Outcome State Fault Refusal :=
  .next (if pec ∧ data = 0xA5#8 then s.warmReset 6 else s)

/-- THERM_SAMPLE (R431): at 115 °C the supervisor turns every rail off. -/
def execThermSample (n : Nat) (temp : BitVec 8) (s : State) : Host.Outcome State Fault Refusal :=
  .next (if 115 ≤ temp.toNat then
    let t := (s.logicOff 0).noteCause 4
    { t with pwr := { t.pwr with shutdown := true } }
  else s.sampleTemp n temp.toNat)

/-- STANDBY_REQ: a write of PWR_STANDBY with REQ 1 (R435). -/
def execStandbyReq (value : BitVec 32) (s : State) : Host.Outcome State Fault Refusal :=
  .next (s.writeStandby (value ||| 1#32).toNat)

/-- STANDBY_EXIT: a write of PWR_STANDBY with EXIT 1. -/
def execStandbyExit (value : BitVec 32) (s : State) : Host.Outcome State Fault Refusal :=
  .next (s.writeStandby (value ||| 2#32).toNat)

/-- STANDBY_ENTERED (R435). -/
def execStandbyEntered (s : State) : Host.Outcome State Fault Refusal := .next s.standbyEntered

/-- BROWNOUT (R436): every rail off, a power-on reset 10 ms later. -/
def execBrownout (s : State) : Host.Outcome State Fault Refusal :=
  .next (if s.seqState = 3 then
    let t := ((s.logicOff 0).noteCause 1).bump F.PWR_RST_CAUSE_BROWNOUTS
    { t with pwr := { t.pwr with due := { t.pwr.due with power := some 1 } } }
  else s)

/-- REFCLK_LOSS: no reference edges for 1 µs, or a PLL that lost lock (R438). -/
def execRefclkLoss (pll : Bool) (s : State) : Host.Outcome State Fault Refusal :=
  .next (let t : State := { s with pwr := { s.pwr with refLost := s.pwr.refLost || !pll, pllLost := s.pwr.pllLost || pll } }
    if s.pwr.refLost ∨ s.pwr.pllLost then t else t.report 0x3D 0)

/-- REFCLK_RETURN (R438): the islands advance again. -/
def execRefclkReturn (s : State) : Host.Outcome State Fault Refusal :=
  .next { s with pwr := { s.pwr with refLost := false } }

end Sys2Proof.Machine
end

