-- ==== Sys2Proof/Machine/Boot.lean ====
section
/-! DEFINITION. The boot ROM, confirmation, firmware's start, recovery, the firmware staging and settings (chapter 19). -/

namespace Sys2Proof.Machine

/-! Firmware images (R446, R447) -/

def fwVersion (b : Bytes) : Nat := leAt b 16 8
def fwSvn (b : Bytes) : Nat := leAt b 24 1
def fwSettings (b : Bytes) : Nat := leAt b 25 1
def fwCodeLen (b : Bytes) : Nat := leAt b 32 8
/-- The MP firmware digest: SHA3-256 of header bytes 0 to 111. -/
def fwImageDigest (b : Bytes) : Bytes := sha3 (slice b 0 112)
/-- The message the signatures cover. -/
def fwMessage (b : Bytes) : Bytes := ascii 16 "YELIMOS-FW-SIGN" ++ slice b 16 96

/-- MAGIC and reserved fields. -/
def fwHeaderOk (b : Bytes) : Bool :=
  slice b 0 16 == ascii 16 "YELIMOS-FW" && allZero (slice b 26 6) && allZero (slice b 52 12) && allZero (slice b 112 16)
    && allZero (slice b 3533 563)

/-- The checks of R447. -/
def fwVerified (b : Bytes) (minSvn : Nat) : Bool :=
  fwHeaderOk b && fwCodeLen b % 16 == 0 && decide (fwCodeLen b ≤ 7864320) && decide (4096 + fwCodeLen b ≤ b.length)
    && (match Config.gcmOpen Config.firmwareKey (slice b 40 12) (slice b 0 64) (slice b 4096 (fwCodeLen b)) (slice b 64 16) with
      | some plain => sha3 plain == slice b 80 32
      | none => false)
    && Config.verifyEcdsa Config.firmwareSignKey (fwMessage b) (slice b 128 96)
    && Config.verifyMlDsa Config.firmwareSignKey (fwMessage b) (slice b 224 3309)
    && decide (minSvn ≤ fwSvn b)

/-- The staged bytes. -/
def FwStage.bytes (g : FwStage) : Bytes :=
  ((List.range (ceilDiv g.total 4096)).flatMap fun i => readKey [] g.blocks i).take g.total

namespace NvX

def slot (v : NvX) (k : Nat) : SlotR := readKey {} v.slots k
def setSlot (v : NvX) (k : Nat) (x : SlotR) : NvX := { v with slots := writeKey {} v.slots k x }
def markSlot (v : NvX) (k st : Nat) : NvX := v.setSlot k { v.slot k with state := st }
/-- The slot in a state. -/
def inState (v : NvX) (st : Nat) : Option Nat := [0, 1].find? fun k => (v.slot k).state == st
def key (v : NvX) (k : Nat) : KeySlot := readKey {} v.keys k

/-- A directory copy is written: the one with the lower sequence number, one above the other's (R445; log
entry 46). -/
def written (v : NvX) : NvX := if v.seqA ≤ v.seqB then { v with seqA := v.seqB + 1 } else { v with seqB := v.seqA + 1 }

/-- An install (R450): into the slot that is neither ACTIVE nor TRIAL; its outcome. -/
def install (v : NvX) : NvX × Bool :=
  let k := ([0, 1].find? fun k => (v.slot k).state != 1 && (v.slot k).state != 2).getD 1
  let b := v.stage.bytes
  let good := fwVerified b v.minSvn
  (NvX.written { v.setSlot k ⟨if good then 2 else 4, b⟩ with stage := { v.stage with state := if good then 3 else 4 } }, good)

/-- The first of TRIAL, ACTIVE and PREVIOUS that verifies; those that fail are BAD (R449). -/
def choose (v : NvX) : List Nat → NvX × Option Nat
  | [] => (v, none)
  | st :: rest =>
    match v.inState st with
    | some k => if fwVerified (v.slot k).image v.minSvn then (v, some k) else (v.markSlot k 4).choose rest
    | none => v.choose rest

/-- TRIAL becomes ACTIVE, and the former ACTIVE becomes PREVIOUS (R451). -/
def promote (v : NvX) : NvX :=
  match v.inState 2 with
  | some k =>
    let w := match v.inState 1 with
      | some a => v.markSlot a 3
      | none => v
    w.markSlot k 1
  | none => v

end NvX

namespace State

/-! The registers of the directory and the staging -/

def showSlots (s : State) : State :=
  [0, 1].foldl (fun a k =>
    let x := a.nv.slot k
    let has := x.state != 0
    ((a.setFld F.GLB_FW_SLOT_STATE x.state k).setFld F.GLB_FW_SLOT_SVN (if has then fwSvn x.image else 0) k).setFld
      F.GLB_FW_SLOT_VER_VERSION (if has then fwVersion x.image else 0) k) s

def showStage (s : State) : State :=
  let g := s.nv.stage
  let v := match lookupKey g.blocks 0 with
    | some b => if g.state = 0 then 0 else fwVersion b
    | none => 0
  ((s.setFld F.GLB_FW_STAGE_STATE g.state).setFld F.GLB_FW_STAGE_BLOCKS (if g.state = 0 then 0 else g.blocks.length)).setFld
    F.GLB_FW_STAGE_VER_VERSION v

def withNv (s : State) (v : NvX) : State := (({ s with nv := v } : State).showSlots).showStage

/-! Relay (R459, R460) -/

def relayState (s : State) (d : Nat) : Nat := s.fld F.GLB_FW_RELAY_STATE d

/-- The relay's command of a step goes to the downstream of an entry, in class 6 of PART. -/
def relaySend (s : State) (r : RelayRun) : State :=
  match s.image.relay.down[r.entry]? with
  | none => s
  | some d =>
    let b := s.nv.stage.bytes
    let p := s.image.relay.part
    let chunk := (b.drop ((r.step - 1) * 4096)).take 4096
    let k := if r.step = 0 then packet d.2 0x20 p b.length (sha3 b)
      else if r.step ≤ ceilDiv b.length 4096 then packet d.2 0x21 p ((r.step - 1) * 4096) chunk
      else packet d.2 0x22 p 0 []
    ({ s with boot := { s.boot with relay := some { r with sentAt := s.now } } } : State).originate 0
      { typ := Frame.CMD, cls := 6, part := p, dest := d.1 * 32, payload := k }

/-- The relay goes on to the first entry that is neither DONE nor FAILED, or ends. -/
def relayNext (s : State) : State :=
  match (List.range s.image.relay.down.length).find? fun d => s.relayState d != 2 && s.relayState d != 3 with
  | some d =>
    (((s.setFld F.GLB_FW_RELAY_STATE 1 d).setFld F.GLB_FW_RELAY_TRIES (min 3 (s.fld F.GLB_FW_RELAY_TRIES d + 1)) d)).relaySend
      { entry := d }
  | none => { s with boot := { s.boot with relay := none } }

/-- FAILED entries are to be tried again, and an entry that was being sent afresh. -/
def relayRestart (s : State) : State :=
  (List.range 8).foldl (fun a d => if a.relayState d = 3 ∨ a.relayState d = 1 then a.wr .GLB_FW_RELAY 0 d else a) s

/-- A relay stops; the entry being sent is IDLE. -/
def relayStop (s : State) : State :=
  match s.boot.relay with
  | some r => ({ s with boot := { s.boot with relay := none } } : State).setFld F.GLB_FW_RELAY_STATE 0 r.entry
  | none => s

/-- Every entry IDLE, for another transfer. -/
def relayClear (s : State) : State := (List.range 8).foldl (fun a d => a.wr .GLB_FW_RELAY 0 d) s.relayStop

/-- A downstream refused or did not answer: it waits 10 s, or has FAILED after three tries. -/
def relayFailed (s : State) (r : RelayRun) : State :=
  if 3 ≤ s.fld F.GLB_FW_RELAY_TRIES r.entry then (s.setFld F.GLB_FW_RELAY_STATE 3 r.entry).relayNext
  else { s with boot := { s.boot with relay := some { r with waits := true, sentAt := s.now } } }

/-- A downstream's response (R460). -/
def relayAnswer (s : State) (b : Bytes) : State :=
  match s.boot.relay with
  | none => s
  | some r =>
    if ¬ s.boot.running ∨ r.waits then s
    else
      let st := leAt b 22 2
      let s1 := s.setFld F.GLB_FW_RELAY_LAST_STATUS st r.entry
      let last := ceilDiv s.nv.stage.bytes.length 4096 + 1
      if st ≠ 0 then s1.relayFailed r
      else if (r.step = 0 ∧ pkArg b = 1) ∨ r.step = last then (s1.setFld F.GLB_FW_RELAY_STATE 2 r.entry).relayNext
      else s1.relaySend { r with step := r.step + 1 }

/-- A command unanswered for MGT_FWD_CFG.TMO has timed out; 10 s after a refusal or a timeout the entry is tried again from
FW_BEGIN (R460). -/
def relayRetry (s : State) : State :=
  match s.boot.relay with
  | none => s
  | some r =>
    let wait := if r.waits then 10000000000 else s.fld F.MGT_FWD_CFG_TMO * 1000000
    if ¬ s.boot.running ∨ s.now < r.sentAt + wait then s
    else if ¬ r.waits then s.relayFailed r
    else (s.setFld F.GLB_FW_RELAY_TRIES (min 3 (s.fld F.GLB_FW_RELAY_TRIES r.entry + 1)) r.entry).relaySend { entry := r.entry }

/-! Settings (R454, R455) -/

def setFormat (b : Bytes) : Nat := leAt b 0 1
def setEntries (b : Bytes) : List (Nat × Nat) :=
  (List.range (leAt b 4 4 % 512)).map fun i => (leAt b (8 + 12 * i) 4, leAt b (12 + 12 * i) 8)

/-- The registers a settings record may name. -/
def settingRegs : List RegName :=
  [.PWR_CAP_CFG, .PWR_THERM, .PWR_WDT, .FC_SEV, .FC_ERR, .FC_CTRL, .GLB_MG_DRAIN_TMO, .MGT_FWD_CFG]
def settingReg (off : Nat) : Option (RegName × Nat) :=
  (regAt off).bind fun e => if settingRegs.contains e.1 then some (e.1, e.2.1) else none

/-- Whether bytes are a settings record. -/
def settingsWf (b : Bytes) : Bool :=
  decide (8 ≤ b.length) && decide (b.length ≤ 4096) && b.length == 8 + 12 * leAt b 4 4 && allZero (Machine.slice b 1 3)
    && (setEntries b).all fun e => (settingReg e.1).isSome

/-- One entry applied under its register's range rules. -/
def applySetting (s : State) (e : Nat × Nat) : State :=
  match settingReg e.1 with
  | some (.PWR_WDT, _) => s.setFld F.PWR_WDT_TMO (clampTo 100 60000 (bitsOf e.2 0 16))
  | some (.FC_SEV, i) => s.writeSev i (e.2 % 2 ^ 32)
  | some (.FC_ERR, _) => s.writeErr (e.2 % 2 ^ 32)
  | some (.FC_CTRL, _) => (s.plainWrite .FC_CTRL e.2 0 0 0).rewrote 5
  | some (r, i) => s.plainWrite r e.2 i 0 0
  | none => s

/-- Firmware compares the stored record with its format (R455). -/
def startSettings (s : State) (fmt : Nat) : State :=
  match s.nv.settings with
  | none => s
  | some b =>
    if setFormat b = fmt then (setEntries b).foldl applySetting s
    else if setFormat b < fmt then
      ({ s with nv := { s.nv with settings := some (leBytes 1 fmt ++ leBytes 7 0) } } : State).setFld F.GLB_BOOT_STAT_SETTINGS_RESET 1
    else s

/-! Operator keys (R390) -/

/-- SHA3-256 of a slot's keys. -/
def keyDigest (x : KeySlot) : Bytes := if x.keys = [] then List.replicate 32 0#8 else sha3 x.keys

/-- Firmware loads the slots: their states, digests and keys. -/
def showKeys (s : State) : State :=
  let s1 := (List.range 4).foldl (fun a k =>
    let x := a.nv.key k
    (a.setFld F.SEC_OPKEY_STATE x.state k).setDigest .SEC_OPKEY_DIG k (keyDigest x)) s
  { s1 with sec := { s1.sec with opkeys := s.nv.keys.map fun e => (e.1, e.2.keys) } }

/-! The boot ROM (R449, R450, R453) -/

/-- Recovery mode. -/
def recovery (s : State) (cause : Nat) : State :=
  let s1 : State := { s with boot := { fresh := s.boot.fresh, relay := s.boot.relay } }
  (((s1.setFld F.GLB_STATUS_RECOVERY 1).setFld F.GLB_BOOT_STAT_RECOVERY_CAUSE cause).showSlots).showStage

/-- The jump: firmware starts from slot k; its digest is a contract term (R45). -/
def jump (s : State) (k : Nat) : State :=
  let b := (s.nv.slot k).image
  let bt : BootX := { running := true, fresh := s.boot.fresh, settingsFmt := fwSettings b, timer := true, jumped := s.pwr.now,
                      relay := s.boot.relay }
  let s1 := (({ s with boot := bt } : State).wr .GLB_FW_VERSION (fwVersion b)).setFld F.GLB_BOOT_TIMER_LEFT 600
  let d := fwImageDigest b
  let s2 := (List.range 4).foldl (fun a m => a.wr .GLB_FW_DIGEST (leAt d (8 * m) 8) m) s1
  let s3 := ((s2.noteTerms.setFld F.GLB_BOOT_STAT_SLOT k).setFld F.GLB_BOOT_STAT_TRIAL (b2n ((s.nv.slot k).state == 2))).setFld
    F.GLB_BOOT_STAT_RUN_SVN (fwSvn b)
  let s4 := s3.showSlots.showStage.showKeys
  let s5 := if s4.boot.fresh then s4.startSettings (fwSettings b) else s4.setFld F.GLB_STATUS_MP_READY 1
  if s5.boot.relay.isSome then
    (if s5.nv.stage.state = 2 ∨ s5.nv.stage.state = 3 then s5.relayRestart.relayNext else s5.relayStop)
  else s5

/-- The ROM from its directory step on. -/
def romDirectory (s : State) : State :=
  let v := s.nv
  let failed := v.booted && !v.confirmed
  let fell := failed && (v.slot v.last).state == 2
  let fails := v.fails + b2n failed
  let v1 := if fell then v.markSlot v.last 4 else v
  let s1 := (s.setFld F.GLB_BOOT_STAT_FAILS (min 3 fails)).setFld F.GLB_BOOT_STAT_FELL_BACK (b2n fell)
  if 3 ≤ fails then s1.recovery 2
  else
    let i := if v1.stage.state = 2 then v1.install else (v1, false)
    let s2 := if v1.stage.state = 2 then
        s1.setFld (if i.2 then F.GLB_BOOT_STAT_INSTALLED else F.GLB_BOOT_STAT_STAGE_REJECTED) 1
      else s1
    let c := i.1.choose [2, 1, 3]
    match c.2 with
    | some k =>
      ({ s2 with nv := { c.1.written with fails := fails, booted := true, confirmed := false, last := k } } : State).jump k
    | none => ({ s2 with nv := c.1 } : State).recovery 3

/-- The boot ROM starts: after a reset it times SERVICE_N, after REC_EXIT it does not (R449, R453). -/
def romBoot (s : State) (service : Bool) : State :=
  if s.boot.start = 0 then s
  else
    let pressed := service && s.boot.start != 3
    let s1 : State := { s with boot := { s.boot with start := 0, running := false, confirming := false, timer := false },
                               pwr := { s.pwr with kicked := s.pwr.now } }
    let s2 := ((s1.wr .GLB_BOOT_STAT 0).setFld F.GLB_BOOT_STAT_MIN_SVN s.nv.minSvn).setFld F.GLB_STATUS_RECOVERY 0
    if pressed then s2.recovery 1 else s2.romDirectory

/-- Whether the committed image uses a slice: it defines a port of it or grants a core of it (R18; log entry 95). -/
def usesSlice (s : State) (n : Nat) : Bool := !(s.slicePorts n).isEmpty || s.image.device.cores.any fun g => g.1 / 32 == n

/-- Firmware wakes each slice that the committed image uses and that is not disabled (R18, R424). -/
def wakeUsed (s : State) : State :=
  (List.range 16).foldl (fun a n =>
    if a.usesSlice n && !bitOf (a.rd .GLB_DISABLED_SLICE) n then
      (a.wrShadow .PWR_SLICE_REQ (putBits (a.rd .PWR_SLICE_REQ n) 2 2 0) n).commitSlice n
    else a) s

/-- Boot firmware loads the stored packages in order and wakes the slices they use, or stays on the empty image (R18, R360); then
it accepts commands. -/
def loadStored (s : State) : State :=
  if ¬ s.boot.running ∨ ¬ s.boot.fresh then s
  else
    let r := s.nv.store.foldl (fun (m : Option State) b =>
      match m with
      | none => none
      | some a =>
        if (a.validate b).1 ≠ 0 then none
        else
          let t := a.commitPackage b
          if t.fld F.CFG_COMMIT_STAT_LAST_STATUS = 0 then some t else none) (if s.nv.store = [] then none else some s)
    let s1 := match r with
      | some t => t.wakeUsed
      | none => s.report 0x35 0
    ({ s1 with boot := { s1.boot with fresh := false } } : State).setFld F.GLB_STATUS_MP_READY 1

/-! Confirmation (R451, R452) -/

/-- HEALTH_CONFIRM, while the confirm timer runs. -/
def healthConfirm (s : State) : State :=
  if s.boot.running ∧ s.boot.timer ∧ ¬ s.flag F.GLB_BOOT_STAT_CONFIRMED then
    { s with boot := { s.boot with confirming := true } }
  else s

/-- The confirming directory write completes. -/
def confirmDone (s : State) : State :=
  if ¬ s.boot.confirming then s
  else
    let v := { s.nv.promote with confirmed := true, fails := 0 }
    let s1 := ({ s with boot := { s.boot with confirming := false, timer := false } } : State).withNv v.written
    ((s1.setFld F.GLB_BOOT_STAT_CONFIRMED 1).setFld F.GLB_BOOT_STAT_FAILS 0).setFld F.GLB_BOOT_STAT_TRIAL 0

/-- The confirm timer expires. -/
def confirmExpired (s : State) : State :=
  if s.boot.timer ∧ ¬ s.flag F.GLB_BOOT_STAT_CONFIRMED ∧ s.boot.jumped + 600000000000 ≤ s.now then
    (({ s with boot := { s.boot with timer := false } } : State).setFld F.GLB_BOOT_STAT_EXPIRED 1).setFld F.GLB_BOOT_TIMER_LEFT 0
  else s

/-- Seconds left of the confirm window, as local time passes (R451). -/
def countConfirm (s : State) : State :=
  if s.boot.timer ∧ (s.pwr.now - s.boot.jumped) % 1000000000 = 0 then
    s.setFld F.GLB_BOOT_TIMER_LEFT (600 - (s.pwr.now - s.boot.jumped) / 1000000000)
  else s

/-! Commands (R453, R456, R457) -/

/-- A background command begins its work (R371, R381). -/
def startWork (s : State) (c : TakenX) (w : Work) : State := { s with cmd := { s.cmd with work := s.cmd.work ++ [(c, w)] } }

/-- FW_BEGIN. -/
def fwBegin (s : State) (c : TakenX) : State :=
  let g := s.nv.stage
  if c.payload.length ≠ 32 then s.respond c 3
  else if (g.state = 2 ∨ g.state = 3) ∧ g.digest = c.payload then s.respond c 0 1
  else if 7868416 < c.arg then s.respond c 0x202
  else if g.state = 2 ∨ (g.state = 1 ∧ g.requester ≠ partyOf c) ∨ s.boot.relay.isSome then s.respond c 0x201
  else
    ((s.relayClear).withNv { s.nv.written with stage := ⟨1, c.payload, partyOf c, c.arg, []⟩ }).respond c 0

/-- FW_CHUNK: checked, then programmed. -/
def fwChunk (s : State) (c : TakenX) : State :=
  let g := s.nv.stage
  let n := c.payload.length
  if g.state ≠ 1 ∨ g.requester ≠ partyOf c then s.respond c 0x201
  else if c.arg % 4096 ≠ 0 ∨ n = 0 ∨ 4096 < n then s.respond c 3
  else if g.total < c.arg + n then s.respond c 0x202
  else if n ≠ 4096 ∧ c.arg + n ≠ g.total then s.respond c 3
  else s.startWork c .fwChunk

/-- FW_END. -/
def fwEnd (s : State) (c : TakenX) : State :=
  if s.nv.stage.state ≠ 1 then s.respond c 0xD
  else if s.nv.stage.requester ≠ partyOf c then s.respond c 0x201
  else s.startWork c .fwEnd

/-- The end of FW_END: coverage, transfer digest, COMPLETE, and the relay when AUTO is 1. -/
def fwEnded (s : State) (c : TakenX) : State :=
  let g := s.nv.stage
  if g.state ≠ 1 then s.respond c 0xD
  else if g.blocks.length < ceilDiv g.total 4096 then s.respond c 0x203
  else if sha3 g.bytes ≠ g.digest then s.respond c 0x204
  else
    let s1 := (s.withNv { s.nv.written with stage := { g with state := 2 } }).respond c 0
    if s1.image.relay.auto then s1.relayNext else s1

/-- FW_RELAY. -/
def fwRelay (s : State) (c : TakenX) : State :=
  if s.nv.stage.state ≠ 2 ∧ s.nv.stage.state ≠ 3 then s.respond c 0xD
  else
    let s1 := s.respond c 0
    if s.boot.relay.isSome then
      (List.range 8).foldl (fun a d => if a.relayState d = 3 then a.wr .GLB_FW_RELAY 0 d else a) s1
    else s1.relayRestart.relayNext

/-- The end of REC_INSTALL: the buffer verified and written to the slot, which becomes ACTIVE. -/
def recInstalled (s : State) (c : TakenX) : State :=
  let b := s.boot.buffer.flatMap (·.2)
  let k := c.arg
  if ¬ fwVerified b s.nv.minSvn then s.respond c 0x209
  else
    let v := match s.nv.inState 1 with
      | some a => s.nv.markSlot a 3
      | none => s.nv
    ((s.withNv { (v.setSlot k ⟨1, b⟩).written with fails := 0 }).setFld F.GLB_BOOT_STAT_FAILS 0).respond c 0

/-- REC_CHUNK. -/
def recChunk (s : State) (c : TakenX) : State :=
  let n := c.payload.length
  if c.arg % 4096 ≠ 0 ∨ 4096 < n ∨ 7868416 < c.arg + n then s.respond c 3
  else
    let m := if c.arg = 0 then [] else s.boot.buffer
    ({ s with boot := { s.boot with buffer := insertKey m (c.arg / 4096) c.payload } } : State).respond c 0

/-- Recovery's commands are executed in recovery mode only (R453). -/
def recOnly (s : State) (c : TakenX) (f : State → TakenX → State) : State :=
  if s.recovering then f s c else s.respond c 2

end State

/-- ROM_BOOT (R449): `service` says SERVICE_N was low from MP reset release until 5 s later. -/
def execRomBoot (service : Bool) (s : State) : Host.Outcome State Fault Refusal := .next (s.romBoot service)

/-- BOOT_IMAGE_LOAD (R360). -/
def execBootImageLoad (s : State) : Host.Outcome State Fault Refusal := .next s.loadStored

/-- HEALTH_CONFIRM by firmware (R451). -/
def execHealthConfirm (s : State) : Host.Outcome State Fault Refusal := .next s.healthConfirm

/-- CONFIRM_WRITE_DONE (R451). -/
def execConfirmWriteDone (s : State) : Host.Outcome State Fault Refusal := .next s.confirmDone

/-- CONFIRM_TIMER_EXPIRY (R452). -/
def execConfirmTimerExpiry (s : State) : Host.Outcome State Fault Refusal := .next s.confirmExpired

/-- REC_INFO (R453). -/
def execRecInfo (s : State) : Host.Outcome State Fault Refusal :=
  .next (s.run 0x2C fun a c => a.recOnly c fun t d =>
    t.respond d 0 0 (Machine.slice (Config.directoryCopy t.nv) 0 4096 ++ leBytes 8 (t.rd .GLB_BOOT_STAT)))

/-- REC_CHUNK (R453). -/
def execRecChunk (s : State) : Host.Outcome State Fault Refusal :=
  .next (s.run 0x2D fun a c => a.recOnly c State.recChunk)

/-- REC_INSTALL (R453): its work begins. -/
def execRecInstall (s : State) : Host.Outcome State Fault Refusal :=
  .next (s.run 0x2E fun a c => a.recOnly c fun t d => if 2 ≤ d.arg then t.respond d 3 else t.startWork d .recInstall)

/-- REC_EXIT (R453). -/
def execRecExit (s : State) : Host.Outcome State Fault Refusal :=
  .next (s.run 0x2F fun a c => a.recOnly c fun t d =>
    let u := t.respond d 0
    { u with boot := { u.boot with start := 3 } })

/-- FW_BEGIN (R457). -/
def execFwBegin (s : State) : Host.Outcome State Fault Refusal := .next (s.run 0x20 State.fwBegin)

/-- FW_CHUNK (R457). -/
def execFwChunk (s : State) : Host.Outcome State Fault Refusal := .next (s.run 0x21 State.fwChunk)

/-- FW_END (R457). -/
def execFwEnd (s : State) : Host.Outcome State Fault Refusal := .next (s.run 0x22 State.fwEnd)

/-- FW_RELAY (R460). -/
def execFwRelay (s : State) : Host.Outcome State Fault Refusal := .next (s.run 0x23 State.fwRelay)

/-- FW_DISCARD (R457): the relay stops at once, the staging is emptied in the background. -/
def execFwDiscard (s : State) : Host.Outcome State Fault Refusal :=
  .next (s.run 0x24 fun a c => a.relayStop.startWork c .fwDiscard)

/-- FW_SVN_COMMIT (R448, R457). -/
def execFwSvnCommit (s : State) : Host.Outcome State Fault Refusal :=
  .next (s.run 0x25 fun a c =>
    if a.flag F.GLB_BOOT_STAT_CONFIRMED then a.startWork c .svnCommit else a.respond c 0x205)

/-- SETTINGS_READ (R456). -/
def execSettingsRead (s : State) : Host.Outcome State Fault Refusal :=
  .next (s.run 0x26 fun a c => a.respond c 0 0 (a.nv.settings.getD []))

/-- SETTINGS_WRITE (R454, R457). -/
def execSettingsWrite (s : State) : Host.Outcome State Fault Refusal :=
  .next (s.run 0x27 fun a c =>
    if ¬ State.settingsWf c.payload then a.respond c 3
    else if State.setFormat c.payload ≠ a.boot.settingsFmt then a.respond c 0x206
    else a.startWork c .settings)

/-- RELAY_RESPONSE (R460). -/
def execRelayResponse (payload : List (BitVec 8)) (s : State) : Host.Outcome State Fault Refusal := .next (s.relayAnswer payload)

/-- RELAY_RETRY (R460). -/
def execRelayRetry (s : State) : Host.Outcome State Fault Refusal := .next s.relayRetry

end Sys2Proof.Machine
end

