-- ==== Sys2Proof/Machine/Commands.lean ====
section
/-! DEFINITION. The host queues (R364 to R368), the command input (R375), forwarding (R379, R380) and NOP. -/

namespace Sys2Proof.Machine

namespace State

/-- MGT_SQq_TAIL written: the slots before it hold packets to be read (R366). Slots the write makes available carry the
bytes the Y5 reads from the ring; a slot not given reads as zeros. -/
def writeTail (s : State) (q tail : Nat) (slots : List Bytes) : State :=
  let size := 2 ^ s.fld F.MGT_SQ_CFG_LOG2 q
  let new := (tail % size + size - s.fld F.MGT_SQ_TAIL_TAIL q % size) % size
  let s1 := s.setFld F.MGT_SQ_TAIL_TAIL tail q
  if s.flag F.MGT_QP_CTRL_EN q then
    let x := s.queue q
    s1.setQueue q { x with slots := x.slots ++ (List.range new).map fun i => (s.now, Machine.slice (slots.getD i []) 0 64) }
  else s1

/-- MGT_QPq_CTRL written (R366, R367): EN from 0 to 1 starts the rings again. -/
def writeQp (s : State) (q v : Nat) : State :=
  let was := s.flag F.MGT_QP_CTRL_EN q
  let s1 := s.wr .MGT_QP_CTRL (bitsOf v 0 1 + 2 * min (bitsOf v 1 4) 7 + 32 * bitsOf v 5 1) q
  if bitOf v 0 && !was then
    let s2 := (((s1.setFld F.MGT_SQ_HEAD_HEAD (s.fld F.MGT_SQ_TAIL_TAIL q) q).setFld F.MGT_CQ_TAIL_TAIL 0 q).setFld
      F.MGT_CQ_HEAD_HEAD 0 q).setFld F.MGT_QP_STAT_STOPPED 0 q
    s2.setQueue q { gen := (s.queue q).gen + 1 }
  else s1

/-- The host-port registers that PERST_N resets (R368), by queue pair. -/
def hostRegs : List RegName :=
  [.MGT_SQ_BASE, .MGT_SQ_CFG, .MGT_SQ_TAIL, .MGT_SQ_HEAD, .MGT_CQ_BASE, .MGT_CQ_CFG, .MGT_CQ_HEAD, .MGT_CQ_TAIL, .MGT_QP_CTRL,
   .MGT_QP_STAT]

/-- PERST_N, or the host link leaving L0 (R368). -/
def perst (s : State) : State :=
  let s1 := ((s.setFld F.MGT_HP_STAT_LINK_UP 0).setFld F.MGT_HP_STAT_WIDTH 0).setFld F.MGT_HP_STAT_SPEED 0
  (List.range 8).foldl (fun a q => (hostRegs.foldl (fun b r => b.resetReg r q) a).setQueue q { gen := (a.queue q).gen + 1 }) s1

/-- OUTSTANDING is the number of forwarding entries. -/
def showForwards (s : State) : State := s.setFld F.MGT_FWD_STAT_OUTSTANDING s.cmd.forwards.length

/-- The forwarding table. -/
def setForwards (s : State) (m : List (Nat × ForwardX)) : State :=
  ({ s with cmd := { s.cmd with forwards := m } } : State).showForwards

/-- A command for another chip of the board is sent on (R379, R380). -/
def forward (s : State) (c : TakenX) : State :=
  let chip := pkChip c.bytes
  let used := s.cmd.forwards.map (·.1)
  if ¬ s.flag F.MGT_BOARD_VALID chip then s.respond c 0xB
  else match (List.range 1024).find? fun i => !used.contains i with
    | none => s.respond c 9
    | some i =>
      let viaHost := match c.path with
        | .host _ _ => c.role == .host
        | .frame _ _ => false
      let flags := putBits (pkFlags c.bytes) 2 2 (1 + 2 * b2n viaHost)
      let b := c.bytes.take 2 ++ leBytes 2 flags ++ Machine.slice c.bytes 4 2 ++ leBytes 2 (i + 1) ++ c.bytes.drop 8
      (s.setForwards (insertKey s.cmd.forwards i ⟨pkFwd c.bytes, c, s.now⟩)).originate 0
        { typ := Frame.CMD, cls := 6, part := c.part, dest := s.fld F.MGT_BOARD_COORD chip * 32, payload := b }

/-- A target's response: FWD restored, FORWARDED and VIA_HOST clear, delivered; a late one is discarded (R379). -/
def takeForwarded (s : State) (b : Bytes) : State :=
  match lookupKey s.cmd.forwards (pkFwd b - 1), decide (pkFwd b = 0) with
  | some e, false =>
    let r := b.take 2 ++ leBytes 2 (putBits (pkFlags b) 2 2 0) ++ Machine.slice b 4 2 ++ leBytes 2 e.fwd ++ b.drop 8
    (s.setForwards (eraseKey s.cmd.forwards (pkFwd b - 1))).deliver e.cmd r
  | _, _ => s.bump F.MGT_FWD_STAT_LATE

end State

/-- SQ_TAIL_WRITE (R366). -/
def execSqTailWrite (q : Nat) (tail : BitVec 16) (slots : List (List (BitVec 8))) (s : State) :
    Host.Outcome State Fault Refusal :=
  .next (s.writeTail q tail.toNat slots)

/-- CQ_HEAD_WRITE (R367). -/
def execCqHeadWrite (q : Nat) (head : BitVec 16) (s : State) : Host.Outcome State Fault Refusal :=
  .next (s.setFld F.MGT_CQ_HEAD_HEAD head.toNat q)

/-- QP_EN_WRITE (R366). -/
def execQpEnWrite (q : Nat) (value : BitVec 32) (s : State) : Host.Outcome State Fault Refusal :=
  .next (s.writeQp q value.toNat)

/-- COMMAND_TAKE (R381). -/
def execCommandTake (s : State) : Host.Outcome State Fault Refusal := .next s.takeNext

/-- CMD_RX (R375). -/
def execCmdRx (x src : Nat) (payload : List (BitVec 8)) (s : State) : Host.Outcome State Fault Refusal :=
  .next (s.commitCmd x src payload none)

/-- NOP (R371). -/
def execNop (s : State) : Host.Outcome State Fault Refusal := .next (s.run 0x01 fun a c => a.respond c 0)

/-- FORWARD_COMMAND (R379): the oldest taken command, when it is for another chip. -/
def execForwardCommand (s : State) : Host.Outcome State Fault Refusal :=
  .next (match s.cmd.taken with
    | c :: rest =>
      if pkChip c.bytes = s.ownChip then s else ({ s with cmd := { s.cmd with taken := rest } } : State).forward c
    | [] => s)

/-- FWD_RESPONSE (R379). -/
def execFwdResponse (payload : List (BitVec 8)) (s : State) : Host.Outcome State Fault Refusal :=
  .next (s.takeForwarded payload)

/-- FWD_TIMEOUT (R379). -/
def execFwdTimeout (entry : Nat) (s : State) : Host.Outcome State Fault Refusal :=
  .next (match lookupKey s.cmd.forwards entry with
    | some e =>
      if e.sentAt + s.fld F.MGT_FWD_CFG_TMO * 1000000 ≤ s.now then (s.setForwards (eraseKey s.cmd.forwards entry)).respond e.cmd 0xA
      else s
    | none => s)

/-- PERST (R368). -/
def execPerst (s : State) : Host.Outcome State Fault Refusal := .next s.perst

/-- HOST_LINK_UP (R363). -/
def execHostLinkUp (width : BitVec 4) (speed : BitVec 3) (s : State) : Host.Outcome State Fault Refusal :=
  .next (((s.setFld F.MGT_HP_STAT_LINK_UP 1).setFld F.MGT_HP_STAT_WIDTH width.toNat).setFld F.MGT_HP_STAT_SPEED speed.toNat)

end Sys2Proof.Machine
end

