-- ==== Sys2Proof/Machine/Training.lean ====
section
/-! DEFINITION. Lane lock, laser polls, hellos received, test loops and LEDs (R292, R302, R307 to R325). -/

namespace Sys2Proof.Machine

namespace State

/-- The port of a lane of a slice, as (local port, lane index). -/
def portOfLane (s : State) (n l : Nat) : Option (Nat × Nat) :=
  (List.range 16).findSome? fun j =>
    if s.flag F.SLC_PORT_CFG_VALID n j then
      let i := (s.portLanes n j).findIdx (· == l)
      if i < s.portWidth n j then some (j, i) else none
    else none

/-- The logical port at a place. -/
def lport (s : State) (n j : Nat) : Nat := s.fld F.SLC_PORT_CFG_LPORT n j

/-- A lane goes to HUNT (R302). -/
def unlock (s : State) (n l : Nat) : State :=
  let s1 := if s.fld F.SLC_LANE_STAT_LSTATE n l = 2 then s.bump F.SLC_LANE_STAT_UNLOCKS 1 n l else s
  ((s1.setFld F.SLC_LANE_STAT_LSTATE 0 n l).setFld F.SLC_LANE_STAT_WIN_INVALID 0 n l).setRxLane (n * 32 + l) {}

/-- A laser output's readiness reaches its four lanes (R290, R292). -/
def setLight (s : State) (n k : Nat) (ready was : Bool) : State :=
  (List.range 4).foldl (fun a i =>
    let l := 4 * k + i
    let b := a.setFld F.SLC_LANE_STAT_LIGHT (b2n ready) n l
    if ready then b
    else
      let c := if was then b.setFld F.SLC_LANE_STAT_BAD 1 n l else b
      if c.fld F.SLC_LANE_STAT_LSTATE n l = 0 then c else c.unlock n l) s

/-- The outputs of a module found ready, over those of the last poll (R292). -/
def setReady (s : State) (n ready : Nat) : State :=
  let was := s.fld F.SLC_LSR_STAT_READY n
  let s1 := (List.range 8).foldl (fun a k => a.setLight n k (bitOf ready k) (bitOf was k)) s
  let s2 := s1.setFld F.SLC_LSR_STAT_READY ready n
  let s3 := if (List.range 8).any fun k => bitOf was k && !bitOf ready k then s2.report 0x2D n else s2
  (s3.slicePorts n).foldl (fun a p => a.lanesChanged n p.2 p.1) s3

/-- A poll of the laser module of a slice (R291, R292). CMIS codes ModuleReady 3 (log entry 19). -/
def laserPoll (s : State) (n : Nat) (p : LaserPoll) : State :=
  if p.ok then
    let s1 : State := { s with i2cFails := writeKey 0 s.i2cFails n 0 }
    let s2 := ((s1.setFld F.SLC_LSR_STAT_PRESENT (b2n p.present) n).setFld F.SLC_LSR_STAT_MSTATE p.mstate.toNat n).setFld
      F.SLC_LSR_STAT_ALARM (b2n (p.alarms != 0)) n
    let on := p.present && p.mstate == 3 && s.flag F.SLC_LSR_CTRL_EN n
    let s3 := if p.present then s2 else s2.setFld F.SLC_LSR_STAT_I2C_ERR 1 n
    s3.setReady n (if on then
      Nat.land (Nat.land (s.fld F.SLC_LSR_CTRL_OUT_EN n) p.powerOk.toNat) (255 - p.alarms.toNat) else 0)
  else
    let f := readKey 0 s.i2cFails n + 1
    let s1 : State := { s with i2cFails := writeKey 0 s.i2cFails n f }
    if f < 3 then s1 else ((s1.setFld F.SLC_LSR_STAT_I2C_ERR 1 n).setFld F.SLC_LSR_STAT_PRESENT 0 n).setReady n 0

/-- Whether a header is valid (R295). -/
def headerOk (h : Nat) : Bool :=
  (h / 16 == 0xE4B1 || h / 16 == 0x1B4E) && bitOf h 0 == ((bitOf h 1 != bitOf h 2) != bitOf h 3)

/-- Lane lock on one header (R302). -/
def lockLane (s : State) (n l : Nat) (w : Codeword) : State :=
  let g := n * 32 + l
  let x := s.rxLane g
  let ok := headerOk w.header.toNat
  let am := ok && w.header.toNat / 16 == 0x1B4E
  let s1 := if ok then s.setFld F.SLC_LANE_STAT_LANE_RX (bitsOf w.header.toNat 1 3) n l else s
  match s.fld F.SLC_LANE_STAT_LSTATE n l with
  | 0 => if ok then (s1.setFld F.SLC_LANE_STAT_LSTATE 1 n l).setRxLane g { trial := 1, offset := w.offset } else s1
  | 1 =>
    if w.offset ≠ x.offset then s1
    else if !ok then s1.unlock n l
    else if x.trial + 1 < 16 then s1.setRxLane g { x with trial := x.trial + 1 }
    else ((s1.setFld F.SLC_LANE_STAT_LSTATE 2 n l).setFld F.SLC_LANE_STAT_WIN_INVALID 0 n l).setRxLane g
      { x with trial := 0, window := [], am := if am then some s.count else none }
  | _ =>
    if w.offset ≠ x.offset then s1
    else
      let win := (x.window ++ [!ok]).drop (x.window.length - 63)
      let bad := win.countP id
      if 8 ≤ bad then s1.unlock n l
      else (s1.setFld F.SLC_LANE_STAT_WIN_INVALID bad n l).setRxLane g
        { x with window := win, am := if am then some s.count else x.am }

/-- FEC counts of a port, and the retrain that too many uncorrectable codewords of one ms cause (R300, R314). -/
def countCodeword (s : State) (n j x corrected : Nat) (bad : Bool) : State :=
  let s1 := (s.wrap F.SLC_PORT_CW_COUNT 1 n j).wrap F.SLC_PORT_CORR_COUNT (if bad then 0 else corrected) n j
  if bad then
    let h := s1.helloOf x
    let w := s.now / 1000000
    let u := (if h.unc.1 = w then h.unc.2 else 0) + 1
    let s2 := (s1.wrap F.SLC_PORT_UNCORR_COUNT 1 n j).setHello x { h with unc := (w, u) }
    if s.fld F.SLC_PORT_TMR_UNC_LIM n j < u then s2.startRetrain n j x else s2
  else s1

/-- The test loops (R318 to R320): the checker's result, and the looping end's count of invalid headers. -/
def testCodeword (s : State) (n j x : Nat) (w : Codeword) : State :=
  if s.flag F.SLC_PORT_TEST_LOOPING n j then
    let h := s.helloOf x
    let r := if headerOk w.header.toNat then 0 else h.badRun + 1
    if r < 64 then s.setHello x { h with badRun := r }
    else ((s.setFld F.SLC_PORT_TEST_LOOPING 0 n j).setFld F.SLC_PORT_TEST_MODE 0 n j).portDown n j x 7
  else
    let s1 := (s.setFld F.SLC_PORT_TEST_PRBS_LOCK (b2n w.sync) n j).bump F.SLC_PORT_TEST_ERRORS (if w.sync then w.errors else 0) n j
    if w.sync then s1.setHello x { s1.helloOf x with loopReq := false } else s1

/-- A codeword on lane l of slice n (R296, R297, R300, R302). The framer's finds in the stream are FRAME_RX's (log entry 99). -/
def codeword (s : State) (n l : Nat) (w : Codeword) : State :=
  match s.portOfLane n l with
  | none => s
  | some (j, _) =>
    let x := s.lport n j
    if s.portState x < 2 ∨ ¬ s.flag F.SLC_LANE_STAT_LIGHT n l then s
    else
      let m := s.injected 6 x
      let s0 := s.injectSpent 6 x
      let s1 := s0.countCodeword n j x (w.corrected + b2n (m == 1)) (w.bad || m == 2)
      let s2 := s1.lockLane n l w
      let am := headerOk w.header.toNat && w.header.toNat / 16 == 0x1B4E
      let s3 := if s2.laneLocked n l && am then s2.amSeen n j x else s2
      if s3.portState x = 8 then
        (if s3.flag F.SLC_PORT_TEST_LOOPING n j then s3.loopCodeword n j x l w.header.toNat am w.payload else s3).testCodeword n j x w
      else (s3.receivePayload n j x l am w.payload (w.bad || m == 2)).lanesChanged n j x

/-- The first identity check of R311 that a hello fails; 0 when it passes all. -/
def helloFails (s : State) (n j x : Nat) (p : Bytes) : Nat :=
  let fab := s.fabric x
  let role := leAt p 1 1 % 4
  let addr := leAt p 4 3 % 2 ^ 17
  let chk := s.fld F.SLC_PORT_CFG_EP_CHECK n j
  let ser := leAt p 40 8
  let want := s.fld F.SLC_PORT_EPID_EPID n j
  if leAt p 2 2 / 256 ≠ s.ownWalha n j / 256 then 1
  else if role ≠ (if fab then 0 else 2) then 2
  else if fab ∧ addr / 32 = s.coord then 3
  else if fab ∧ addr ≠ s.fld F.SLC_PORT_CFG_PEER_ADDR n j then 4
  else if fab ∧ leAt p 7 1 ≠ s.fld F.SLC_PORT_CFG_PEER_PORT n j then 5
  else if ¬ fab ∧ (chk = 1 ∧ ser / 2 ^ 48 ≠ want / 2 ^ 48 ∨ chk = 2 ∧ ser ≠ want) then 6
  else if (s.portLanes n j).zipIdx.any fun l =>
      s.fld F.SLC_LANE_STAT_LSTATE n l.1 == 2 && s.fld F.SLC_LANE_STAT_LANE_RX n l.1 != l.2 then 7
  else if leAt p 8 1 ≠ s.portWidth n j then 8
  else 0

/-- The partner's fields of a valid hello, as the registers show them (R307). -/
def showPeer (s : State) (n j : Nat) (p : Bytes) : State :=
  let v0 := leAt p 4 3 % 2 ^ 17 + leAt p 7 1 * 2 ^ 17 + leAt p 1 1 % 4 * 2 ^ 25 + leAt p 2 2 * 2 ^ 32 + leAt p 9 1 * 2 ^ 48
  let s1 := (((s.wr .SLC_PORT_PEER0 v0 n j).wr .SLC_PORT_PEER1 (leAt p 24 8) n j).wr .SLC_PORT_PEER2 (leAt p 32 8) n j).wr
    .SLC_PORT_PEER3 (leAt p 40 8) n j
  let s2 := (List.range 4).foldl (fun a k => a.wr .SLC_PORT_PDIG (leAt p (48 + 8 * k) 8) n j k) s1
  s2.setFld F.SLC_PORT_STAT_PEER_QUARANTINED (b2n (bitOf (leAt p 11 1) 6)) n j

/-- The differences of R313, raised once per occurrence. -/
def showDiffs (s : State) (n j x : Nat) (p : Bytes) : State :=
  let ds := [(F.SLC_PORT_STAT_FW_DIFF, leAt p 32 8 != s.rd .GLB_FW_VERSION),
             (F.SLC_PORT_STAT_MINOR_DIFF, leAt p 2 2 % 256 != s.ownWalha n j % 256),
             (F.SLC_PORT_STAT_DIGEST_DIFF, Machine.slice p 48 32 != s.devDigest),
             (F.SLC_PORT_STAT_REPLAY_DIFF, s.fabric x && leAt p 24 8 != s.rd .GLB_REPLAY_CLASS)]
  let fresh := ds.any fun d => d.2 && !s.flag d.1 n j
  let s1 := ds.foldl (fun a d => a.setFld d.1 (b2n d.2) n j) s
  if fresh then s1.raiseLink 0x2B x else s1

/-- RTT from a hello that echoes one of the own (R308), rounded up to a whole tick. -/
def showRtt (s : State) (n j x : Nat) (p : Bytes) (time : Nat) : State :=
  let h := s.helloOf x
  match h.sent.find? fun e => e.1 == leAt p 16 4 with
  | some e =>
    (s.setHello x { h with sent := h.sent.dropWhile fun d => d.1 != e.1 }).setFld F.SLC_PORT_RTT_RTT
      (min 0xFFFF (ceilDiv (time - e.2 - 16 * leAt p 20 4) 16)) n j
  | none => s

/-- The proposal a hello carries (R316, R317): the prevailing end recomputes its own from the partner's RX_OK, the other
adopts what it can receive (log entry 20). -/
def takeProposal (s : State) (n j x : Nat) (p : Bytes) : State :=
  let fl := leAt p 11 1
  let h := s.helloOf x
  if bitOf fl 2 then
    let m := leAt p 10 1
    let s1 := s.setHello x { h with peerProp := some m }
    let s2 := if s.prevails n j x then s1.propose n j x
      else if Nat.land m (s.rxOk n j) = m then s1.setHello x { s1.helloOf x with propOn := true, prop := m }
      else s1.propose n j x
    if bitOf fl 3 && (s2.helloOf x).prop == m then s2.setHello x { s2.helloOf x with rxDue := some m } else s2
  else s

/-- A far-end loop asked for by the partner (R319). -/
def takeLoop (s : State) (n j x : Nat) (p : Bytes) : State :=
  if bitOf (leAt p 11 1) 5 ∧ (s.portState x = 3 ∨ s.portState x = 4) then
    if s.flag F.SLC_PORT_CFG_FAR_LOOP_OK n j ∧ s.slotsOf x = [] then
      ((s.portDown n j x 8).setFld F.SLC_PORT_TEST_MODE 3 n j).setFld F.SLC_PORT_TEST_LOOPING 1 n j
    else s.setHello x { s.helloOf x with refuses := true }
  else s

/-- A valid hello received on a port at a time in 1/16 tk (R307 to R319). -/
def helloRx (s : State) (x : Nat) (p : Bytes) (time : Nat) : State :=
  s.onPort x fun n j =>
    if p.length ≠ 96 ∨ leAt p 0 1 ≠ 1 ∨ ¬ [3, 4, 5, 6].contains (s.portState x) then s
    else
      let fl := leAt p 11 1
      let h := s.helloOf x
      let low := !s.flag F.SLC_PORT_CFG_FEC_STD n j && !bitOf fl 4
      let h1 : HelloX := { h with
        got := some (leAt p 12 4, time), peerSeen := true, heardAt := s.now,
        fecAck := h.fecAck || (low && bitOf fl 0 && s.portState x == 3),
        fecRxDue := h.fecRxDue || (low && bitOf fl 7 && !h.fecRxLow && s.portState x == 3) }
      let s1 := ((s.setHello x h1).showPeer n j p).showRtt n j x p time
      let bad := s1.helloFails n j x p
      if bad ≠ 0 then (if s1.portState x = 6 then s1 else s1.quarantine n j x bad)
      else if s1.portState x = 6 then s1.showDiffs n j x p
      else
        let s2 := s1.showDiffs n j x p
        let h2 := s2.helloOf x
        let s3 := s2.setHello x { h2 with
          peerSaw := h2.peerSaw || bitOf fl 0, peerReq := bitOf fl 1, sawAt := if h2.peerSaw then h2.sawAt else s.now }
        let s4 := if bitOf fl 1 && !h.peerReq then s3.startRetrain n j x else s3
        let s5 := if s4.portState x = 4 then s4.takeProposal n j x p else s4
        (s5.takeLoop n j x p).tryUp n j x

/-- TEST.MODE written (R305, R318, R319). -/
def writeTest (s : State) (n j mode : Nat) : State :=
  let x := s.lport n j
  let s1 := ((((s.setFld F.SLC_PORT_TEST_MODE mode n j).setFld F.SLC_PORT_TEST_ERRORS 0 n j).setFld F.SLC_PORT_TEST_PRBS_LOCK 0 n
    j).setFld F.SLC_PORT_TEST_LOOPING 0 n j)
  if s.fld F.SLC_PORT_STAT_STATE n j = 0 then s1
  else if mode = 0 then (if s.fld F.SLC_PORT_STAT_STATE n j = 8 then s1.portDown n j x 7 else s1)
  else
    let s2 := s1.portDown n j x 8
    s2.setHello x { s2.helloOf x with loopReq := mode == 3 }

/-- ERR_N as driven (R476). -/
def errN (s : State) : Bool := s.flag F.FC_ERR_ASSERTED || s.flag F.PWR_STATUS_ERR_DRIVE

/-- Blinking at a rate in Hz, counted in LED frames of 10 ms at a duty cycle of 50 % (R324). -/
def blink (frame hz : Nat) : Bool := frame * 2 * hz / 100 % 2 == 0

/-- AMBER and GREEN of a logical port (R324). -/
def portLeds (s : State) (x : Nat) : Bool × Bool :=
  match s.portAt x with
  | none => (false, false)
  | some (n, j) =>
    let k := s.svc.frames
    let st := s.portState x
    if s.svc.locate || s.flag F.SLC_PORT_CTRL_LOCATE n j then (blink k 1, !blink k 1)
    else if st = 8 then (blink k 8, false)
    else if st = 6 then (blink k 2, false)
    else if st = 4 then (s.flag F.SLC_PORT_STAT_REDUCED n j, true)
    else if st = 1 ∨ st = 2 ∨ st = 3 ∨ st = 5 then (false, blink k 2)
    else (false, false)

/-- Bits packed into bytes, the first bit in bit 7. -/
def packBits : (bytes : Nat) → List Bool → Bytes
  | 0, _ => []
  | k + 1, l => BitVec.ofNat 8 ((l.take 8).foldl (fun a b => 2 * a + b2n b) 0) :: packBits k (l.drop 8)

/-- The 528 bits of an LED frame in the order sent (R323). READY is GLB_STATUS.MP_READY (log entry 21). -/
def ledFrame (s : State) : Bytes :=
  let dev := List.replicate 12 false ++
    [s.flag F.GLB_STATUS_RECOVERY, s.svc.locate, s.errN, s.flag F.GLB_STATUS_MP_READY]
  packBits 66 (dev ++ (List.range 256).flatMap fun i =>
    let l := s.portLeds (255 - i)
    [l.1, l.2])

/-- An LED frame is sent; while the MP is in reset the last one is repeated (R323, R325). -/
def sendLeds (s : State) : State :=
  if s.flag F.GLB_STATUS_MP_READY ∨ s.flag F.GLB_STATUS_RECOVERY then
    let b := s.ledFrame
    ({ s with svc := { s.svc with led := b, frames := s.svc.frames + 1 } } : State).emit (.led b)
  else s.emit (.led s.svc.led)

end State

end Sys2Proof.Machine
end

