-- ==== Sys2Proof/Machine/Lanes.lean ====
section
/-! DEFINITION. The commands of lanes, lasers, bring-up, test loops and LEDs (chapter 12; R475). -/

namespace Sys2Proof.Machine

/-- LASER_POLL of a slice's module (R292). -/
def execLaserPoll (n : Nat) (p : LaserPoll) (s : State) : Host.Outcome State Fault Refusal := .next (s.laserPoll n p)

/-- CODEWORD_RX on lane l (R300, R302). -/
def execCodewordRx (l : Nat) (w : Codeword) (s : State) : Host.Outcome State Fault Refusal :=
  .next (s.codeword (l / 32) (l % 32) w)

/-- ALIGN_TIMEOUT (R305): with at least one lane locked the port goes to HELLO, otherwise to DOWN_HOLD. -/
def execAlignTimeout (x : Nat) (s : State) : Host.Outcome State Fault Refusal :=
  .next (s.onPort x fun n j =>
    if s.portState x = 2 ∧ s.heldFor x (s.fld F.SLC_PORT_TMR_ALIGN_TMO n j * 1000000) then
      (if State.lowestLanes (s.rxOk n j) ≠ 0 then (s.takeLanes n j x).enterState n j x 3 else s.portDown n j x 7)
    else s)

/-- HELLO_TIMEOUT: in HELLO, no valid hello within 1 ms of the entry or of the last one (R301, R305; log entry 100). -/
def execHelloTimeout (x : Nat) (s : State) : Host.Outcome State Fault Refusal :=
  .next (s.onPort x fun n j =>
    if s.portState x = 3 ∧ s.heldFor x 1000000 ∧ (¬ (s.helloOf x).peerSeen ∨ (s.helloOf x).heardAt + 1000000 ≤ s.now) then
      s.portDown n j x 7
    else s)

/-- KEEPALIVE_LOSS: four keepalive hellos missed in UP (R305). -/
def execKeepaliveLoss (x : Nat) (s : State) : Host.Outcome State Fault Refusal :=
  .next (s.onPort x fun n j =>
    if s.portState x = 4 ∧ s.heldFor x 400000 ∧ (s.helloOf x).heardAt + 400000 ≤ s.now then s.portDown n j x 7 else s)

/-- RETRAIN_TIMEOUT (R305). -/
def execRetrainTimeout (x : Nat) (s : State) : Host.Outcome State Fault Refusal :=
  .next (s.onPort x fun n j =>
    if s.portState x = 5 ∧ s.heldFor x (s.fld F.SLC_PORT_TMR_RETRAIN_TMO n j * 100000) then s.portDown n j x 7 else s)

/-- HOLD_EXPIRY: DOWN_HOLD ends, unless the port is contained or the device is safe (R305, R410, R412). -/
def execHoldExpiry (x : Nat) (s : State) : Host.Outcome State Fault Refusal :=
  .next (s.onPort x fun n j =>
    if s.portState x = 7 ∧ ¬ s.portHeld x ∧ s.heldFor x (s.fld F.SLC_PORT_TMR_HOLD n j * 1000000) then s.enterAlign n j x else s)

/-- HELLO_SEND: the hello interval expires or a flag changes (R307); in TEST while a far-end loop is asked for (R319). -/
def execHelloSend (x : Nat) (s : State) : Host.Outcome State Fault Refusal :=
  .next (if [3, 4, 5, 6].contains (s.portState x) || (s.portState x == 8 && (s.helloOf x).loopReq) then
    s.sendControl x { typ := Frame.HELLO, payload := List.replicate 96 0 }
  else s)

/-- HELLO_RX: a hello whose frame passed its checks, and its time of receipt at the connector in 1/16 tk (R311). -/
def execHelloRx (x : Nat) (payload : List (BitVec 8)) (time : Nat) (s : State) : Host.Outcome State Fault Refusal :=
  .next (s.helloRx x payload time)

/-- PORT_EN_WRITE (R305). -/
def execPortEnWrite (n j : Nat) (en : Bool) (s : State) : Host.Outcome State Fault Refusal :=
  .next ((s.setFld F.SLC_PORT_CTRL_EN (b2n en) n j).enablePort n j (s.lport n j))

/-- A write of SLCn_PORTj_CTRL.RETRAIN (R305, R314). -/
def State.retrainPort (s : State) (n j : Nat) : State :=
  if s.fld F.SLC_PORT_STAT_STATE n j = 6 then s.portDown n j (s.lport n j) 7
  else if s.fld F.SLC_PORT_STAT_STATE n j = 4 then s.startRetrain n j (s.lport n j) else s

/-- PORT_RETRAIN (R305, R314). -/
def execPortRetrain (n j : Nat) (s : State) : Host.Outcome State Fault Refusal := .next (s.retrainPort n j)

/-- PORT_LOCATE (R324). -/
def execPortLocate (n j : Nat) (on : Bool) (s : State) : Host.Outcome State Fault Refusal :=
  .next (s.setFld F.SLC_PORT_CTRL_LOCATE (b2n on) n j)

/-- PORT_TEST_WRITE (R318). -/
def execPortTestWrite (n j mode : Nat) (s : State) : Host.Outcome State Fault Refusal := .next (s.writeTest n j mode)

/-- LOOP_REFUSED: a far-end loop was not accepted within 1 ms (R319). -/
def execLoopRefused (x : Nat) (s : State) : Host.Outcome State Fault Refusal :=
  .next (s.onPort x fun n j =>
    if s.portState x = 8 ∧ (s.helloOf x).loopReq ∧ s.heldFor x 1000000 then
      (s.setFld F.SLC_PORT_STAT_LOOP_REFUSED 1 n j).setHello x { s.helloOf x with loopReq := false }
    else s)

/-- FREQ_WINDOW: the partner's frequency offset over 1 ms, in ppb (R321, R322). -/
def execFreqWindow (x : Nat) (ppb : BitVec 24) (s : State) : Host.Outcome State Fault Refusal :=
  .next (s.onPort x fun n j =>
    if s.fabric x then
      let s1 := s.setFld F.SLC_PORT_FREQ_OFFSET ppb.toNat n j
      if ¬ s.flag F.SLC_LNK_CFG_RACK_ISOLATED n ∧ 100 < ppb.toInt.natAbs then s1.report 0x2E x else s1
    else s)

/-- LSR_CTRL_WRITE (R291). -/
def execLsrCtrlWrite (n : Nat) (en : Bool) (outEn : BitVec 8) (s : State) : Host.Outcome State Fault Refusal :=
  .next ((s.setFld F.SLC_LSR_CTRL_EN (b2n en) n).setFld F.SLC_LSR_CTRL_OUT_EN outEn.toNat n)

/-- LED_FRAME (R323). -/
def execLedFrame (s : State) : Host.Outcome State Fault Refusal := .next s.sendLeds

/-- Whether the boot ROM times SERVICE_N: from a reset's release until it goes on (R449, R475). -/
def State.romTiming (s : State) : Bool := s.boot.start == 1 || s.boot.start == 2

/-- SERVICE_PRESS: a debounced press of a length in ms ends (R475). -/
def execServicePress (ms : Nat) (s : State) : Host.Outcome State Fault Refusal :=
  .next (if ms < 5000 ∧ ¬ s.romTiming then { s with svc := { s.svc with locate := true, pressedAt := s.now } } else s)

/-- LOCATE_EXPIRY: 60 s after the press (R324). -/
def execLocateExpiry (s : State) : Host.Outcome State Fault Refusal :=
  .next (if s.svc.pressedAt + 60000000000 ≤ s.now then { s with svc := { s.svc with locate := false } } else s)

end Sys2Proof.Machine
end

