-- ==== Sys2Proof/Machine/Links.lean ====
section
/-! DEFINITION. The commands of link-level retry and credits (R334, R338, R339). -/

namespace Sys2Proof.Machine

/-- ACK_RX: an ACK frame, or any header's ACKSEQ, arrives on a port (R338). -/
def execAckRx (x : Nat) (ackseq : BitVec 16) (s : State) : Host.Outcome State Fault Refusal := .next (s.ackTo x ackseq.toNat)

/-- ACK_SEND: nothing was sent for ACK_INT ticks while an accepted frame is not acknowledged (R338). -/
def execAckSend (x : Nat) (s : State) : Host.Outcome State Fault Refusal :=
  .next (s.onPort x fun n j =>
    if (s.port x).ackOwed ∧ (s.port x).sentAt + s.fld F.SLC_WLK_CFG_ACK_INT n j ≤ s.now then s.sendControl x { typ := Frame.ACK }
    else s)

/-- NACK_RX: a NACK frame or a header with NACK set, with its ACKSEQ (R339). NACK.RX counts the frames. -/
def execNackRx (x : Nat) (ackseq : BitVec 16) (frame : Bool) (s : State) : Host.Outcome State Fault Refusal :=
  .next (s.onPort x fun n j =>
    (if frame then s.bump F.SLC_WLK_NACK_RX 1 n j else s).nackTo x ackseq.toNat)

/-- RETRY_TIMEOUT: no ACKSEQ advance for RTT + 2 × t_frame + 64 tk (R339). -/
def execRetryTimeout (x : Nat) (s : State) : Host.Outcome State Fault Refusal :=
  .next (s.onPort x fun n j =>
    if (s.port x).retx = [] ∧ (s.port x).ackAt + s.fld F.SLC_PORT_RTT_RTT n j + 2 * s.tFrame x + 64 ≤ s.now then s.retransmit x else s)

/-- RETRY_EPISODE_EXPIRY: an episode has lasted longer than T_retry (R314, R339). -/
def execRetryEpisodeExpiry (x : Nat) (s : State) : Host.Outcome State Fault Refusal :=
  .next (s.onPort x fun n j =>
    if s.flag F.SLC_WLK_STAT_EPISODE n j ∧ s.tRetry n j x < s.now - (s.port x).episodeAt then s.startRetrain n j x else s)

/-- CREDIT_RX: a CREDIT payload whose frame passed its CRC (R334). -/
def execCreditRx (x : Nat) (payload : List (BitVec 8)) (s : State) : Host.Outcome State Fault Refusal :=
  .next (s.takeCredits x payload)

/-- CREDIT_SEND: after a change, or every 10 µs with every lossless entry (R334). -/
def execCreditSend (x : Nat) (all : Bool) (s : State) : Host.Outcome State Fault Refusal :=
  .next (if s.portUp x && (all || (s.port x).changed != []) then s.sendCredits x all else s)

end Sys2Proof.Machine
end

