-- ==== Sys2Proof/Machine/PortRows.lean ====
section
/-! DEFINITION. The commands of queues, shapers and slots (chapter 11; R157 to R163). -/

namespace Sys2Proof.Machine

/-- FRAME_TX_START (R275). -/
def execFrameTxStart (x : Nat) (s : State) : Host.Outcome State Fault Refusal := .next (s.txStart x)

/-- FRAME_TX_END (R288). -/
def execFrameTxEnd (x : Nat) (s : State) : Host.Outcome State Fault Refusal := .next (s.txEnd x)

/-- TOKEN_REFILL: at every multiple of 64 tk (R142, R281). -/
def execTokenRefill (s : State) : Host.Outcome State Fault Refusal :=
  .next (if s.falls 64 0 then (List.range 16).foldl State.refillSlice s else s)

/-- SHP_COMMIT.GO of a slice (R282). -/
def execShpCommit (n : Nat) (s : State) : Host.Outcome State Fault Refusal :=
  .next (s.shpCommit n)

/-- QUEUE_SAMPLE: at every multiple of 1,024 tk (R142, R287). -/
def execQueueSample (s : State) : Host.Outcome State Fault Refusal :=
  .next (if s.falls 1024 0 then s.sampleAll else s)

/-- CLEAR_MAX of a slice (R287). -/
def execClearMax (n : Nat) (s : State) : Host.Outcome State Fault Refusal := .next (s.clearMax n)

/-- SLOT_START (R161). -/
def execSlotStart (x e : Nat) (s : State) : Host.Outcome State Fault Refusal := .next (s.slotStart x e)

/-- SLOT_SPAN_END (R161). -/
def execSlotSpanEnd (n : Nat) (s : State) : Host.Outcome State Fault Refusal := .next (s.slotSpanEnd n)

/-- SCHED_SLIP (R162). -/
def execSchedSlip (n : Nat) (s : State) : Host.Outcome State Fault Refusal := .next (s.slip n)

end Sys2Proof.Machine
end

