-- ==== Sys2Proof/Machine/Security.lean ====
section
/-! DEFINITION. SPDM, the security report, operator keys, debug states, rekeys, removal of a partition, the end of
background work (R381, R386 to R405). -/

namespace Sys2Proof.Machine

namespace State

/-! Measurements (R393) -/

/-- A digest shown in four registers. -/
def digestAt (s : State) (r : RegName) (p : Nat) : Bytes := (List.range 4).flatMap fun k => leBytes 8 (s.rd r p k)

/-- The 16 bytes of a partition in the partition layout (R393, R394). -/
def partLayout (s : State) (p : Nat) : Bytes :=
  let d := s.image.device
  let pools := (List.range 16).foldl (fun a n => a + s.fld F.SLC_POOL_CFG_SIZE n p) 0
  leBytes 2 (d.ports.countP (·.2 == p)) ++ leBytes 2 (d.cores.countP (·.2 == p)) ++ leBytes 2 (d.contexts.countP (·.2 == p))
    ++ leBytes 2 (d.windows.countP (·.2.1 == p)) ++ leBytes 4 pools ++ leBytes 1 (s.fld F.SEC_PART_STAT_STATE p) ++ leBytes 3 0

/-- SEC_DEBUG and the debug states of the partitions. -/
def debugStates (s : State) : Bytes :=
  leBytes 4 (s.rd .SEC_DEBUG) ++ (List.range 16).flatMap fun p => leBytes 1 (s.fld F.SEC_PART_STAT_DEBUG p)

/-- The content of a measurement block, and whether it is a raw value rather than a digest; none of other indices. -/
def measured (s : State) (i : Nat) : Option (Bool × Bytes) :=
  if i = 1 then some (false, leBytes 32 Config.romDigest.toNat)
  else if i = 2 then some (false, s.fwDigest)
  else if i = 3 then some (false, s.devDigestNow)
  else if 4 ≤ i ∧ i ≤ 19 then some (false, s.digestAt .CFG_PART_DIGEST (i - 4))
  else if i = 20 then some (true, leBytes 4 (s.rd .SEC_FUSE))
  else if i = 21 then some (true, s.debugStates)
  else if i = 22 then some (true, (List.range 16).flatMap s.partLayout)
  else if i = 23 then some (true, leBytes 8 (s.rd .GLB_REPLAY_CLASS))
  else none

/-- A measurement block in DMTF form: index, specification, size, and the value's type, size and bytes (log entry 101). -/
def measurementBlock (s : State) (i : Nat) : Bytes :=
  match s.measured i with
  | some (raw, v) =>
    leBytes 1 i ++ leBytes 1 1 ++ leBytes 2 (v.length + 3) ++ leBytes 1 (128 * b2n raw + (Config.measurementType i).toNat)
      ++ leBytes 2 v.length ++ v
  | none => []

/-- The measurement record of the blocks asked for, all of one tick. -/
def measurements (s : State) (l : List Nat) : Bytes := l.flatMap s.measurementBlock

/-! SPDM (R386, R392, R393, R395) -/

/-- The number under which messages of a path are counted (log entry 8): the host port's VDM path 0. -/
def spdmPath : CmdPath → Nat
  | .host q _ => 2 ^ 40 + q
  | .frame x src => 2 ^ 20 + x * 2 ^ 17 + src

/-- Whether a chain leads down from one of some anchors; at most 8 count (R386). -/
def anchored (l : List (BitVec 256)) (chain : Bytes) : Bool := (l.take 8).any fun a => Config.chainAccepts a chain

/-- The role of a session's requester by the chain it presented (R386). -/
def roleOf (s : State) (path : Option CmdPath) (chain : Option Bytes) : Role :=
  let inband := match path with
    | some (.frame _ _) => true
    | _ => false
  match chain with
  | none => .observer
  | some c =>
    if anchored s.image.device.anchors c then .operator
    else match s.image.parts.find? fun p => anchored p.2.anchors c with
      | some p => .tenant p.1
      | none => if inband && Config.chainAccepts Config.skovbelRoot c then .peer else .observer

/-- The port whose link session a request from a path sets up: it comes from the partner of a port that carries an
encrypted partition and has no session, whose requester is the other end (R395). -/
def linkPort (s : State) (path : Option CmdPath) : Option Nat :=
  match path with
  | some (.frame x src) =>
    (match s.portAt x with
     | some (n, j) =>
       if s.portUp x && s.sealedParts x != [] && (s.port x).session.isNone && !s.requests n j x
          && src == s.linkPeer x then some x else none
     | none => none)
  | _ => none

/-- Whether a chain suffices for the link session of a port (R395). -/
def linkChainOk (s : State) (x : Nat) (chain : Option Bytes) : Bool :=
  match chain with
  | none => false
  | some c =>
    if s.fabric x then Config.chainAccepts Config.skovbelRoot c
    else (s.image.device.ports.filter fun g => g.1 == x).all fun g =>
      !s.flag F.SEC_PART_STAT_EP_AUTH g.2 || anchored (s.image.partOf g.2).anchors c

/-- A session opened: of a link, or of another requester. -/
def openSession (s : State) (path : Option CmdPath) (id : Nat) (ems : Bytes) (chain : Option Bytes) : State :=
  let others := s.sec.sessions.filter fun e => e.id != id
  match s.linkPort path with
  | some x =>
    if s.linkChainOk x chain then
      (s.setSessions (others ++ [{ id := id, role := if s.fabric x then .peer else .endpoint, ems := ems, link := some x }])).sessionUp
        x ems false
    else s.sessionFailed x
  | none =>
    let src := match path with
      | some (.frame _ a) => some a
      | _ => none
    s.setSessions (others ++ [{ id := id, role := s.roleOf path chain, ems := ems, src := src }])

/-- A session ended; a link session takes its keys with it. -/
def closeSession (s : State) (id : Nat) : State :=
  match s.session id with
  | none => s
  | some e =>
    let s1 := s.setSessions (s.sec.sessions.filter fun k => k.id != id)
    match e.link with
    | some x => s1.onPort x fun n j => s1.endSession n j x
    | none => s1

/-- An SPDM request answered (R392; log entries 7, 8); no answer is given when the session limit refuses it. -/
def spdm (s : State) (path : Option CmdPath) (request : Bytes) : State × Option Bytes :=
  let k := (path.map spdmPath).getD 0
  let n := readKey 0 s.sec.spdm k
  let e := k * 2 ^ 32 + n
  let s1 : State := { s with sec := { s.sec with spdm := writeKey 0 s.sec.spdm k (n + 1) } }
  match Config.spdmEffect e request with
  | .opened id ems chain =>
    if 64 ≤ s.sec.sessions.length then (s1, none)
    else (s1.openSession path id ems chain, some (Config.spdmAnswer e request (s.measurements (Config.spdmAsks e request))))
  | .ended id => (s1.closeSession id, some (Config.spdmAnswer e request (s.measurements (Config.spdmAsks e request))))
  | .none => (s1, some (Config.spdmAnswer e request (s.measurements (Config.spdmAsks e request))))

/-- The partition and generation of a REKEY_REQ that a message of port x carries, when it asks for the next generation
of one (R398). -/
def rekeyAsked (s : State) (x : Nat) (msg : Bytes) : Option (Nat × Nat) :=
  (List.range 16).findSome? fun p =>
    let newest := ((s.port x).rxKey.filter fun k => k.1 / 4 == p).foldl (fun m k => max m k.2.gen) 0
    [newest, newest + 1].findSome? fun g => if msg == Config.rekeyRequest x p g then some (p, g) else none

/-- SPDM_MSG (R392): a REKEY_REQ of the link session among them (R398). -/
def spdmCommand (s : State) (c : TakenX) : State :=
  let asked := match c.path with
    | .frame x src => if (s.port x).session.isSome && src == s.linkPeer x then (s.rekeyAsked x c.payload).map (x, ·) else none
    | .host _ _ => none
  match asked with
  | some (x, p, g) => (s.installEpoch x p g).respond c 0 0 (Config.rekeyAck x p g)
  | none =>
    match s.spdm (some c.path) c.payload with
    | (a, some b) => a.respond c 0 0 b
    | (a, none) => a.respond c 0x307

/-! The security report (R394) -/

/-- The 992-byte message. -/
def reportMessage (s : State) (nonce : Bytes) : Bytes :=
  ascii 16 "YELIMOS-SECRPT" ++ leBytes 32 Config.certDigest.toNat ++ Machine.slice nonce 0 32 ++ leBytes 8 s.count
    ++ leBytes 8 (s.rd .GLB_REPLAY_CLASS) ++ leBytes 32 Config.romDigest.toNat ++ s.fwDigest ++ s.devDigestNow
    ++ (List.range 16).flatMap (s.digestAt .CFG_PART_DIGEST) ++ leBytes 4 (s.rd .SEC_FUSE) ++ s.debugStates ++ leBytes 8 0
    ++ (List.range 16).flatMap s.partLayout

/-- SEC_REPORT. -/
def secReport (s : State) (c : TakenX) : State :=
  if c.payload.length ≠ 32 then s.respond c 3
  else
    let m := s.reportMessage c.payload
    s.respond c 0 0 (m ++ Machine.slice (Config.signEcdsa m) 0 96 ++ Machine.slice (Config.signMlDsa m) 0 3309)

/-! Operator keys (R390, R391) -/

/-- The action and slot of SEC_OPKEY; an INSTALL or FUSE payload begins with the 97-byte and the 1,952-byte public key. -/
def opAction (c : TakenX) : Nat := bitsOf c.arg 8 2
def opSlot (c : TakenX) : Nat := bitsOf c.arg 0 2
def opNewKeys (c : TakenX) : Bytes := if opAction c = 2 then [] else c.payload.take 2049

/-- Whether another valid slot's keys signed the command. -/
def opSigned (s : State) (c : TakenX) : Bool :=
  let sig := if opAction c = 2 then c.payload else c.payload.drop 2049
  let keys := opNewKeys c
  let msg := ascii 14 "YELIMOS-OPKEY" ++ leBytes 8 c.arg ++ (if keys = [] then List.replicate 32 0#8 else sha3 keys)
  (List.range 4).any fun k => k != opSlot c &&
    match s.opKeys k with
    | some q => Config.verifyEcdsa (q.take 97) msg (Machine.slice sig 0 96) && Config.verifyMlDsa (q.drop 97) msg (Machine.slice sig 96 3309)
    | none => false

/-- The status SEC_OPKEY fails with before its flash or fuse write; 0 when it goes on. -/
def opStatus (s : State) (c : TakenX) : Nat :=
  let k := opSlot c
  let state (i : Nat) := s.fld F.SEC_OPKEY_STATE i
  let n := c.payload.length
  if c.arg ≠ k + opAction c * 256 ∨ opAction c = 3 then 3
  else if opAction c = 0 then
    if n ≠ 2049 then 3
    else if k = 0 ∧ (List.range 4).all (fun i => state i == 0) ∧ ¬ s.flag F.SEC_FUSE_OPKEY0_FUSED then 0 else 0x304
  else if opAction c = 1 then
    if n ≠ 5454 then 3
    else if k = 0 ∨ state k ≠ 0 then 0x304
    else if s.opSigned c then 0 else 0x303
  else if n ≠ 3405 then 3
  else if ¬ (List.range 4).any (fun i => i != k && state i == 1) then 0x304
  else if s.opSigned c then 0 else 0x303

/-- The slot changes once the write has ended; slot 0's digest and revocation are fuses. -/
def opApply (s : State) (c : TakenX) : State :=
  let k := opSlot c
  let x : KeySlot := if opAction c = 2 then { s.nv.key k with state := 2 } else ⟨1, opNewKeys c⟩
  let s1 := ({ s with nv := { s.nv with keys := writeKey {} s.nv.keys k x } } : State).showKeys
  if k ≠ 0 then s1
  else if opAction c = 2 then s1.setFld F.SEC_FUSE_OPKEY0_REVOKED 1
  else s1.setFld F.SEC_FUSE_OPKEY0_FUSED 1

/-! Debug (R400) -/

/-- The contexts granted to a partition. -/
def ctxsOf (s : State) (p : Nat) : List Nat := (s.image.device.contexts.filter fun g => g.2 == p).map (·.1)

/-- DEBUG_SET. -/
def debugSet (s : State) (c : TakenX) : State :=
  let p := c.part
  let held := decide (s.fld F.SEC_PART_STAT_DEBUG p = 0 ∧ c.arg ≠ 0) && (s.ctxsOf p).any fun x => s.ctxState x != 0
  if 3 ≤ c.arg then s.respond c 3
  else if s.leaving p then s.respond c 0xD
  else if held then s.respond c 0x305
  else (s.setFld F.SEC_PART_STAT_DEBUG c.arg p).respond c 0

/-! Removal (R402, R403) -/

/-- PART_REMOVE. -/
def partRemove (s : State) (c : TakenX) : State :=
  let p := c.part
  let b := s.stage.bytes
  let ms := if c.arg = 0 then 10 else c.arg
  if 10000 < c.arg then s.respond c 3
  else if s.leaving p then s.respond c 0xD
  else if s.stageState = 5 ∧ (hdKind b = 0 ∨ hdPart b = p) then s.respond c 0x306
  else
    let s1 : State := { s with sec := { s.sec with removals := s.sec.removals ++ [⟨p, c, s.now⟩] } }
    (s1.setFld F.SEC_PART_STAT_STATE 2 p).wr .SEC_PART_RM ms p

/-- In the tick after QUIESCING was entered the partition is DRAINING. -/
def startDraining (s : State) : State :=
  (List.range 16).foldl (fun a p => if a.partState p = 2 then a.setFld F.SEC_PART_STAT_STATE 3 p else a) s

/-- A partition that has been asked to leave and has not reached RETIRING. -/
def departing (s : State) (p : Nat) : Bool := s.partState p == 2 || s.partState p == 3

/-- The Armed and Running contexts of a partition. -/
def activeOf (s : State) (p : Nat) : List Nat := (s.ctxsOf p).filter s.ctxActive

/-- DRAINING is over without the deadline. -/
def drained (s : State) (p : Nat) : State :=
  if s.departing p && (s.activeOf p).isEmpty && (s.mgOf p).queue.isEmpty then s.setFld F.SEC_PART_STAT_STATE 4 p else s

/-- The deadline of a removal has come (R402). -/
def pastDue (s : State) (p : Nat) : Bool :=
  s.sec.removals.any fun r => r.part == p && decide (r.since + s.fld F.SEC_PART_RM_DEADLINE p * 1000000 ≤ s.now)

/-- The deadline: active contexts are aborted, unacknowledged entries discarded, both counted. -/
def pastDeadline (s : State) (p : Nat) : State :=
  if s.departing p ∧ s.pastDue p then
    let act := s.activeOf p
    let s1 := act.foldl (fun a c => a.abortCtx c 7) s
    let m := s1.mgOf p
    let s2 := (s1.setMg p { m with queue := [], drains := [] }).showQueue p
    ((s2.setFld F.SEC_PART_RM_ABORTED act.length p).setFld F.SEC_PART_RM_MG_DISCARDED m.queue.length p).setFld
      F.SEC_PART_STAT_STATE 4 p
  else s

/-- A partition retired on one port: its epochs in both directions (R397, R403). -/
def retirePort (s : State) (x p : Nat) : State :=
  if s.linkEnc x p && (s.port x).session.isSome then
    let q := s.port x
    let es := (List.range 4).map (p * 4 + ·)
    let s1 := s.setPort x { q with txKey := eraseKey q.txKey p, rxKey := es.foldl eraseKey q.rxKey,
                                   rxState := es.foldl (fun m e => writeKey 0 m e 3) q.rxState }
    ((s1.showEpochs x p).setFld F.SEC_LKEY_TX_VALID 0 x p).setFld F.SEC_LKEY_REKEY_PENDING 0 x p
  else s

/-- Every port has retired a partition: its copies on ports are dropped and its contexts unbound; zeroisation begins. -/
def retired (s : State) (p : Nat) : State :=
  if s.partState p = 4 ∧ (s.activeOf p).isEmpty ∧ ¬ s.flag F.SEC_PART_STAT_ZEROISING p then
    let mine (k : Copy) : Bool := k.frame.part == p && !Frame.command k.frame.typ && onPorts s.allPorts k
    let n := s.copies.countP mine
    let s1 := s.allPorts.foldl (fun a x => a.retirePort x p) s
    let s2 := (s1.freeWhere mine).bump F.SEC_PART_DROP_DROP_TX n p
    ((s2.ctxsOf p).foldl (fun a c => if a.ctxState c = 0 then a else a.unbindCtx c) s2).setFld F.SEC_PART_STAT_ZEROISING 1 p
  else s

/-- A core's registers and record as after a reset of the core, IDLE, its SRAM zeroed. -/
def zeroCore (s : State) (n : Nat) : State :=
  let s1 := (s.stopEngines n).setCore n {}
  (s1.leaveProgram n).zeroSram n 0 0x7FFFF

/-- Zeroisation is complete: nothing of the partition is left, its part leaves the image, the removal is answered. -/
def zeroised (s : State) (p : Nat) : State :=
  if s.partState p = 4 ∧ s.flag F.SEC_PART_STAT_ZEROISING p then
    let cores := (s.image.device.cores.filter fun g => g.2 == p).map (·.1)
    let s1 := s.freeWhere fun k => k.pool == p
    let s2 := cores.foldl (fun a n => if a.coreState n = 0 then a.zeroSram n 0 0x7FFFF else a.zeroCore n) s1
    let s3 := (s2.ctxsOf p).foldl (fun a c => a.clearCtx c) (s2.setMg p {})
    let s4 : State := { s3 with groups := s3.groups.filter fun g => g / 65536 != p }
    let s5 := s4.setSessions (s4.sec.sessions.filter fun e => e.role != .tenant p)
    let l := s5.image.sections.filter fun x => x.part != p
    let s6 := s5.applyImage (buildImage l ((recsOf l).getD []) [])
    let s7 := (List.range 16).foldl (fun a n => a.buildPool n p) s6
    let s8 := ((s7.showQueue p).setFld F.SEC_PART_STAT_ZEROISING 0 p).setFld F.SEC_PART_STAT_STATE 0 p
    match s8.sec.removals.find? fun r => r.part == p with
    | some r => ({ s8 with sec := { s8.sec with removals := s8.sec.removals.filter fun k => k.part != p } } : State).respond r.cmd 0
    | none => s8
  else s

/-! Link keys (R395, R398) -/

/-- LINK_REKEY. A port and partition without a link key to replace gives STATE (log entry 60). -/
def linkRekey (s : State) (c : TakenX) : State :=
  if 256 ≤ c.arg then s.respond c 3
  else if (lookupKey (s.port c.arg).txKey c.part).isNone then s.respond c 0xD
  else if s.flag F.SEC_LKEY_REKEY_PENDING c.arg c.part then s.respond c 0
  else (s.startRekey c.arg c.part).respond c 0

/-- A response to an SPDM_MSG that this end sent as a link session's requester or transmitter (R395, R398). -/
def linkAnswer (s : State) (x : Nat) (msg : Bytes) : State :=
  s.onPort x fun n j =>
    let acked := (List.range 16).find? fun p => s.flag F.SEC_LKEY_REKEY_PENDING x p
      && msg == Config.rekeyAck x p (s.fld F.SEC_LKEY_GEN x p + 1)
    match acked with
    | some p => s.rekeyAcked n j x p (s.fld F.SEC_LKEY_GEN x p + 1)
    | none => if (s.port x).session.isNone && s.requests n j x then s.linkMove x msg else s

/-! The end of background work (R381) -/

/-- What a background command changes when its work has succeeded, and its response. -/
def workDone (s : State) (c : TakenX) (w : Work) : State :=
  match w with
  | .store => ({ s with nv := { s.nv with store := s.image.packages } } : State).respond c 0
  | .fwChunk =>
    let g := s.nv.stage
    if g.state = 1 then
      (s.withNv { s.nv with stage := { g with blocks := insertKey g.blocks (c.arg / 4096) c.payload } }).respond c 0
    else s.respond c 0x201
  | .fwEnd => s.fwEnded c
  | .svnCommit =>
    let v := max s.nv.minSvn (s.fld F.GLB_BOOT_STAT_RUN_SVN)
    (({ s with nv := { s.nv with minSvn := v } } : State).setFld F.GLB_BOOT_STAT_MIN_SVN v).respond c 0
  | .settings => ({ s with nv := { s.nv with settings := some c.payload } } : State).respond c 0
  | .fwDiscard => ((s.relayClear).withNv { s.nv.written with stage := {} }).respond c 0
  | .recInstall => s.recInstalled c
  | .opkey => (s.opApply c).respond c 0

/-- Background work number `i` of those under way ends; work that failed in flash or fuses gives FLASH_ERR (R381). -/
def endWork (s : State) (i : Nat) (ok : Bool) : State :=
  match s.cmd.work[i]? with
  | none => s
  | some (c, w) =>
    let s1 : State := { s with cmd := { s.cmd with work := s.cmd.work.eraseIdx i } }
    if ok then s1.workDone c w else s1.respond c 0x207

end State

/-- SPDM_MSG (R392). -/
def execSpdmMsg (s : State) : Host.Outcome State Fault Refusal := .next (s.run 0x30 State.spdmCommand)

/-- SPDM_VDM_RX (R392): past 64 sessions the answer is the SPDM ERROR Busy (log entry 8). -/
def execSpdmVdmRx (message : List (BitVec 8)) (s : State) : Host.Outcome State Fault Refusal :=
  .next (match s.spdm none message with
    | (a, some b) => a.emit (.vdm b)
    | (a, none) => a.emit (.vdm [0x13, 0x7F, 0x03, 0x00]))

/-- SEC_REPORT (R394). -/
def execSecReport (s : State) : Host.Outcome State Fault Refusal := .next (s.run 0x31 State.secReport)

/-- SEC_OPKEY (R391). -/
def execSecOpkey (s : State) : Host.Outcome State Fault Refusal :=
  .next (s.run 0x32 fun a c => if a.opStatus c = 0 then a.startWork c .opkey else a.respond c (a.opStatus c))

/-- DEBUG_SET (R400). -/
def execDebugSet (s : State) : Host.Outcome State Fault Refusal := .next (s.run 0x33 State.debugSet)

/-- PART_REMOVE (R402). -/
def execPartRemove (s : State) : Host.Outcome State Fault Refusal := .next (s.run 0x34 State.partRemove)

/-- REMOVAL_DRAINED (R403). -/
def execRemovalDrained (p : Nat) (s : State) : Host.Outcome State Fault Refusal := .next (s.drained p)

/-- REMOVAL_DEADLINE (R403). -/
def execRemovalDeadline (p : Nat) (s : State) : Host.Outcome State Fault Refusal := .next (s.pastDeadline p)

/-- RETIRING_DONE (R403). -/
def execRetiringDone (p : Nat) (s : State) : Host.Outcome State Fault Refusal := .next (s.retired p)

/-- ZEROISE_DONE (R403). -/
def execZeroiseDone (p : Nat) (s : State) : Host.Outcome State Fault Refusal := .next (s.zeroised p)

/-- LINK_REKEY (R398). -/
def execLinkRekey (s : State) : Host.Outcome State Fault Refusal := .next (s.run 0x35 State.linkRekey)

/-- REKEY_REQ_RX (R398): the message as the link session delivers it, answered as the command SPDM_MSG that carried it. -/
def execRekeyReqRx (x p : Nat) (gen : BitVec 32) (s : State) : Host.Outcome State Fault Refusal :=
  .next (if (s.port x).session.isSome then
    (s.installEpoch x p gen.toNat).respond
      { path := .frame x (s.linkPeer x), bytes := State.packet s.ownChip 0x30 p 0 (Config.rekeyRequest x p gen.toNat) } 0 0
      (Config.rekeyAck x p gen.toNat)
  else s)

/-- REKEY_ACK_RX (R398). -/
def execRekeyAckRx (x p : Nat) (gen : BitVec 32) (s : State) : Host.Outcome State Fault Refusal :=
  .next (s.onPort x fun n j => s.rekeyAcked n j x p gen.toNat)

/-- LINK_SESSION_RETRY (R395). -/
def execLinkSessionRetry (x : Nat) (s : State) : Host.Outcome State Fault Refusal :=
  .next (s.onPort x fun n j =>
    if s.portUp x ∧ (s.port x).triedAt + 100000000 ≤ s.now then
      (s.setPort x { s.port x with triedAt := s.now }).startSession n j x
    else s)

/-- TAP_ACCESS (R401). -/
def execTapAccess (s : State) : Host.Outcome State Fault Refusal := .next (s.setFld F.SEC_DEBUG_JTAG_USED 1)

/-- BACKGROUND_COMMAND_DONE (R381). -/
def execBackgroundCommandDone (index : BitVec 16) (ok : Bool) (s : State) : Host.Outcome State Fault Refusal :=
  .next (s.endWork index.toNat ok)

end Sys2Proof.Machine
end

