-- ==== Sys2Proof/Machine/Streams.lean ====
section
/-! DEFINITION. Stream engines moving tiles (R177 to R180, R98, R270) and the Y5's own echoes (R268, R270). -/

namespace Sys2Proof.Machine

namespace State

/-! Inbound -/

/-- The input a frame in a core's inbound queue came from, as a target code of R177. -/
def inputCode (s : State) (f : Frame) : Nat :=
  let from_ := f.src / 32
  if f.typ = Frame.COLL then f.src % 32
  else if from_ = s.coord then 0x4F
  else match s.treeOf f with
    | some t => if t.parent != 0xFF && s.parentCoord t == from_ then 0x4D else 32 + (s.kidIndex f.ctx t from_).getD 0
    | none => 0x4D

/-- Slots of an engine's buffer, and a tile's slot (R178). -/
def seStride (e : EngineX) : Nat := ceilDiv e.tileBytes 32 * 32
def seSlots (e : EngineX) : Nat := if e.ring = 0 then e.ntiles else e.ring / max 1 (seStride e)
def seSlot (e : EngineX) (t : Nat) : Nat :=
  e.base + ((t - e.first) * seStride e) % max 1 (if e.ring = 0 then e.ntiles * seStride e else e.ring)

/-- The cores that share core n's stage of a context (R89, R182): they take tiles of one another's frames (log entry 13). -/
def stageMates (s : State) (n c : Nat) : List Nat :=
  match (s.core n).run with
  | some r => ((s.bindingsOf c).filter fun b => s.fld F.RC_BIND_STAGE b.1 b.2 == r.stage && b.1 / 32 == n / 32).map (·.1)
  | none => [n]

/-- The frame in the inbound queue of core n or of a core of its stage that holds the next tile of engine k, not yet taken
(R89, R180). -/
def inFrame (s : State) (n k : Nat) : Option Copy :=
  let e := s.engine n k
  let c := s.fld F.RC_SE_STAT_CTX n k
  let t := e.first + s.seCount n k
  let own := match (s.core n).run with
    | some r => (r.epoch, r.part)
    | none => (s.epoch c, s.ctxPart c)
  s.copies.find? fun q => q.phase == .inCore && (match (s.core n).run with
      | some r => q.launch == some r.launch
      | none => true)
    && (match q.span with
      | some p => decide (p.1 ≤ t) && decide (t < p.2)
      | none => true)
    && s.stageSlice c t (((s.core n).run.map (·.stage)).getD 0) == some (n / 32)
    && (q.out == .core n || (s.stageMates n c).any fun m => q.out == .core m) && q.frame.ctx == c && q.frame.epoch == own.1
    && q.frame.part == own.2 && s.inputCode q.frame == s.fld F.RC_SE_STAT_TARGET n k
    && (e.mode == 1) == (q.frame.typ == Frame.COLL_EXP)
    && decide (q.frame.tile ≤ t) && decide (t < q.frame.tile + s.tilesIn q.frame) && !q.taken.contains t

/-- Whether engine k of a core is ACTIVE in a direction and its core's clock runs (R193). -/
def seRuns (s : State) (n k dir : Nat) : Bool :=
  s.seState n k == 1 && s.seDir n k == dir && s.fld F.SLC_DRAIN_STATE (n / 32) != 2

/-- Tile t of a copy has been written by an engine of core n: its buffers are free after the frame's last tile, where cores of
one stage share the frame once each of its tiles is written (R180). -/
def tookTile (s : State) (n : Nat) (q : Copy) (t : Nat) : State :=
  let w := q.span.getD (q.frame.tile, q.frame.tile + s.tilesIn q.frame)
  let m := w.2 - w.1
  let alone := (s.stageMates n q.frame.ctx).all (· == n)
  if (alone && t + 1 == w.2) || q.taken.length + 1 == m then s.freeCopy q.id
  else s.setCopy { q with taken := t :: q.taken }

/-- Whether a target is present in the binding (R112, R179). -/
def targetPresent (s : State) (c tile target : Nat) : Bool :=
  if target < 32 then s.present c target
  else if target < 0x4D then s.childPresent c (target - 32)
  else if target = 0x4E then
    !(s.presentMembers c).isEmpty || (match s.image.treeAt c tile with
      | some t => !(s.presentKids c t).isEmpty
      | none => false)
  else true

/-- An inbound engine writes its next tile when a slot is free (R179, R180). It passes the tiles of an input that is absent from
the binding, whose plans do not list it (R112; log entry 85). -/
def seWrite (s : State) (n k : Nat) : State :=
  if s.seRuns n k 0 then
    let e := s.engine n k
    let room := decide (s.seCount n k - s.seRel n k < seSlots e)
    let t := e.first + s.seCount n k
    if ¬ s.targetPresent (s.fld F.RC_SE_STAT_CTX n k) t (s.fld F.RC_SE_STAT_TARGET n k) then
      (if room then s.seAdvance n k 1 else s)
    else
      match s.inFrame n k with
      | none => s
      | some q =>
        let f := q.frame
        if f.len ≠ s.tilesIn f * e.tileBytes then (s.setCopy { q with faulty := true }).seFault n k 0x0A 2 e.bundle
        else if room then
          ((s.writeSram n (seSlot e t) (Machine.slice f.payload ((t - f.tile) * e.tileBytes) e.tileBytes)).seAdvance n k
            1).tookTile n q t
        else s
  else s

/-! Outbound -/

/-- Tiles per frame of an engine (R179). -/
def seChunk (s : State) (c : Nat) (e : EngineX) : Nat := max 1 (min (s.image.ctxX c).chunk (8192 / max 1 e.tileBytes))

/-- The frames an outbound engine's payload goes out in, with their outputs (R177, R487). -/
def seFrames (s : State) (n c stage tile mode target : Nat) (payload : Bytes) : List Placed :=
  let m := n / 32
  let place (typ dest : Nat) : List Placed := [s.placed m 256 (s.makeColl m c typ dest tile payload)]
  let kids := match s.image.treeAt c tile with
    | some t => s.presentKids c t
    | none => []
  if target < 32 then place Frame.RESULT (s.ownAddr + target)
  else if target < 0x4D then
    (match s.image.treeAt c tile with
     | some t =>
       (match t.children[target - 32]? with
        | some k => place (if mode = 1 then Frame.COLL_EXP else Frame.COLL_DOWN) (k.coord * 32)
        | none => [])
     | none => [])
  else if target = 0x4D then
    (match s.image.treeAt c tile with
     | some t => place (if mode = 1 then Frame.COLL_EXP else Frame.COLL_UP) (s.parentCoord t * 32)
     | none => [])
  else if target = 0x4E then
    (if mode = 1 then kids.flatMap fun k => place Frame.COLL_EXP (k * 32) else s.fall m 256 c tile payload none false)
  else
    match s.coreFor c (stage + 1) 0x4F tile mode with
    | some q =>
      [placedAt (.core q) (s.makeColl m c (if mode = 1 then Frame.COLL_EXP else Frame.COLL_UP) s.ownAddr tile payload)]
    | none => []

/-- Whether a result tile holds a NaN (R98). -/
def tileNan (s : State) (c : Nat) (t : Bytes) : Bool :=
  let f := Fmt.ofCode (s.fld F.SCH_CTX_CFG_OUT_FMT c)
  let n := s.fld F.SCH_CTX_CFG_TILE_BLK c + 1
  if s.flag F.SCH_CTX_CFG_OUT_SCALED c then
    let bl := if s.flag F.SCH_CTX_CFG_B32 c then 32 else 16
    let body := t.drop (ceilDiv n 16 * 16)
    (List.range (n * bl)).any fun i => scaledValue f (leAt t (i / bl) 1) (elemAt f body i) == .nan
  else (List.range (s.tileElems c)).any fun i => f.value (elemAt f t i) == .nan

/-- The first uncorrectable error, real or injected, in the words of `m` tiles from tile t on (R167, R181). -/
def tilesBad (s : State) (n : Nat) (e : EngineX) (t m : Nat) : Bool :=
  (List.range m).any fun i => s.badRead n (seSlot e (t + i)) e.tileBytes

/-- The ECC checks of reading `m` tiles from tile t on (R167). -/
def noteTiles (s : State) (n : Nat) (e : EngineX) (t m : Nat) : State :=
  (List.range m).foldl (fun a i => a.noteRead n (seSlot e (t + i)) e.tileBytes) s

/-- An outbound engine has offered `m` tiles: as frames of a group, or to no one (R179). -/
def seOffered (s : State) (n k m : Nat) (group : Option Nat) : State :=
  let e := s.engine n k
  (s.setEngine n k { e with asked := e.asked + m, flights := e.flights ++ [(group, m)] }).seLand n k

/-- The copies of one frame of a group are asked for, and those with no output are dropped and counted, in the slice of core
n (R238, R252). -/
def askAll (s : State) (n k : Nat) (ps : List Placed) : State :=
  let g := s.serial
  ps.foldl (fun a p => match p.route with
    | .out o => a.ask p.frame (n / 32) (n % 32 * 4 + k) o g (some (n, k)) ((s.core n).run.map (·.launch))
    | .fails c => a.drop (n / 32) c
    | .here => a) s

/-- An outbound engine queues its next frame once its tiles are ready, a launch is in progress and tokens suffice, and no
frame of it still waits for admission (R179, R180, R270). A word it cannot read halts its core (R181). -/
def seQueue (s : State) (n k : Nat) : State :=
  if s.seRuns n k 1 then
    let e := s.engine n k
    let c := s.fld F.RC_SE_STAT_CTX n k
    let m := min (s.seChunk c e) (e.ntiles - e.asked)
    let t := e.first + e.asked
    let target := s.fld F.RC_SE_STAT_TARGET n k
    let stage := ((s.core n).run.map (·.stage)).getD 0
    let cost := 16 * (m * e.tileBytes + 64)
    let tokens := readKey 0 s.limiter c
    let limited := !s.scheduled c
    if m = 0 ∨ s.seRel n k < e.asked + m ∨ ¬ (s.ctx c).active ∨ s.seWaits n k then s
    else if ¬ s.targetPresent c t target then s.seOffered n k m none
    else if limited && decide (tokens < cost) then s
    else if s.tilesBad n e t m then (s.noteTiles n e t m).seFault n k 9 2 e.bundle
    else
      let payload := (List.range m).flatMap fun i => s.sramBytes n (seSlot e (t + i)) e.tileBytes
      let s1 := s.noteTiles n e t m
      let s2 : State := if limited then { s1 with limiter := writeKey 0 s1.limiter c (tokens - cost) } else s1
      let isResult := e.mode = 0 ∧ (target < 0x4D ∨ target = 0x4E) ∧ s.isRoot c
      let nan := (List.range m).any fun i => s.tileNan c (Machine.slice payload (i * e.tileBytes) e.tileBytes)
      let s3 := if isResult then s2.noteNan c nan else s2
      (s3.askAll n k (s3.seFrames n c stage t e.mode target payload)).seOffered n k m (some s3.serial)
  else s

/-! Echoes -/

/-- A marked frame addressed to this Y5 is owed an echo (R268); a mark of 0b11 is echoed as 0x02 (log entry 81). -/
def oweEcho (s : State) (n : Nat) (f : Frame) : State :=
  if f.cls = 7 ∨ f.mark = 0 ∨ f.typ = Frame.ECHO ∨ f.typ = Frame.ECHO_Y5 then s
  else
    let coll := Frame.collective f.typ
    let c := if coll then f.ctx else 0
    let ep := if coll then f.epoch else 0
    let m := min f.mark 2
    let y5 := [Frame.COLL_UP, Frame.COLL_EXP, Frame.COLL_DOWN, Frame.RESULT, Frame.COLL_XFER, Frame.DISPATCH_END, Frame.DONE,
      Frame.ABORT, Frame.ABORT_Y5, Frame.REJECT, Frame.CMD_RSP, Frame.CMD_RSP_Y5, Frame.MG_DRAIN].contains f.typ
    let same (e : EchoX) : Bool := e.dest == f.src && e.part == f.part && e.cls == f.cls && e.ctx == c && e.epoch == ep
    if s.echoes.any same then
      { s with echoes := s.echoes.map fun e =>
        if same e then { e with mark := max e.mark m, count := e.count + 1, hi := e.hi + b2n (f.mark == 2) } else e }
    else
      { s with echoes := s.echoes ++ [⟨f.src, if y5 then Frame.ECHO_Y5 else Frame.ECHO, f.part, f.cls, c, ep, m, 1,
                                       b2n (f.mark == 2), n⟩] }

/-- The payload of an echo (R268). -/
def echoBytes (e : EchoX) : Bytes :=
  leBytes 1 (e.part + e.cls * 16) ++ leBytes 1 e.mark ++ leBytes 2 (e.ctx + e.epoch * 4096) ++ leBytes 4 e.count
    ++ leBytes 4 e.hi ++ leBytes 4 0

/-- An echo is sent, and counted in the slice it leaves through (R268). -/
def sendEcho (s : State) (e : EchoX) : State :=
  let f : Frame := { typ := e.typ, cls := 6, part := e.part, dest := e.dest, payload := echoBytes e }
  let t := s.originate e.slice f
  match (s.route e.slice 256 (s.ownFrame e.slice f)).2 with
  | .out o => t.bump F.SLC_RT_ECHO_TX_COUNT 1 (s.outSlice o)
  | _ => t

/-- The echoes owed are sent (R268). -/
def sendEchoes (s : State) : State := s.echoes.foldl sendEcho { s with echoes := [] }

/-- An ECHO_Y5 payload received through slice n in a partition: the context, epoch and mark whose cut takes effect in the next
tick (R270). -/
def takeEcho (s : State) (n part : Nat) (b : Bytes) : State :=
  let s1 := s.bump F.SLC_RT_ECHO_RX_COUNT 1 n
  let c := leAt b 2 2 % 4096
  if s.ctxGranted c part && !s.scheduled c && decide (2 ≤ s.ctxState c) && s.epoch c == leAt b 2 2 / 4096
      && bitsOf (leAt b 0 1) 4 3 != 6 && bitsOf (leAt b 0 1) 0 4 == part && (leAt b 1 1 == 1 || leAt b 1 1 == 2) then
    { s1 with cuts := s1.cuts ++ [(c, leAt b 2 2 / 4096, leAt b 1 1)] }
  else s1

/-- A context's limiter is cut, where its epoch still is the echo's (R270). -/
def cutRate (s : State) (e : Nat × Nat × Nat) : State :=
  let c := e.1
  let r := s.fld F.SCH_CTX_RATE_RATE c
  let cut := if e.2.2 = 2 then r / 2 else r / 8
  if s.epoch c = e.2.1 ∧ 2 ≤ s.ctxState c then
    let s2 := (s.setFld F.SCH_CTX_RATE_RATE (max (s.fld F.SCH_CTX_RLIM_RATE_MIN c) (r - cut)) c).bump F.SCH_CTX_RATE_ECHOES 1 c
    { s2 with echoed := if s2.echoed.contains c then s2.echoed else s2.echoed ++ [c] }
  else s

/-- The cuts of the echoes of the tick before (R270). -/
def cutRates (s : State) : State := s.cuts.foldl cutRate { s with cuts := [] }

end State

/-- SE_TILE_WRITE (R180). -/
def execSeTileWrite (n k : Nat) (s : State) : Host.Outcome State Fault Refusal := .next (s.seWrite n k)

/-- SE_FRAME_QUEUE (R179). -/
def execSeFrameQueue (n k : Nat) (s : State) : Host.Outcome State Fault Refusal := .next (s.seQueue n k)

/-- ECHO_Y5_RX (R270): through slice n, in a partition. -/
def execEchoY5Rx (n part : Nat) (payload : List (BitVec 8)) (s : State) : Host.Outcome State Fault Refusal :=
  .next (s.takeEcho n part payload)

/-- ECHO_WINDOW_END (R268): at the last tick of a window of 1,024. -/
def execEchoWindowEnd (s : State) : Host.Outcome State Fault Refusal :=
  .next (if s.falls 1024 1023 then s.sendEchoes else s)

end Sys2Proof.Machine
end

