-- ==== Sys2Proof/Machine/Sync.lean ====
section
/-! DEFINITION. The schedule counter: sources, exchanges, corrections (R25, R140 to R151, R471). -/

namespace Sys2Proof.Machine

/-- Ticks nearest to an offset in 1/16 tk, ties toward zero (R146). -/
def roundTicks (x : Int) : Int := if 0 ≤ x then (x + 7) / 16 else -((7 - x) / 16)

/-- Division rounding toward zero (R149). -/
def halfTowardZero (x : Int) : Int := Int.tdiv x 2

namespace State

/-- The Y5's time source: 0 ROOT, 1 PULSE, 2 LINK (R144). -/
def source (s : State) : Nat := s.fld F.SCH_SYNC_CFG_SOURCE
/-- State code of the counter: 0 FREE, 1 ACQUIRE, 2 LOCKED, 3 HOLDOVER (R146). -/
def syncState (s : State) : Nat := s.fld F.SCH_SYNC_STATUS_STATE

def setSync (s : State) (y : SyncX) : State := { s with sync := y }

/-- SCH_LOAD_CMD.ARM: ignored on a LINK Y5 and outside FREE (R147). -/
def armLoad (s : State) : State :=
  if s.source < 2 ∧ s.syncState = 0 then s.setSync { s.sync with armed := true } else s

/-- The counter's value changes in a tick. -/
def setCount (s : State) (v : Nat) : State := s.setFld F.SCH_COUNT_COUNT (min v (2 ^ 64 - 1))

/-- The stored offsets after a correction of n ticks (R146). -/
def shiftOffsets (y : SyncX) (n : Int) : SyncX :=
  { y with thetas := y.thetas.map (· - 16 * n), phis := y.phis.map (· + 16 * n) }

/-- A pending correction or load in the tick that reached the last count of an epoch (R141, R146): a forward correction of n lets
that tick count n + 1, a backward one lets the count stand n ticks more. In a tick that did not reach that count nothing is
due. -/
def correct (s : State) : State :=
  let y := s.sync
  if s.count % 2 ^ 20 ≠ 2 ^ 20 - 1 ∨ s.count < y.since then s
  else
    match y.load with
    | some d => (s.setSync { y with load := none }).setCount ((s.count : Int) + d).toNat
    | none =>
      if y.corr = 0 then s
      else
        let s1 := (s.setSync { shiftOffsets y y.corr with corr := 0 }).bump F.SCH_CORR_STEPS 1
        if 0 < y.corr then s1.setCount (s.count + y.corr.toNat)
        else s1.setSync { s1.sync with hold := y.hold + (-y.corr).toNat }

/-- φ in 1/16 tk of a pulse at a count with a fraction (R146). -/
def phiOf (s : State) (frac : Nat) : Int :=
  let v : Nat := s.count % 2 ^ 20 * 16 + frac
  if v < 2 ^ 23 then (v : Int) else (v : Int) - (2 ^ 24 : Nat)

/-- A SCHED_SYNC_IN pulse (R146, R471). -/
def pulse (s : State) (frac : Nat) : State :=
  let y := s.sync
  let early := match y.lastPulse with
    | some t => decide (s.count - t < 2 ^ 19)
    | none => false
  if 2 ≤ s.source then s
  else if early then s.bump F.SCH_SYNC_STATUS_EARLY_PULSES 1
  else
    let phi := s.phiOf frac
    let s1 := (s.setFld F.SCH_PULSE_OFS_PHI (unsignedOf 24 phi)).setFld F.SCH_PULSE_OFS_SEEN 1
    match s.syncState with
    | 0 =>
      if y.armed then
        let v := s.fld F.SCH_LOAD_LOAD / 2 ^ 20 * 2 ^ 20
        ((s1.setSync { y with armed := false, phis := [], corr := 0, lastPulse := some v }).setCount v).setFld
          F.SCH_SYNC_STATUS_STATE 2
      else s1.setSync { y with lastPulse := some s.count }
    | 2 =>
      let ps := (phi :: y.phis).take 4
      let sum := ps.foldl (fun a b => a + b) (0 : Int)
      let c : Int := if ps.length < 4 then 0 else if 32 ≤ sum then -1 else if sum ≤ -32 then 1 else 0
      s1.setSync { y with phis := ps, corr := c, lastPulse := some s.count }
    | 3 => (s1.setSync { y with phis := (phi :: y.phis).take 4, lastPulse := some s.count }).setFld F.SCH_SYNC_STATUS_STATE 2
    | _ => s1.setSync { y with lastPulse := some s.count }

/-- No pulse within 2^21 tk of the previous one (R145, R151). -/
def pulseLost (s : State) : State :=
  match s.sync.lastPulse with
  | some t =>
    if s.source < 2 ∧ t + 2 ^ 21 ≤ s.count ∧ s.flag F.SCH_PULSE_OFS_SEEN then
      let s1 := (s.setFld F.SCH_PULSE_OFS_SEEN 0).report 0x0B 0
      if s.syncState = 2 then
        ((s1.setSync { s1.sync with holdAt := s.count, drifted := false, corr := 0 }).setFld F.SCH_SYNC_STATUS_STATE 3).report 0x09 0
      else s1
    else s
  | none => s



/-- TIME_REQ at count k × 2^20 + 2^19, once (R142, R148; log entry 83). -/
def askTime (s : State) : State :=
  match s.exchangePort with
  | some x =>
    if s.falls (2 ^ 20) (2 ^ 19) ∧ s.sync.asked ≠ some (s.count / 2 ^ 20) ∧ s.portUp x then
      (s.setSync { s.sync with asked := some (s.count / 2 ^ 20), t1 := none }).sendControl x
        { typ := Frame.TIME_REQ, payload := List.replicate 16 0 }
    else s
  | none => s

/-- The parent answers a TIME_REQ received at a time in 1/16 tk; one that came during a retry episode gets no answer
(R148). -/
def answerTime (s : State) (x : Nat) (p : Bytes) (time : Nat) : State :=
  s.onPort x fun n j =>
    if s.flag F.SLC_WLK_STAT_EPISODE n j then s
    else s.sendControl x
      { typ := Frame.TIME_RSP, payload := Machine.slice p 0 16 ++ leBytes 8 (time / 16) ++ leBytes 1 (time % 16) ++ List.replicate 15 0 }

/-- A timestamp of a time frame in 1/16 tk: count and fraction (R148). -/
def stampAt (p : Bytes) (o f : Nat) : Int := (leAt p o 8 * 16 + leAt p f 1 % 16 : Nat)

/-- A LINK Y5 goes to ACQUIRE from LOCKED or HOLDOVER (R146, R151). -/
def toAcquire (s : State) : State :=
  ((s.setSync { s.sync with good := 0, far := 0 }).setFld F.SCH_SYNC_STATUS_STATE 1).report 0x08 0

/-- The counter state machine on a valid exchange (R146). The second exchange over 4 tk, which takes LOCKED to ACQUIRE, applies a
correction itself, as one in ACQUIRE does (log entry 91). -/
def stepSync (s : State) (theta : Int) : State :=
  let y := s.sync
  let near := theta.natAbs < 16
  let ths := (theta :: y.thetas).take 4
  match s.syncState with
  | 0 => (s.setSync { y with load := some (roundTicks theta), thetas := [], good := 0, far := 0 }).setFld F.SCH_SYNC_STATUS_STATE 1
  | 1 =>
    if near then
      let s1 := s.setSync { y with thetas := ths, good := y.good + 1, corr := 0 }
      if 4 ≤ y.good + 1 then (s1.setSync { s1.sync with good := 0, far := 0 }).setFld F.SCH_SYNC_STATUS_STATE 2 else s1
    else s.setSync { y with thetas := ths, good := 0, corr := roundTicks theta }
  | 2 =>
    let far := if 64 < theta.natAbs then y.far + 1 else 0
    if 2 ≤ far then (s.setSync { y with thetas := ths, corr := roundTicks theta }).toAcquire
    else
      let sum := ths.foldl (fun a b => a + b) (0 : Int)
      let c : Int := if ths.length < 4 then 0 else if 32 ≤ sum then 1 else if sum ≤ -32 then -1 else 0
      s.setSync { y with thetas := ths, far := far, corr := c }
  | _ =>
    if near then (s.setSync { y with thetas := ths, far := 0, corr := 0 }).setFld F.SCH_SYNC_STATUS_STATE 2
    else (s.setSync { y with thetas := ths, corr := roundTicks theta }).toAcquire

/-- A TIME_RSP at a time in 1/16 tk by the own counter (R148, R149); one that comes at the deadline count itself is missed (log
entry 91). -/
def takeTime (s : State) (x : Nat) (p : Bytes) (time : Nat) : State :=
  s.onPort x fun n j =>
    match s.exchangePort, s.sync.asked, s.sync.t1 with
    | some y, some k, some t1 =>
      if x = y ∧ ¬ s.flag F.SLC_WLK_STAT_EPISODE n j ∧ stampAt p 0 8 = t1
        ∧ s.count < (k + 1) * 2 ^ 20 - 2 ^ 16 then
        let a := signedOf 16 (if s.flag F.SCH_SYNC_STATUS_ON_BACKUP then s.fld F.SCH_ASYM_BACKUP_ASYM
          else s.fld F.SCH_ASYM_PARENT_ASYM)
        let up := stampAt p 16 24 - t1
        let down := (time : Int) - stampAt p 25 33
        let theta := halfTowardZero (up - down - a)
        let delay := halfTowardZero (up + down)
        let s1 := (((s.setSync { s.sync with asked := none, t1 := none }).setFld F.SCH_SYNC_STATUS_MISSED 0).setFld
          F.SCH_OFFSET_THETA (unsignedOf 24 theta)).setFld F.SCH_OFFSET_VALID 1
        let s2 := s1.setFld F.SCH_PATH_DELAY_DELAY (unsignedOf 24 delay)
        if s.source = 2 then s2.stepSync theta
        else if 32 < theta.natAbs then s2.report 0x0C 0 else s2
      else s
    | _, _, _ => s

/-- An exchange is missed: four in a row lose the parent (R145, R148). It leaves the runs of near and of far exchanges as they are
(log entry 91). -/
def missExchange (s : State) : State :=
  match s.sync.asked with
  | some k =>
    if (k + 1) * 2 ^ 20 - 2 ^ 16 ≤ s.count then
      let m := min 4 (s.fld F.SCH_SYNC_STATUS_MISSED + 1)
      let s1 := (s.setSync { s.sync with asked := none, t1 := none }).setFld F.SCH_SYNC_STATUS_MISSED m
      if m = 4 then s1.parentLost else s1
    else s
  | none => s

/-- HOLD_EPOCHS epochs in HOLDOVER (R150). -/
def drift (s : State) : State :=
  if s.syncState = 3 ∧ ¬ s.sync.drifted
    ∧ s.sync.holdAt + clampTo 1 4095 (s.fld F.SCH_SYNC_CFG_HOLD_EPOCHS) * 2 ^ 20 ≤ s.count then
    (s.setSync { s.sync with drifted := true }).report 0x0A 0
  else s

end State

/-- COUNTER_END (R25): the counter is at its maximum and holds there. -/
def execCounterEnd (s : State) : Host.Outcome State Fault Refusal :=
  .next (if s.count = 2 ^ 64 - 1 then s.report 0x0E 0 else s)

/-- EPOCH_CORRECTION (R141). -/
def execEpochCorrection (s : State) : Host.Outcome State Fault Refusal := .next s.correct

/-- SYNC_IN_PULSE at a fraction of the tick in 1/16 (R146). -/
def execSyncInPulse (frac : Nat) (s : State) : Host.Outcome State Fault Refusal := .next (s.pulse frac)

/-- SCH_LOAD_ARM (R147). -/
def execSchLoadArm (s : State) : Host.Outcome State Fault Refusal := .next s.armLoad

/-- TIME_REQ_SEND (R148). -/
def execTimeReqSend (s : State) : Host.Outcome State Fault Refusal := .next s.askTime

/-- TIME_REQ_RX on a port, at a time in 1/16 tk (R148). -/
def execTimeReqRx (x : Nat) (payload : List (BitVec 8)) (time : Nat) (s : State) : Host.Outcome State Fault Refusal :=
  .next (s.answerTime x payload time)

/-- TIME_RSP_RX on a port, at a time in 1/16 tk (R149). -/
def execTimeRspRx (x : Nat) (payload : List (BitVec 8)) (time : Nat) (s : State) : Host.Outcome State Fault Refusal :=
  .next (s.takeTime x payload time)

/-- EXCHANGE_MISSED (R148). -/
def execExchangeMissed (s : State) : Host.Outcome State Fault Refusal := .next s.missExchange

/-- SYNC_IN_LOST (R151). -/
def execSyncInLost (s : State) : Host.Outcome State Fault Refusal := .next s.pulseLost

/-- SYNC_DRIFT (R150). -/
def execSyncDrift (s : State) : Host.Outcome State Fault Refusal := .next s.drift

end Sys2Proof.Machine
end

