-- ==== Sys2Proof/Machine/Receive.lean ====
section
/-! DEFINITION. A frame received on a port: framing, link acceptance, the checks of R229, admission (R134, R135, R229, R233,
R254, R267, R283, R327, R333, R337 to R342, R404). -/

namespace Sys2Proof.Machine

namespace State

/-! Framing (R327) -/

/-- A frame start lost: hunting, and an episode with its cause (R339). -/
def hunt (s : State) (n j x cause : Nat) : State :=
  (s.setFld F.SLC_WLK_STAT_HUNTING 1 n j).startEpisode n j x cause

/-- What a receiver in step or hunting makes of the bytes at a frame start: the frame goes on, or is discarded (checks 1
and 2 of R229). The answer is the parsed frame, its header, body and ICV. -/
def framing (s : State) (n j x : Nat) (raw : Bytes) (errored : Bool) : State × Option (Frame × Bytes × Bytes × Bytes) :=
  let h := raw.take 48
  let len := hdrLen h
  let f := parseHeader h (Machine.slice raw 48 len)
  let hcrc := decide (48 ≤ raw.length) && hcrcOk h && s.injected 4 x == 0
  let t := s.injectSpent 4 x
  let expected := !Frame.linkLocal f.typ && f.lseq == s.fld F.SLC_WLK_STAT_RX_EXPECT n j
  let late (a : State) (cause : Nat) : State := if expected then a.startEpisode n j x cause else a
  if s.flag F.SLC_WLK_STAT_HUNTING n j && !(hcrc && f.typ != 0) then (t, none)
  else if allZero (raw.take 16) then (s, none)
  else
    let u := t.setFld F.SLC_WLK_STAT_HUNTING 0 n j
    if !hcrc || errored then ((u.drop n 1).hunt n j x 2, none)
    else if 8192 < len then ((u.drop n 0).hunt n j x 2, none)
    else if !Frame.listed f.typ || !hdrRsvdOk h || !Frame.classOk f.typ f.cls || !Frame.lenOk f.typ len
        || raw.length != len + 64 then (late (u.drop n 0) 0, none)
    else
      let icv := Machine.slice raw (48 + len) 12
      let good := frameCrc h f.payload icv == beNat (Machine.slice raw (60 + len) 4) && s.injected 3 x == 0
      let v := u.injectSpent 3 x
      if good then (v, some (f, h, f.payload, icv)) else (late (v.drop n 1) 0, none)

/-- ACKSEQ and NACK of a header (R338, R339). -/
def headerAcks (s : State) (x : Nat) (f : Frame) : State := if f.nack then s.nackTo x f.ackseq else s.ackTo x f.ackseq

/-- A link-local frame (R331). -/
def linkLocalRx (s : State) (n j x : Nat) (f : Frame) (time : Nat) : State :=
  if f.typ = Frame.HELLO then s.helloRx x f.payload time
  else if s.portState x ≠ 4 then s
  else if f.typ = Frame.CREDIT then s.takeCredits x f.payload
  else if f.typ = Frame.NACK then (s.bump F.SLC_WLK_NACK_RX 1 n j).nackTo x f.ackseq
  else if f.typ = Frame.TIME_REQ then s.answerTime x f.payload time
  else if f.typ = Frame.TIME_RSP then s.takeTime x f.payload time
  else s

/-! Checks 3 to 6 -/

/-- A drop on receipt: its cause, RXD, and DROP_RX of a partition that has passed RETIRING (R288, R404). -/
def rxDrop (s : State) (n j cause : Nat) (f : Frame) : State :=
  let s1 := (s.drop n cause).wrap F.SLC_RXD_COUNT 1 n j f.cls
  let left := s.partState f.part == 4 || (s.partState f.part == 0 && s.fld F.SEC_PART_RM_DEADLINE f.part != 0)
  if (cause = 3 ∨ cause = 4) ∧ left then s1.bump F.SEC_PART_DROP_DROP_RX 1 f.part else s1

/-- A frame's charge on its pair, when it has the credit (R333): the pair, and whether credit lacked. -/
def charge (s : State) (x : Nat) (f : Frame) : State × Option Nat × Bool :=
  match s.pairOf x f with
  | none => (s, none, false)
  | some p =>
    let q := s.port x
    let r := readKey ({} : Credit) q.rx p
    if kib f.len ≤ (r.granted + 2 ^ 32 - r.used) % 2 ^ 32 then
      ((s.setPort x { q with rx := writeKey {} q.rx p { r with used := (r.used + kib f.len) % 2 ^ 32 } }).showCredit x p, some p,
       false)
    else (s, none, true)

/-- The charge of a frame that is discarded goes back (R234). -/
def refund (s : State) (x : Nat) (f : Frame) (pair : Option Nat) : State :=
  match pair with
  | some p => s.returnCredit x p (kib f.len)
  | none => s

/-- Checks 3 and 4: the frame as plaintext, or the drop cause (R342, R395, R397). -/
def decrypt (s : State) (x : Nat) (f : Frame) (h body icv : Bytes) : State × Except Nat Frame :=
  let exempt := f.typ == Frame.CMD && f.dest / 32 == s.coord && leAt body 1 1 == 0x30 && !f.enc
  let wants := s.linkEnc x f.part && !exempt
  if f.enc != wants then (s, .error 2)
  else if !wants then (s, .ok f)
  else
    let q := s.port x
    let e := f.part * 4 + f.keyEpoch
    let st := readKey 0 q.rxState e
    let bad := s.injected 5 x != 0
    let s1 := s.injectSpent 5 x
    match lookupKey q.rxKey e, st == 1 || st == 2 with
    | some k, true =>
      (match Config.gcmOpen k.key (k.salt ++ leBytes 4 0 ++ beBytes 4 f.fcount) h body icv with
       | some plain =>
         if bad || decide (f.fcount ≤ k.fcount) then (s1, .error 2)
         else
           ((s1.setPort x { q with rxKey := insertKey q.rxKey e { k with fcount := f.fcount } }).useEpoch x f.part f.keyEpoch,
            .ok { f with payload := plain })
       | none => (s1, .error 2))
    | _, _ => (s1, .error 3)

/-- Check 5 (R229, R336). -/
def partitionOk (s : State) (x : Nat) (f : Frame) : Bool := (Frame.command f.typ && s.fabric x) || s.carries x f.part

/-- The header as an edge port rewrites it (R254, R255), and the colour at minor version 0 (R341). -/
def edgeForm (s : State) (n j x : Nat) (f : Frame) : Frame :=
  let g := if s.fld F.SLC_WLK_STAT_EFF_MINOR n j = 0 then { f with colour := 0 } else f
  if s.fabric x then g
  else
    { g with src := s.helloAddr x, life := s.lifeNow, hop := s.fld F.SLC_RT_CFG_HOP_LIMIT n,
             dest := if g.typ = Frame.COLL then s.ownAddr else g.dest }

/-! Check 8 -/

/-- A REJECT frame to an endpoint (R134, R332, R340). -/
def rejectFrame (s : State) (n code : Nat) (f : Frame) : State :=
  s.originate n
    { typ := Frame.REJECT, cls := 6, part := f.part, dest := f.src, tag := f.tag, ctx := f.ctx, epoch := f.epoch, tile := f.tile,
      payload := leBytes 2 code ++ leBytes 1 f.typ ++ leBytes 1 f.cls ++ leBytes 4 0 }

/-- A frame counted in SCH_CTX_REJECT with its reason. -/
def countReject (s : State) (c rsn : Nat) : State := (s.bump F.SCH_CTX_REJECT_REJECT 1 c).setFld F.SCH_CTX_STATUS_REJ_RSN rsn c

/-- Whether this Y5 consumes a frame: Y5-addressed here, or one whose tiles the edge Y5 holds (R135, R331). -/
def consumes (s : State) (f : Frame) : Bool :=
  s.isLocal f && (Frame.y5Addressed f.typ || f.typ == Frame.COLL_XFER || f.typ == Frame.DISPATCH_END)

/-- Check 8: none when the frame passes, otherwise the state after its drop (R134, R135, R340). -/
def collectiveCheck (s : State) (n j x : Nat) (f : Frame) : Option State :=
  let dropped (a : State) : State := a.wrap F.SLC_RXD_COUNT 1 n j f.cls
  if Frame.collective f.typ then
    match s.ctxCheck f with
    | 1 => some (dropped (s.bump F.SEC_PVIOL_COUNT 1 x))
    | 2 => some (dropped (s.bump F.SCH_CTX_STALE_STALE 1 f.ctx))
    | _ =>
      if f.typ = Frame.COLL then
        let r := s.collCheck f (if s.fabric x then 32 else f.src % 32)
        if r = 0 then none else some ((dropped (s.countReject f.ctx r)).rejectFrame n r f)
      else if s.consumes f then
        let r := s.treeCheck f
        if r = 0 then none else some (dropped (s.countReject f.ctx r))
      else none
  else if f.typ = Frame.REQ ∧ ¬ s.fabric x then
    let q := s.port x
    let code := if 4096 ≤ q.tags.length then 0x42 else if (lookupKey q.tags f.tag).isSome then 0x49 else 0
    if code = 0 then none
    else some ((dropped (s.bump F.SLC_WLK_TAGREJ_COUNT 1 n j)).rejectFrame n code f)
  else none

/-- A REQ that passed check 8 holds its tag (R340). -/
def holdTag (s : State) (n j x : Nat) (f : Frame) : State :=
  if f.typ = Frame.REQ ∧ ¬ s.fabric x then
    let t := insertKey (s.port x).tags f.tag s.now
    (s.setPort x { s.port x with tags := t }).setFld F.SLC_WLK_TAG_OUTSTANDING t.length n j
  else s

/-! Where the frame goes -/

/-- The frame takes its staging and its copies ask for their buffers (R229 checks 9 and 10, R233, R244). A frame that is left
without a copy counts in RXD (R288). -/
def placeAll (s : State) (n j x : Nat) (f : Frame) (pair : Option Nat) (launch : Option Nat) (ps : List Placed) : State :=
  let g := s.serial
  let s1 : State := { s with serial := s.serial + 1,
                             arrivals := s.arrivals ++ [{ group := g, port := x, kib := kib f.len, pair := pair, staged := true,
                                                          lossy := (s.pairOf x f).isNone }] }
  let s3 := s1.askCopies n x g launch ps
  let s4 := if (s.outputsOf ps).isEmpty && !(lostOf ps).isEmpty then s3.wrap F.SLC_RXD_COUNT 1 n j f.cls else s3
  (s4.showStaging x).settle g

/-- A Y5-addressed frame that is not collective, taken here. A CMD waits in pool 16 until the engine takes it (R237,
R375). -/
def takeHere (s : State) (n j x : Nat) (f : Frame) (pair : Option Nat) : State :=
  let b := f.payload
  let done (a : State) : State := a.refund x f pair
  if f.typ = Frame.CMD then s.placeAll n j x f pair none [placedAt (.pool n) f]
  else if f.typ = Frame.ECHO_Y5 then done (s.takeEcho n f.part b)
  else if f.typ = Frame.ABORT_Y5 then
    (if s.ctxGranted f.ctx f.part && f.epoch != s.epoch f.ctx then
      done ((s.bump F.SCH_CTX_STALE_STALE 1 f.ctx).wrap F.SLC_RXD_COUNT 1 n j f.cls)
    else done (s.abortFrame f.ctx f.part f.epoch f.src))
  else if f.typ = Frame.MG_ACK then done (s.mgAckFrame f.src b)
  else if f.typ = Frame.CMD_RSP_Y5 then
    if pkForwarded b then done (s.takeForwarded b)
    else if pkOp b = 0x30 ∧ f.src = s.linkPeer x then done (s.linkAnswer x (pkPayload b))
    else done (s.relayAnswer b)
  else done s

/-- Where a frame for another place is routed to would take a fabric port (R267). -/
def leavesFabric (s : State) (n x : Nat) (f : Frame) : Bool :=
  match (s.route n x f).2 with
  | .out (.port y) => s.fabric y
  | _ => false

/-- A frame that has passed check 8: routed, metered, asked for or taken (checks 9 and 10). The copies of a metered frame carry
its colour (R285). -/
def dispose (s : State) (n j x : Nat) (f : Frame) (pair : Option Nat) : State :=
  if s.consumes f then
    let m := s.meter n j f
    let g := { f with colour := m.2 }
    if Frame.collective f.typ then
      let l := m.1.frameLaunch f
      let r := m.1.takeFrame n x g l
      ((if Frame.y5Addressed f.typ then r.1.oweEcho n f else r.1).placeAll n j x f pair (some l)
        (r.2.map fun p => { p with frame := { p.frame with colour := m.2 } })).checkDone f.ctx
    else (m.1.oweEcho n f).takeHere n j x g pair
  else
    let r := s.route n x f
    match r.2 with
    | .out o =>
      let m := r.1.meter n j f
      m.1.placeAll n j x f pair none [{ frame := { f with colour := m.2 }, route := .out o }]
    | .fails c => (r.1.rxDrop n j c f).refund x f pair
    | .here => r.1.refund x f pair

/-- A sequenced frame accepted at the link level, from check 3 on (R229). Lossy frames meet the staging and the drain
first (R229, R233, R249). -/
def accepted (s : State) (n j x : Nat) (f : Frame) (h body icv : Bytes) : State :=
  let c := s.charge x f
  let t := c.1
  let out (a : State) (cause : Nat) : State := (a.rxDrop n j cause f).refund x f c.2.1
  let lossy := (s.pairOf x f).isNone
  let room := s.fld F.SLC_STAGE_SIZE_KIB n j - s.fld F.SLC_STAGE_LOSSLESS_KIB n j
  if s.fld F.SLC_DRAIN_STATE n = 2 then out t 11
  else if lossy && s.fld F.SLC_DRAIN_STATE n == 1 then out t 11
  else if lossy && decide (room < s.lossyStaged x + kib f.len) then out t 8
  else
    match t.decrypt x f h body icv with
    | (a, .error cause) => out a cause
    | (a, .ok p) =>
      if !a.partitionOk x p then out (a.bump F.SEC_PVIOL_COUNT 1 x) 4
      else if c.2.2 then out a 13
      else
        let g := a.edgeForm n j x p
        if a.expired n g then out a 5
        else if g.hop == 0 && !a.consumes g && a.leavesFabric n x g then out a 6
        else
          match a.collectiveCheck n j x g with
          | some b => b.refund x f c.2.1
          | none => (a.holdTag n j x g).dispose n j x g c.2.1

/-- A sequenced frame with a good CRC (R337). RXF and RXB count it once, where it comes in order (R288; log entry 82). -/
def sequenced (s : State) (n j x : Nat) (f : Frame) (h body icv : Bytes) : State :=
  let e := s.fld F.SLC_WLK_STAT_RX_EXPECT n j
  if f.lseq = e then
    let s1 := (s.wrap F.SLC_RXF_COUNT 1 n j f.cls).wrap F.SLC_RXB_COUNT (f.len + 64) n j f.cls
    let s2 := (s1.setFld F.SLC_WLK_STAT_RX_EXPECT (e + 1) n j).endEpisode n j x
    (s2.setPort x { s2.port x with ackOwed := true }).accepted n j x f h body icv
  else
    let s2 := s.wrap F.SLC_WLK_DISC_COUNT 1 n j
    if seqLe f.lseq e then s2.setPort x { s2.port x with ackOwed := true } else s2.startEpisode n j x 1

/-- The bytes of a frame received on a port whose lanes run (R229, R327). `time` is the time of receipt at the connector in
1/16 tk. -/
def frameRx (s : State) (x : Nat) (raw : Bytes) (errored : Bool) (time : Nat) : State :=
  s.onPort x fun n j =>
    if !([3, 4, 5, 6, 8].contains (s.portState x)) then s
    else
      match s.framing n j x raw errored with
      | (a, none) => a
      | (a, some (f, h, body, icv)) =>
        let up := a.portState x = 4
        let b := if up then a.headerAcks x f else a
        if Frame.linkLocal f.typ then b.linkLocalRx n j x f time
        else if up then b.sequenced n j x f h body icv
        else b

end State

/-- FRAME_RX (R229). -/
def execFrameRx (x : Nat) (raw : List (BitVec 8)) (errored : Bool) (time : Nat) (s : State) :
    Host.Outcome State Fault Refusal := .next (s.frameRx x raw errored time)

end Sys2Proof.Machine
end

