-- ==== Sys2Proof/Machine/RegRows.lean ====
section
/-! DEFINITION. Writes and reads of the chip window: the effect of a write of each register, the core register files, core
SRAM and the commands REG_READ and REG_WRITE (R4, R8 to R10, R168, R191, R361, R364, R372). -/

namespace Sys2Proof.Machine

/-- The registers that show a core's register file (R191). -/
def isRegfile (r : RegName) : Bool := [RegName.RC_S, .RC_A, .RC_P, .RC_V].contains r

/-- A block of R378 or a core window holds the offset. -/
def mapped (off : Nat) : Bool :=
  decide (off < 0x800000) || (decide (0x1000000 ≤ off) && decide (off < 0x4000000)) ||
    (decide (0x10000000 ≤ off) && decide (off < 0x20000000))

/-- The bits of SCH_CTXc_CMD. -/
def ctxBits (v : Nat) : CtxBits :=
  { arm := bitOf v 0, cancel := bitOf v 1, abort := bitOf v 2, unbind := bitOf v 3, launches := BitVec.ofNat 16 (bitsOf v 16 16) }

namespace State

/-- A write of core n's register file (R191, R400). -/
def writeRegfile (s : State) (r : RegName) (v n j k : Nat) : State :=
  if s.coreState n = 5 ∧ s.debugState n = 2 then
    if r = .RC_P ∧ j = 0 then s else s.plainWrite r v n j k
  else s.setFld F.RC_STATUS_INSPECT_REFUSED 1 n

/-- A write of RCn_CTRL: BREAK_EN, then HALT_REQ, RESUME and STEP (R187, R189, R400; order: log entry 61). -/
def writeRcCtrl (s : State) (n v : Nat) : State :=
  let s1 := if bitOf v 3 && s.debugState n == 0 then s.setFld F.RC_STATUS_CMD_IGNORED 1 n
    else s.setFld F.RC_CTRL_BREAK_EN (bitsOf v 3 1) n
  let s2 := if bitOf v 0 then s1.haltReq n else s1
  let s3 := if bitOf v 1 then s2.resume n else s2
  if bitOf v 2 then s3.stepCore n else s3

/-- A write of SLCn_PORTj_CTRL: RETRAIN acts after EN (R305, R314, R324; log entry 61). -/
def writePortCtrl (s : State) (n j v : Nat) : State :=
  let s1 := s.setFld F.SLC_PORT_CTRL_LOCATE (bitsOf v 2 1) n j
  let s2 := if s1.fld F.SLC_PORT_CTRL_EN n j = bitsOf v 0 1 then s1
    else (s1.setFld F.SLC_PORT_CTRL_EN (bitsOf v 0 1) n j).enablePort n j (s1.lport n j)
  if bitOf v 1 then s2.retrainPort n j else s2

/-- A write of FC_SAFE (R412). -/
def writeSafe (s : State) (v : Nat) : State :=
  let s1 := if bitOf v 7 then s.setFld F.FC_SAFE_EXIT_REFUSED 0 else s
  if bitOf v 8 then s1.exitSafe else s1

/-- A write of MGT_BOARDi: VALID of the chip's own index stays 0 (R376). -/
def writeBoard (s : State) (i v : Nat) : State := s.plainWrite .MGT_BOARD (if i = s.ownChip then putBits v 12 1 0 else v) i 0 0

/-- A write of a register of the device, its port or its slices that does more than change fields; none when it does not. -/
def writeSpecial (s : State) (r : RegName) (v i j k : Nat) : Option State :=
  match r with
  | .GLB_FMASK_SLICE => some (s.writeMask32 r i v State.maskSlice)
  | .GLB_FMASK_PORT => some (s.writeMask32 r i v State.maskPort)
  | .GLB_FMASK_CORE => some (s.writeMask32 r i v State.maskCore)
  | .GLB_BOOT_CTRL => some s
  | .SCH_CTX_CMD => some (s.writeCtx i (ctxBits v))
  | .SCH_CTX_COMMIT => some (if bitOf v 0 then s.writeCtx i { go := true } else s)
  | .SCH_LOAD_CMD => some (if bitOf v 0 then s.armLoad else s)
  | .RC_CTRL => some (s.writeRcCtrl i v)
  | .RC_S | .RC_A | .RC_P | .RC_V => some (s.writeRegfile r v i j k)
  | .SLC_POOL_CMD => some (if bitOf v 0 then s.reclaim i j else s)
  | .SLC_RT_CMD => some (if bitOf v 0 then s.flush i else s)
  | .SLC_NBRM => some (s.writeMask j k (bitsOf v 8 8))
  | .SLC_RT_FLOW => some ((List.range 16).foldl (fun a n => a.plainWrite r v n 0 0) s)
  | .SLC_SHP_COMMIT => some (if bitOf v 0 then s.shpCommit i else s)
  | .SLC_QSAMP_CMD => some (if bitOf v 0 then s.clearMax i else s)
  | .SLC_QSHP => if j % 8 = 7 then some s else none
  | .SLC_PORT_CTRL => some (s.writePortCtrl i j v)
  | .SLC_PORT_TEST => some (s.writeTest i j (bitsOf v 0 2))
  | _ => none

/-- A write of a register of the image loader, the host port, the fault collector or the power block that does more than
change fields; none when it does not. -/
def writeControl (s : State) (r : RegName) (v i : Nat) : Option State :=
  match r with
  | .CFG_STAGE_CTRL => some (if bitOf v 0 then s.discardStage else s)
  | .CFG_COMMIT_CTRL => some (s.writeCommitCtrl v)
  | .MGT_SQ_TAIL => some (s.writeTail i (bitsOf v 0 16) [])
  | .MGT_QP_CTRL => some (s.writeQp i v)
  | .MGT_BOARD => some (s.writeBoard i v)
  | .FC_CTRL => some ((s.plainWrite r v i 0 0).rewrote 5)
  | .FC_ERR => some (s.writeErr v)
  | .FC_SEV => some (s.writeSev i (v % 2 ^ 32))
  | .FC_SAFE => some (s.writeSafe v)
  | .FC_INJ => some (s.writeInj v)
  | .FC_STAT => some (s.clearSources v)
  | .PWR_RST_CMD | .PWR_STANDBY | .PWR_COMMIT | .PWR_WDT => some (s.writePwr r v i)
  | _ => none

/-- A write of one register, whole (R8, R372). -/
def writeReg (s : State) (r : RegName) (v i j k : Nat) : State :=
  match s.writeSpecial r v i j k with
  | some t => t
  | none => match s.writeControl r v i with
    | some t => t
    | none => s.plainWrite r v i j k

/-- The links of neighbour entry (d, v) that are usable apart from MASK, as the bits of SLCn_NBRMd_v.UP (R256). -/
def linksUp (s : State) (n d v : Nat) : Nat :=
  ((s.links n d v).filter fun l => s.linkLive l.2).foldl (fun m l => m + 2 ^ l.1) 0

/-- What a read of one register returns: the register file is shown in IDLE and HALTED only (R191, R400), p0 reads all ones
(R170); UP of a neighbour entry shows the links as they are (R256, R271), ENABLED of a core the disabled-unit map (R28). -/
def readReg (s : State) (r : RegName) (i j k : Nat) : Nat :=
  if isRegfile r then
    if (s.coreState i = 1 ∨ s.coreState i = 5) ∧ s.debugState i ≠ 0 then
      if r = .RC_P ∧ j = 0 then 2 ^ 64 - 1 else s.rd r i j k
    else 0
  else if r = .SLC_NBRM then putBits (s.plainRead r i j k) 16 8 (s.linksUp i j k)
  else if r = .RC_ID then putBits (s.plainRead r i j k) 16 1 (b2n !(bitOf (s.rd .GLB_DISABLED_CORE (i / 32)) (i % 32)))
  else s.plainRead r i j k

/-- What a read of one register changes: a refused inspection shows (R191). -/
def readMark (s : State) (r : RegName) (i : Nat) : State :=
  if isRegfile r ∧ ¬ ((s.coreState i = 1 ∨ s.coreState i = 5) ∧ s.debugState i ≠ 0) then
    s.setFld F.RC_STATUS_INSPECT_REFUSED 1 i
  else s

/-! Core SRAM through the window -/

/-- A byte of core n lies in the parameter block copy that a launch in progress reads; the launch's context (R128). -/
def liveParam (s : State) (n a : Nat) : Option Nat :=
  (s.ctxs.find? fun e => e.2.active && (match (s.image.ctxX e.1).param with
    | some p =>
      let base := p + 0x40 * (s.lcount e.1 % 2)
      decide (base ≤ a) && decide (a < base + 0x30) && (s.bindingsOf e.1).any fun b => b.1 == n
    | none => false)).map (·.1)

/-- Bytes of one word, or fewer, written to the SRAM of core n at a local address (R165, R168, R128). -/
def writeWindow (s : State) (n a : Nat) (b : Bytes) : State :=
  if a < 0x10000 then s.setFld F.RC_STATUS_WIN_REFUSED 1 n
  else match s.liveParam n a with
    | some c => s.cmdIgnored c
    | none => s.writeSram n a b

/-- Bytes written in words of 4 at ascending local addresses. -/
def writeWindows (s : State) (n a : Nat) : (words : Nat) → Bytes → State
  | 0, _ => s
  | w + 1, b => (s.writeWindow n a (b.take 4)).writeWindows n (a + 4) w (b.drop 4)

/-! The register commands (R371, R372) -/

/-- The register that holds the 4-byte word at an offset, with its place and the low bit of the word in it. -/
def wordReg (off : Nat) : Option (RegName × Nat × Nat × Nat × Nat) :=
  match regAt off with
  | some (r, i, j, k) => some (r, i, j, k, 0)
  | none => match regAt (off - 4) with
    | some (r, i, j, k) => if r.row.width = 64 ∧ 4 ≤ off then some (r, i, j, k, 32) else none
    | none => none

/-- ADDR_ALIGN, then ADDR_UNMAPPED, then 0, for a range of words (R372). -/
def rangeStatus (off words : Nat) : Nat :=
  let last := off + 4 * words - 4
  let cutLow := match wordReg off with
    | some (_, _, _, _, lo) => lo == 32
    | none => false
  let cutHigh := match wordReg last with
    | some (r, _, _, _, lo) => lo == 0 && r.row.width == 64
    | none => false
  if off % 4 != 0 || cutLow || cutHigh then 5
  else if (List.range words).all fun w => mapped (off + 4 * w) then 0 else 4

/-- The value of the word at an offset. -/
def readWord (s : State) (off : Nat) : Nat :=
  if 0x10000000 ≤ off then leNat (s.sramShown ((off - 0x10000000) / 0x80000) (off % 0x80000) 4)
  else match wordReg off with
    | some (r, i, j, k, lo) => bitsOf (s.readReg r i j k) lo 32
    | none => 0

/-- What reading the word at an offset changes: a refused inspection shows, and the ECC check of a 64-bit SRAM word counts at
its first half read (R167, R191). -/
def markWord (s : State) (first off : Nat) : State :=
  if 0x10000000 ≤ off then
    if off % 8 = 0 ∨ off = first then s.noteUpsets ((off - 0x10000000) / 0x80000) (off % 0x80000) 4 else s
  else match wordReg off with
    | some (r, i, _, _, _) => s.readMark r i
    | none => s

/-- The registers and SRAM words of a range written in ascending address; a 64-bit register as one access (R372). -/
def writeRange (s : State) (off : Nat) : (words : Nat) → Bytes → State
  | 0, _ => s
  | w + 1, b =>
    let t := if 0x10000000 ≤ off then s.writeWindow ((off - 0x10000000) / 0x80000) (off % 0x80000) (b.take 4)
      else match wordReg off with
        | some (r, i, j, k, 0) => s.writeReg r (leNat (b.take (r.row.width / 8))) i j k
        | _ => s
    t.writeRange (off + 4) w (b.drop 4)

/-- REG_READ (R372). -/
def regRead (s : State) (c : TakenX) : State :=
  let n := c.arg
  let limit := if pkAuth c.bytes then 8128 else 8160
  if n = 0 ∨ n % 4 ≠ 0 ∨ limit < n then s.respond c 3
  else match rangeStatus c.offset (n / 4) with
    | 0 =>
      let offs := (List.range (n / 4)).map fun w => c.offset + 4 * w
      (offs.foldl (fun a o => a.markWord c.offset o) s).respond c 0 0 (offs.flatMap fun o => leBytes 4 (s.readWord o))
    | e => s.respond c e

/-- Whether a range of words meets the MGT queue registers, which only BAR0 writes (R364). -/
def queueRegs (off words : Nat) : Bool := decide (off < 0x608000) && decide (0x600000 < off + 4 * words)

/-- REG_WRITE (R372). -/
def regWrite (s : State) (c : TakenX) : State :=
  let n := c.payload.length
  if n = 0 ∨ n % 4 ≠ 0 then s.respond c 3
  else match rangeStatus c.offset (n / 4) with
    | 0 => if queueRegs c.offset (n / 4) then s.respond c 7 else (s.writeRange c.offset (n / 4) c.payload).respond c 0
    | e => s.respond c e

end State

/-- REGISTER_WRITE: a write of the register at an offset; a field with no row of its own takes the value under its access
code, a field that has one acts as its row does (R4, R8 to R10); an offset that holds no register ignores the write (R372). -/
def execRegisterWrite (off : BitVec 30) (value : BitVec 64) (s : State) : Host.Outcome State Fault Refusal :=
  .next (match regAt off.toNat with
    | some (r, i, j, k) => s.writeReg r value.toNat i j k
    | none => s)

/-- RC_REGFILE_WRITE: a write to the register file of a core at an offset of its RCn block (R191). -/
def execRcRegfileWrite (n : Nat) (off : BitVec 16) (value : BitVec 64) (s : State) : Host.Outcome State Fault Refusal :=
  .next (match regAt (0x2000000 + n * 0x10000 + off.toNat) with
    | some (r, i, j, k) => if isRegfile r then s.writeRegfile r value.toNat i j k else s
    | none => s)

/-- SRAM_WINDOW_WRITE: whole words to core n at a local address, rounded down to a multiple of 4 (R168). -/
def execSramWindowWrite (n : Nat) (addr : BitVec 19) (words : List (BitVec 32)) (s : State) :
    Host.Outcome State Fault Refusal :=
  .next (s.writeWindows n (addr.toNat / 4 * 4) (min words.length (0x20000 - addr.toNat / 4)) (words.flatMap fun w => leBytes 4 w.toNat))

/-- REG_READ (R372). -/
def execRegRead (s : State) : Host.Outcome State Fault Refusal := .next (s.run 0x02 State.regRead)

/-- REG_WRITE (R372). -/
def execRegWrite (s : State) : Host.Outcome State Fault Refusal := .next (s.run 0x03 State.regWrite)

end Sys2Proof.Machine
end

