-- ==== Sys2Proof/Machine/Dispatch.lean ====
section
/-! DEFINITION. One arm per command. -/

namespace Sys2Proof.Machine

open Sys2Proof

/-- The effect of a command on everything but the queue. -/
def exec (i : Instr) (s : State) : Host.Outcome State Fault Refusal :=
  match i with
  | .registerWrite off value => Sys2Proof.Machine.execRegisterWrite off value s
  | .counterEnd => Sys2Proof.Machine.execCounterEnd s
  | .fmaskSliceWrite value => Sys2Proof.Machine.execFmaskSliceWrite value s
  | .fmaskPortWrite k value => Sys2Proof.Machine.execFmaskPortWrite k value s
  | .fmaskCoreWrite k value => Sys2Proof.Machine.execFmaskCoreWrite k value s
  | .mgWindowEnd => Sys2Proof.Machine.execMgWindowEnd s
  | .mgDrain part => Sys2Proof.Machine.execMgDrain part s
  | .mgDrainResend part serial => Sys2Proof.Machine.execMgDrainResend part serial s
  | .mgAckRx src payload => Sys2Proof.Machine.execMgAckRx src payload s
  | .mgRead => Sys2Proof.Machine.execMgRead s
  | .mgAck => Sys2Proof.Machine.execMgAck s
  | .mgCheckpoint => Sys2Proof.Machine.execMgCheckpoint s
  | .checkpointSigned part => Sys2Proof.Machine.execCheckpointSigned part s
  | .ctxAlloc => Sys2Proof.Machine.execCtxAlloc s
  | .groupAlloc => Sys2Proof.Machine.execGroupAlloc s
  | .groupFree => Sys2Proof.Machine.execGroupFree s
  | .ctxCommitGo ctx w => Sys2Proof.Machine.execCtxCommitGo ctx w s
  | .ctxArm ctx w => Sys2Proof.Machine.execCtxArm ctx w s
  | .ctxCancel ctx w => Sys2Proof.Machine.execCtxCancel ctx w s
  | .ctxAbort ctx w => Sys2Proof.Machine.execCtxAbort ctx w s
  | .ctxUnbind ctx w => Sys2Proof.Machine.execCtxUnbind ctx w s
  | .launchStart ctx => Sys2Proof.Machine.execLaunchStart ctx s
  | .abortFrameRx ctx part epoch src => Sys2Proof.Machine.execAbortFrameRx ctx part epoch src s
  | .ctxTimeout ctx => Sys2Proof.Machine.execCtxTimeout ctx s
  | .resultReorderRelease port => Sys2Proof.Machine.execResultReorderRelease port s
  | .epochCorrection => Sys2Proof.Machine.execEpochCorrection s
  | .syncInPulse frac => Sys2Proof.Machine.execSyncInPulse frac s
  | .schLoadArm => Sys2Proof.Machine.execSchLoadArm s
  | .timeReqSend => Sys2Proof.Machine.execTimeReqSend s
  | .timeReqRx port payload time => Sys2Proof.Machine.execTimeReqRx port payload time s
  | .timeRspRx port payload time => Sys2Proof.Machine.execTimeRspRx port payload time s
  | .exchangeMissed => Sys2Proof.Machine.execExchangeMissed s
  | .syncInLost => Sys2Proof.Machine.execSyncInLost s
  | .syncDrift => Sys2Proof.Machine.execSyncDrift s
  | .slotStart port entry => Sys2Proof.Machine.execSlotStart port entry s
  | .slotSpanEnd slice => Sys2Proof.Machine.execSlotSpanEnd slice s
  | .schedSlip slice => Sys2Proof.Machine.execSchedSlip slice s
  | .coreStart core => Sys2Proof.Machine.execCoreStart core s
  | .bundleIssue core => Sys2Proof.Machine.execBundleIssue core s
  | .drainPointIssue core => Sys2Proof.Machine.execDrainPointIssue core s
  | .fadd at_ f => Sys2Proof.Machine.execFadd at_ f s
  | .fsub at_ f => Sys2Proof.Machine.execFsub at_ f s
  | .fmul at_ f => Sys2Proof.Machine.execFmul at_ f s
  | .fmin at_ f => Sys2Proof.Machine.execFmin at_ f s
  | .fmax at_ f => Sys2Proof.Machine.execFmax at_ f s
  | .fdiv at_ f => Sys2Proof.Machine.execFdiv at_ f s
  | .fsqrt at_ f => Sys2Proof.Machine.execFsqrt at_ f s
  | .fcvt at_ f => Sys2Proof.Machine.execFcvt at_ f s
  | .unpk at_ f => Sys2Proof.Machine.execUnpk at_ f s
  | .iadd at_ f => Sys2Proof.Machine.execIadd at_ f s
  | .isub at_ f => Sys2Proof.Machine.execIsub at_ f s
  | .imin at_ f => Sys2Proof.Machine.execImin at_ f s
  | .imax at_ f => Sys2Proof.Machine.execImax at_ f s
  | .vand at_ f => Sys2Proof.Machine.execVand at_ f s
  | .vor at_ f => Sys2Proof.Machine.execVor at_ f s
  | .vxor at_ f => Sys2Proof.Machine.execVxor at_ f s
  | .mov at_ f => Sys2Proof.Machine.execMov at_ f s
  | .bcast at_ f => Sys2Proof.Machine.execBcast at_ f s
  | .padd at_ f => Sys2Proof.Machine.execPadd at_ f s
  | .phloxExp at_ f => Sys2Proof.Machine.execPhloxExp at_ f s
  | .phloxCvt at_ f => Sys2Proof.Machine.execPhloxCvt at_ f s
  | .phloxNorm at_ f => Sys2Proof.Machine.execPhloxNorm at_ f s
  | .dotBlk16 at_ f => Sys2Proof.Machine.execDotBlk16 at_ f s
  | .dotBlk32 at_ f => Sys2Proof.Machine.execDotBlk32 at_ f s
  | .dotpBlk16 at_ f => Sys2Proof.Machine.execDotpBlk16 at_ f s
  | .dotpBlk32 at_ f => Sys2Proof.Machine.execDotpBlk32 at_ f s
  | .ldV at_ f => Sys2Proof.Machine.execLdV at_ f s
  | .stV at_ f => Sys2Proof.Machine.execStV at_ f s
  | .ldS at_ f => Sys2Proof.Machine.execLdS at_ f s
  | .stS at_ f => Sys2Proof.Machine.execStS at_ f s
  | .sstart at_ f => Sys2Proof.Machine.execSstart at_ f s
  | .swait at_ f => Sys2Proof.Machine.execSwait at_ f s
  | .srel at_ f => Sys2Proof.Machine.execSrel at_ f s
  | .endOp at_ f => Sys2Proof.Machine.execEndOp at_ f s
  | .sadd at_ f => Sys2Proof.Machine.execSadd at_ f s
  | .ssub at_ f => Sys2Proof.Machine.execSsub at_ f s
  | .smul at_ f => Sys2Proof.Machine.execSmul at_ f s
  | .sand at_ f => Sys2Proof.Machine.execSand at_ f s
  | .sor at_ f => Sys2Proof.Machine.execSor at_ f s
  | .sxor at_ f => Sys2Proof.Machine.execSxor at_ f s
  | .shl at_ f => Sys2Proof.Machine.execShl at_ f s
  | .shr at_ f => Sys2Proof.Machine.execShr at_ f s
  | .sra at_ f => Sys2Proof.Machine.execSra at_ f s
  | .movi at_ f => Sys2Proof.Machine.execMovi at_ f s
  | .aadd at_ f => Sys2Proof.Machine.execAadd at_ f s
  | .mova at_ f => Sys2Proof.Machine.execMova at_ f s
  | .movs at_ f => Sys2Proof.Machine.execMovs at_ f s
  | .pset at_ f => Sys2Proof.Machine.execPset at_ f s
  | .br at_ f => Sys2Proof.Machine.execBr at_ f s
  | .loop at_ f => Sys2Proof.Machine.execLoop at_ f s
  | .seTileWrite n k => Sys2Proof.Machine.execSeTileWrite n k s
  | .seFrameQueue n k => Sys2Proof.Machine.execSeFrameQueue n k s
  | .haltReq core => Sys2Proof.Machine.execHaltReq core s
  | .coreHalt core => Sys2Proof.Machine.execCoreHalt core s
  | .resume core => Sys2Proof.Machine.execResume core s
  | .stepCore core => Sys2Proof.Machine.execStepCore core s
  | .rcRegfileWrite n off value => Sys2Proof.Machine.execRcRegfileWrite n off value s
  | .sramWindowWrite n addr words => Sys2Proof.Machine.execSramWindowWrite n addr words s
  | .frameRx port raw errored time => Sys2Proof.Machine.execFrameRx port raw errored time s
  | .origAdmit slice => Sys2Proof.Machine.execOrigAdmit slice s
  | .pointerHandover slice => Sys2Proof.Machine.execPointerHandover slice s
  | .copyCommit slice second => Sys2Proof.Machine.execCopyCommit slice second s
  | .cacheRefill slice pool => Sys2Proof.Machine.execCacheRefill slice pool s
  | .audit slice => Sys2Proof.Machine.execAudit slice s
  | .auditWrite slice => Sys2Proof.Machine.execAuditWrite slice s
  | .reclaim slice pool => Sys2Proof.Machine.execReclaim slice pool s
  | .sliceEmpty n => Sys2Proof.Machine.execSliceEmpty n s
  | .drainDeadline n => Sys2Proof.Machine.execDrainDeadline n s
  | .echoY5Rx n part payload => Sys2Proof.Machine.execEchoY5Rx n part payload s
  | .echoWindowEnd => Sys2Proof.Machine.execEchoWindowEnd s
  | .rateRecovery => Sys2Proof.Machine.execRateRecovery s
  | .nbrMaskWrite dim coord mask => Sys2Proof.Machine.execNbrMaskWrite dim coord mask s
  | .flush slice => Sys2Proof.Machine.execFlush slice s
  | .flushDone => Sys2Proof.Machine.execFlushDone s
  | .tagTimeout port tag => Sys2Proof.Machine.execTagTimeout port tag s
  | .frameTxStart port => Sys2Proof.Machine.execFrameTxStart port s
  | .tokenRefill => Sys2Proof.Machine.execTokenRefill s
  | .shpCommit slice => Sys2Proof.Machine.execShpCommit slice s
  | .queueSample => Sys2Proof.Machine.execQueueSample s
  | .clearMax slice => Sys2Proof.Machine.execClearMax slice s
  | .laserPoll slice poll => Sys2Proof.Machine.execLaserPoll slice poll s
  | .codewordRx lane codeword => Sys2Proof.Machine.execCodewordRx lane codeword s
  | .alignTimeout port => Sys2Proof.Machine.execAlignTimeout port s
  | .helloTimeout port => Sys2Proof.Machine.execHelloTimeout port s
  | .keepaliveLoss port => Sys2Proof.Machine.execKeepaliveLoss port s
  | .retrainTimeout port => Sys2Proof.Machine.execRetrainTimeout port s
  | .holdExpiry port => Sys2Proof.Machine.execHoldExpiry port s
  | .helloSend port => Sys2Proof.Machine.execHelloSend port s
  | .helloRx port payload time => Sys2Proof.Machine.execHelloRx port payload time s
  | .portEnWrite slice j en => Sys2Proof.Machine.execPortEnWrite slice j en s
  | .portRetrain slice j => Sys2Proof.Machine.execPortRetrain slice j s
  | .portLocate slice j on => Sys2Proof.Machine.execPortLocate slice j on s
  | .portTestWrite slice j mode => Sys2Proof.Machine.execPortTestWrite slice j mode s
  | .loopRefused port => Sys2Proof.Machine.execLoopRefused port s
  | .freqWindow port ppb => Sys2Proof.Machine.execFreqWindow port ppb s
  | .lsrCtrlWrite slice en outEn => Sys2Proof.Machine.execLsrCtrlWrite slice en outEn s
  | .ledFrame => Sys2Proof.Machine.execLedFrame s
  | .servicePress ms => Sys2Proof.Machine.execServicePress ms s
  | .locateExpiry => Sys2Proof.Machine.execLocateExpiry s
  | .ackRx port ackseq => Sys2Proof.Machine.execAckRx port ackseq s
  | .ackSend port => Sys2Proof.Machine.execAckSend port s
  | .nackRx port ackseq frame => Sys2Proof.Machine.execNackRx port ackseq frame s
  | .retryTimeout port => Sys2Proof.Machine.execRetryTimeout port s
  | .retryEpisodeExpiry port => Sys2Proof.Machine.execRetryEpisodeExpiry port s
  | .creditRx port payload => Sys2Proof.Machine.execCreditRx port payload s
  | .creditSend port all => Sys2Proof.Machine.execCreditSend port all s
  | .imgBegin => Sys2Proof.Machine.execImgBegin s
  | .imgChunk => Sys2Proof.Machine.execImgChunk s
  | .imgValidate => Sys2Proof.Machine.execImgValidate s
  | .validationDone => Sys2Proof.Machine.execValidationDone s
  | .imgStore => Sys2Proof.Machine.execImgStore s
  | .discard => Sys2Proof.Machine.execDiscard s
  | .commitArm value => Sys2Proof.Machine.execCommitArm value s
  | .commitNow value => Sys2Proof.Machine.execCommitNow value s
  | .commitCancel value => Sys2Proof.Machine.execCommitCancel value s
  | .imageCommit => Sys2Proof.Machine.execImageCommit s
  | .bootImageLoad => Sys2Proof.Machine.execBootImageLoad s
  | .sqTailWrite q tail slots => Sys2Proof.Machine.execSqTailWrite q tail slots s
  | .cqHeadWrite q head => Sys2Proof.Machine.execCqHeadWrite q head s
  | .qpEnWrite q value => Sys2Proof.Machine.execQpEnWrite q value s
  | .commandTake => Sys2Proof.Machine.execCommandTake s
  | .cmdRx port src payload => Sys2Proof.Machine.execCmdRx port src payload s
  | .nop => Sys2Proof.Machine.execNop s
  | .regRead => Sys2Proof.Machine.execRegRead s
  | .regWrite => Sys2Proof.Machine.execRegWrite s
  | .forwardCommand => Sys2Proof.Machine.execForwardCommand s
  | .fwdResponse payload => Sys2Proof.Machine.execFwdResponse payload s
  | .fwdTimeout entry => Sys2Proof.Machine.execFwdTimeout entry s
  | .perst => Sys2Proof.Machine.execPerst s
  | .spdmMsg => Sys2Proof.Machine.execSpdmMsg s
  | .spdmVdmRx message => Sys2Proof.Machine.execSpdmVdmRx message s
  | .secReport => Sys2Proof.Machine.execSecReport s
  | .secOpkey => Sys2Proof.Machine.execSecOpkey s
  | .debugSet => Sys2Proof.Machine.execDebugSet s
  | .partRemove => Sys2Proof.Machine.execPartRemove s
  | .removalDrained p => Sys2Proof.Machine.execRemovalDrained p s
  | .removalDeadline p => Sys2Proof.Machine.execRemovalDeadline p s
  | .retiringDone p => Sys2Proof.Machine.execRetiringDone p s
  | .zeroiseDone p => Sys2Proof.Machine.execZeroiseDone p s
  | .linkRekey => Sys2Proof.Machine.execLinkRekey s
  | .rekeyReqRx x p gen => Sys2Proof.Machine.execRekeyReqRx x p gen s
  | .rekeyAckRx x p gen => Sys2Proof.Machine.execRekeyAckRx x p gen s
  | .linkSessionRetry x => Sys2Proof.Machine.execLinkSessionRetry x s
  | .faultRaise fault => Sys2Proof.Machine.execFaultRaise fault s
  | .fcStatClear mask => Sys2Proof.Machine.execFcStatClear mask s
  | .safeExit => Sys2Proof.Machine.execSafeExit s
  | .sevWrite k value => Sys2Proof.Machine.execSevWrite k value s
  | .fcErrWrite value => Sys2Proof.Machine.execFcErrWrite value s
  | .errPulseEnd => Sys2Proof.Machine.execErrPulseEnd s
  | .fcInjGo value => Sys2Proof.Machine.execFcInjGo value s
  | .evtRead => Sys2Proof.Machine.execEvtRead s
  | .evtAck => Sys2Proof.Machine.execEvtAck s
  | .telSnapshot => Sys2Proof.Machine.execTelSnapshot s
  | .snapshotCapture => Sys2Proof.Machine.execSnapshotCapture s
  | .telRead => Sys2Proof.Machine.execTelRead s
  | .vinPowerUp volt => Sys2Proof.Machine.execVinPowerUp volt s
  | .vinPowerDown volt => Sys2Proof.Machine.execVinPowerDown volt s
  | .railUp r m => Sys2Proof.Machine.execRailUp r m s
  | .railWindowMiss r => Sys2Proof.Machine.execRailWindowMiss r s
  | .railTrip r current => Sys2Proof.Machine.execRailTrip r current s
  | .pllLock locked => Sys2Proof.Machine.execPllLock locked s
  | .smbusRegRead off pec => Sys2Proof.Machine.execSmbusRegRead off pec s
  | .smbusRegWrite off data pec => Sys2Proof.Machine.execSmbusRegWrite off data pec s
  | .railClear r pec => Sys2Proof.Machine.execRailClear r pec s
  | .powerCycle data pec => Sys2Proof.Machine.execPowerCycle data pec s
  | .warmReset data pec => Sys2Proof.Machine.execWarmReset data pec s
  | .pwrCommit go => Sys2Proof.Machine.execPwrCommit go s
  | .plevelSwitch n settled => Sys2Proof.Machine.execPlevelSwitch n settled s
  | .capLower vin => Sys2Proof.Machine.execCapLower vin s
  | .fastTrip vin => Sys2Proof.Machine.execFastTrip vin s
  | .capRaise vin => Sys2Proof.Machine.execCapRaise vin s
  | .thermSample n temp => Sys2Proof.Machine.execThermSample n temp s
  | .sliceWake n => Sys2Proof.Machine.execSliceWake n s
  | .wakeComplete n => Sys2Proof.Machine.execWakeComplete n s
  | .standbyReq value => Sys2Proof.Machine.execStandbyReq value s
  | .standbyExit value => Sys2Proof.Machine.execStandbyExit value s
  | .brownout => Sys2Proof.Machine.execBrownout s
  | .refclkLoss pll => Sys2Proof.Machine.execRefclkLoss pll s
  | .refclkReturn => Sys2Proof.Machine.execRefclkReturn s
  | .rstCmdWarm value => Sys2Proof.Machine.execRstCmdWarm value s
  | .rstCmdMp value => Sys2Proof.Machine.execRstCmdMp value s
  | .rstCmdSlice value => Sys2Proof.Machine.execRstCmdSlice value s
  | .powerOnReset => Sys2Proof.Machine.execPowerOnReset s
  | .deviceWarmReset => Sys2Proof.Machine.execDeviceWarmReset s
  | .sliceReset n => Sys2Proof.Machine.execSliceReset n s
  | .mpReset => Sys2Proof.Machine.execMpReset s
  | .wdtKick => Sys2Proof.Machine.execWdtKick s
  | .wdtExpiry => Sys2Proof.Machine.execWdtExpiry s
  | .romBoot service => Sys2Proof.Machine.execRomBoot service s
  | .healthConfirm => Sys2Proof.Machine.execHealthConfirm s
  | .confirmWriteDone => Sys2Proof.Machine.execConfirmWriteDone s
  | .confirmTimerExpiry => Sys2Proof.Machine.execConfirmTimerExpiry s
  | .recInfo => Sys2Proof.Machine.execRecInfo s
  | .recChunk => Sys2Proof.Machine.execRecChunk s
  | .recInstall => Sys2Proof.Machine.execRecInstall s
  | .recExit => Sys2Proof.Machine.execRecExit s
  | .fwBegin => Sys2Proof.Machine.execFwBegin s
  | .fwChunk => Sys2Proof.Machine.execFwChunk s
  | .fwEnd => Sys2Proof.Machine.execFwEnd s
  | .fwRelay => Sys2Proof.Machine.execFwRelay s
  | .fwDiscard => Sys2Proof.Machine.execFwDiscard s
  | .fwSvnCommit => Sys2Proof.Machine.execFwSvnCommit s
  | .settingsRead => Sys2Proof.Machine.execSettingsRead s
  | .settingsWrite => Sys2Proof.Machine.execSettingsWrite s
  | .relayResponse payload => Sys2Proof.Machine.execRelayResponse payload s
  | .relayRetry => Sys2Proof.Machine.execRelayRetry s
  | .sliceDrainStart n => Sys2Proof.Machine.execSliceDrainStart n s
  | .standbyEntered => Sys2Proof.Machine.execStandbyEntered s
  | .hostLinkUp width speed => Sys2Proof.Machine.execHostLinkUp width speed s
  | .tapAccess => Sys2Proof.Machine.execTapAccess s
  | .backgroundCommandDone index ok => Sys2Proof.Machine.execBackgroundCommandDone index ok s
  | .frameTxEnd port => Sys2Proof.Machine.execFrameTxEnd port s
  | .codeRegionReload n => Sys2Proof.Machine.execCodeRegionReload n s

end Sys2Proof.Machine
end

