-- ==== Sys2Proof/Machine/Tick.lean ====
section
/-! DEFINITION. One tick of the clock (R7, R25, R141, R160, R270, R301, R407, R414, R418, R451): what happens on an empty
command queue. It is a DESIGN CHOICE of the model (log entry 2). -/

namespace Sys2Proof.Machine

namespace State

/-- The reference clock runs: the device is in SEQ 2 to 4 and the clock is present (R435, R438). -/
def clocked (s : State) : Bool := [2, 3, 4].contains (s.fld F.PWR_STATUS_SEQ) && !s.pwr.refLost

/-- SCH_COUNT counts, holds at its maximum (R25), or stands for a backward correction (R141); the counts it reaches are new in
this tick (R142). -/
def advanceCount (s : State) : State :=
  if s.sync.hold ≠ 0 then s.setSync { s.sync with hold := s.sync.hold - 1, since := s.count + 1 }
  else (s.setSync { s.sync with since := s.count + 1 }).setCount (s.count + 1)

/-- A paused slice's lag and pause time grow (R160). -/
def lagTick (s : State) (n : Nat) : State :=
  if s.flag F.SCH_LAG_PAUSED n then (s.bump F.SCH_LAG_LAG 1 n).bump F.SCH_PAUSE_PAUSED_TK 1 n else s

/-- What the slot clock of a slice has reached by the end of a tick (R161). -/
def noteSlots (s : State) (n : Nat) : State :=
  s.setSlice n { s.slice n with slotFrom := s.slotClock n + 1 }

/-- Each Adaptive context's limiter gains RATE (R270). -/
def fillLimiter (s : State) (c : Nat) : State :=
  if s.scheduled c then s
  else { s with limiter := writeKey 0 s.limiter c (min 132096 (readKey 0 s.limiter c + s.fld F.SCH_CTX_RATE_RATE c)) }

/-- Core cycles that end in the tick at a local time, at a level (R192). -/
def cyclesIn (level now : Nat) : Nat :=
  let f := 20 - 4 * level
  (now + 1) * f / 10 - now * f / 10

/-- The clock of a core that issues nothing runs on through a tick: RCn_CYCLE counts, and what was issued takes effect; a
core that runs moves by its own rows (R176, R192; log entry 71). The clocks of a slice in S1 or deeper are gated. -/
def clockCore (s : State) (n now : Nat) : State :=
  let k := cyclesIn (s.fld F.PWR_SLICE_STAT_PLVL (n / 32)) now
  if s.fld F.PWR_SLICE_STAT_STATE (n / 32) ≤ 1 ∧ (s.coreState n = 1 ∨ s.coreState n = 4 ∨ s.coreState n = 5) then s.runCycles n k
  else s

/-- An alignment marker leaves every port of the image (R295, R301). -/
def sendMarkers (s : State) : State := s.allPorts.foldl (fun a x => a.onPort x fun n j => a.amSent n j x) s

/-- Raises under way reach the collector, as many as stand at the start of the tick (R407). -/
def deliverAll (s : State) : State := s.fc.wires.foldl (fun a _ => a.deliverRaise) s

/-- Whether an alignment marker falls in the tick that begins at a local time: one in 262,144 / 5 tk (log entry 17). -/
def markerDue (now : Nat) : Bool := (now + 1) * 5 / 262144 != now * 5 / 262144

/-- The codewords of a period that ends in the tick (R294, R303; log entry 99). -/
def sendCodewords (s : State) (now : Nat) : State :=
  if codewordDue now then s.allPorts.foldl (fun a x => a.sendPeriod x (markerDue now) (firstOfPair now)) s else s

/-- Credits received in the tick before reach every port (R334). -/
def grantAll (s : State) : State := (s.ports.map (·.1)).foldl applyCredits s

/-- Ports that heard of each other in an earlier tick come up (R309). -/
def bringUp (s : State) : State := s.allPorts.foldl (fun a x => a.onPort x fun n j => a.tryUp n j x) s

/-- One tick (log entry 2). -/
def tick (s : State) : State :=
  if s.clocked then
    let now := s.pwr.now
    let s0 : State := (List.range 16).foldl noteSlots { s.closeTick.endPauses with ctxWrites := [] }
    let s1 : State := { s0.advanceCount with pwr := { s0.pwr with now := now + 1 } }
    let s2 := s1.grantedCtxs.foldl fillLimiter ((List.range 16).foldl lagTick ((List.range 512).foldl (fun a n =>
      a.clockCore n now) s1))
    let s3 := ((if markerDue now then s2.sendMarkers else s2).sendCodewords now).bringUp.grantAll.cutRates
    s3.checkSelf.eventTick.deliverAll.countConfirm.startDraining
  else s

end State

end Sys2Proof.Machine
end

