-- ==== Sys2Proof/Safety.lean ====
section
/-! DEFINITION. What claims about runs are stated in: the canonical form of the stores, the outcomes of a command, what a
command leaves alone. -/

namespace Sys2Proof.Machine

/-- Core SRAM is in its canonical form: addresses strictly rising, no byte listed that reads as an unlisted one does. -/
def Memory.wf (m : List Host.Cell) : Bool := storeWf 0#8 m

/-- The registers, their shadows and core SRAM are in canonical form, so that equal contents are equal data. -/
def State.Inv (s : State) : Prop := storeWf 0#64 s.regs = true ∧ storeWf 0#64 s.shadow = true ∧ Memory.wf s.mem = true

/-- From o to t the queue stays as it is and the stores stay canonical. -/
def Keeps (o t : State) : Prop := t.pending = o.pending ∧ (o.Inv → t.Inv)

/-- An outcome is a next state that keeps what Keeps says of o. -/
def KeepsOut (o : State) (r : Host.Outcome State Fault Refusal) : Prop := ∃ t, r = .next t ∧ Keeps o t

/-- The command at the head of the taken ones, when it is for this chip and its opcode is op, is answered by f; otherwise the
row leaves the Y5 as it is. -/
def Answers (i : Instr) (op : Nat) (f : State → TakenX → State) : Prop :=
  ∀ s : State, exec i s = .next (match s.cmd.taken with
    | c :: rest =>
      if c.op = op ∧ pkChip c.bytes = s.ownChip then f { s with cmd := { s.cmd with taken := rest } } c else s
    | [] => s)

/-- A core that can issue: RUNNING, no halt certain (R186, R226). -/
def State.issues (s : State) (n : Nat) : Prop := s.coreState n = 3 ∧ (s.core n).halting = none

/-- The fault that an operation of a bundle of its own meets at issue: its slot, reason and info (R228). -/
def State.faultAt (s : State) (p : IssueAt) (opcode w : Nat) : Option (Nat × Nat × Nat) :=
  s.rowFault p.core p.ext.toNat ⟨slotNum p.slot, opcode, w⟩

/-- On a core that issues, an operation that faults at issue halts the core with its fault, and one that does not has the
effect eff on the state, given the core, EXT and its fields, its writes carrying its slot; a core that does not issue stays as it is. -/
def IssuesAs {F : Type} (i : IssueAt → F → Instr) (opcode : Nat) (bits : F → Nat) (eff : State → Nat → Nat → F → State) : Prop :=
  ∀ (p : IssueAt) (f : F) (s : State), exec (i p f) s = .next (
    if s.coreState p.core = 3 ∧ (s.core p.core).halting = none then
      match s.faultAt p opcode (bits f) with
      | some r => s.issueFault p.core ⟨[⟨slotNum p.slot, opcode, bits f⟩], 0, p.ext.toNat, 6⟩ r
      | none => (eff s p.core p.ext.toNat f).tagSlot p.core (s.core p.core).writes.length (slotNum p.slot)
    else s)

/-- A row whose effect stays in the records of the cores: its state differs in nothing else. -/
def OnlyCores {F : Type} (i : IssueAt → F → Instr) (opcode : Nat) (bits : F → Nat) : Prop :=
  ∀ (p : IssueAt) (f : F) (s t : State), s.faultAt p opcode (bits f) = none → exec (i p f) s = .next t →
    t = { s with cores := t.cores }

/-- A state reached from the reset state by commands given to its queue and by steps. -/
inductive Reached : State → Prop where
  | reset : Reached State.reset
  | command (s : State) (c : Instr) (h : Reached s) : Reached { s with pending := s.pending ++ [c] }
  | step (s t : State) (h : Reached s) (e : step s = .next t) : Reached t

end Sys2Proof.Machine
end

