-- ==== Sys2Proof/Certificates/Slice0/Obligations.lean ====
section
/-! DEFINITION. The statements for the provers. -/

open Sys2Proof Sys2Proof.Machine

/-! Values that operations of the cores compute, from the fields of their encodings (R198) -/

/-- The bytes of two registers combined element by element, w bits each. -/
def Sys2Proof.Claims.elems (w : Nat) (g : Nat → Nat → Nat) (a b : Bytes) : Bytes :=
  (List.range (2048 / w)).flatMap fun i => leBytes (w / 8) (g (leAt a (i * (w / 8)) (w / 8)) (leAt b (i * (w / 8)) (w / 8)))

/-- Elements of two registers in a float format, combined and rounded once to nearest even (R205). -/
def Sys2Proof.Claims.floats (fm : Fmt) (lanes : Nat) (g : FV → FV → FV) (reports : Bool) (a b : Bytes) : Bytes × Bool :=
  elementwise fm lanes fun i =>
    let x := fm.value (elemAt fm a i)
    let y := fm.value (elemAt fm b i)
    let r := fromFinite x y (roundTo fm .rne (g x y))
    ⟨r.bits, r.ovf && reports⟩

/-- A register result w cycles on, for the lanes of PM (R172, R173), with the overflow it reports (R98). -/
def Sys2Proof.Claims.vecOut (s : State) (n w : Nat) (f : VForm) (r : Bytes × Bool) : State :=
  (s.later n w (.vec f.vd.toNat (maskLanes (s.preg n f.pm.toNat) r.1))).noteOp n r.2 0

/-- A signed immediate of w bits, extended above by EXT when x is 1 (R200). -/
def Sys2Proof.Claims.imm (w : Nat) (x : BitVec 1) (v ext : Nat) : Int :=
  if x = 1#1 then signedOf (w + 8) (v + ext * 2 ^ w) else signedOf w v

/-- The second operand of a scalar operation (R224). -/
def Sys2Proof.Claims.second (s : State) (n ext : Nat) (f : RForm) : Nat :=
  if f.i = 1#1 then unsignedOf 64 (Claims.imm 14 f.x f.low.toNat ext) else s.sreg n (f.low.toNat / 512)

/-- A scalar result w cycles on. -/
def Sys2Proof.Claims.scalarOut (w : Nat) (g : Nat → Nat → Nat) (s : State) (n ext : Nat) (f : RForm) : State :=
  s.later n w (.scalar f.rd.toNat (g (s.sreg n f.ra.toNat) (Claims.second s n ext f) % 2 ^ 64))

/-- The address of a load or store (R219). -/
def Sys2Proof.Claims.place (s : State) (n ext : Nat) (f : MForm) : Nat :=
  unsignedOf 32 ((s.areg n f.a.toNat : Int) + Claims.imm 11 f.x f.ofs.toNat ext * (2 ^ f.size.toNat : Nat))

/-- A store seen by loads from two cycles on (R166). -/
def Sys2Proof.Claims.storeOut (s : State) (n a : Nat) (b : Bytes) : State :=
  s.setCore n { s.core n with stores := (s.core n).stores ++ [⟨s.cycle n + 2, a, b⟩] }

/-- The bytes of a load go to a destination in cycle 3; the words it reads are checked, and one with an uncorrectable error,
its own or injected, halts the core instead (R167, R188, R419). -/
def Sys2Proof.Claims.loadOut (s : State) (n a : Nat) (size : Nat) (d : Bytes → Dst) : State :=
  if s.badRead n a size then (s.noteRead n a size).halting n ⟨4, 0, 0x0C, 2, true, s.fld F.RC_PC_PC n⟩
  else (s.noteRead n a size).later n 3 (d (s.sramBytes n a size))

/-- A drain-point operation (R176, R221, R223): while earlier operations are in flight it waits, and is kept as what issues
next; then it faults, waits for its stream condition, or issues, with the effect g. -/
def Sys2Proof.Claims.drainPoint (opcode w : Nat) (g : State → State) (p : IssueAt) (s : State) : State :=
  let o : Slotted := ⟨slotNum p.slot, opcode, w⟩
  let held := s.setCore p.core { s.core p.core with waitOp := some ⟨o.slot, opcode, w, p.ext.toNat⟩ }
  let gone := s.setCore p.core { s.core p.core with waitOp := none }
  let ready := streamReady s p.core p.ext.toNat o
  if s.coreState p.core = 3 ∧ (s.core p.core).halting = none then
    if s.inFlight p.core then held.waitAt p.core o ready
    else
      match s.faultAt p opcode w with
      | some r => gone.issueFault p.core ⟨[o], 0, p.ext.toNat, 6⟩ r
      | none => if ready then g ((gone.setFld F.RC_STATUS_STATE 3 p.core).clearWait p.core) else held.waitAt p.core o false
  else s

/-- A branch that is a bundle of its own (R225): on a core that issues it faults, or has its effect, and then
comes the next bundle: TARGET two cycles on when taken, the one that follows one cycle on when not. -/
def Sys2Proof.Claims.branch (opcode : Nat) (taken : State → Nat → BForm → Bool) (eff : State → Nat → BForm → State)
    (p : IssueAt) (f : BForm) (s : State) : State :=
  let n : Nat := p.core
  if s.coreState n = 3 ∧ (s.core n).halting = none then
    let t := match s.faultAt p opcode f.bits with
      | some r => s.issueFault n ⟨[⟨slotNum p.slot, opcode, f.bits⟩], 0, p.ext.toNat, 6⟩ r
      | none => (eff s n f).tagSlot n (s.core n).writes.length (slotNum p.slot)
    if (t.core n).halting ≠ none then t
    else if taken s n f then ((t.setCore n { t.core n with pcOver := false }).setFld F.RC_PC_PC f.target.toNat n).runCycles n 2
    else t.runCycles n 1
  else s

/-- Bits, of the low w, that a write of 1s sets anew. -/
def Sys2Proof.Claims.newBits (w old v : Nat) : List Nat := (List.range w).filter fun b => bitOf v b && !bitOf old b

/-! The core: results -/

/-- R205: the float operations of one pass compute element by element, round once, and write the lanes of PM of VD. -/
def Obligations.FloatResults : Prop :=
  IssuesAs .fadd 0x01 VForm.bits (fun s n _ f => Claims.vecOut s n (s.byTiming 3 2) f
    (Claims.floats (fmtOf (f.fn.toNat % 16)) (s.preg n f.pm.toNat) FV.add true (s.vreg n f.va.toNat) (s.vreg n f.vb.toNat)))
  ∧ IssuesAs .fsub 0x02 VForm.bits (fun s n _ f => Claims.vecOut s n (s.byTiming 3 2) f
    (Claims.floats (fmtOf (f.fn.toNat % 16)) (s.preg n f.pm.toNat) (fun x y => x.add y.negate) true (s.vreg n f.va.toNat)
      (s.vreg n f.vb.toNat)))
  ∧ IssuesAs .fmul 0x03 VForm.bits (fun s n _ f => Claims.vecOut s n (s.byTiming 4 3) f
    (Claims.floats .fp32 (s.preg n f.pm.toNat) FV.mul true (s.vreg n f.va.toNat) (s.vreg n f.vb.toNat)))
  ∧ IssuesAs .fdiv 0x06 VForm.bits (fun s n _ f => (Claims.vecOut s n (s.byTiming 24 20) f
    (Claims.floats .fp32 (s.preg n f.pm.toNat) FV.div false (s.vreg n f.va.toNat) (s.vreg n f.vb.toNat))).occupy n 1 4)
  ∧ IssuesAs .fsqrt 0x07 VForm.bits (fun s n _ f => (Claims.vecOut s n (s.byTiming 20 16) f
    (Claims.floats .fp32 (s.preg n f.pm.toNat) (fun x _ => x.sqrt) false (s.vreg n f.va.toNat) (s.vreg n f.vb.toNat))).occupy n 1 4)
  ∧ IssuesAs .fmin 0x04 VForm.bits (fun s n _ f => Claims.vecOut s n 2 f
    (elementwise (fmtOf (f.fn.toNat % 16)) (s.preg n f.pm.toNat) fun i => ⟨minMax (fmtOf (f.fn.toNat % 16)) false
      (elemAt (fmtOf (f.fn.toNat % 16)) (s.vreg n f.va.toNat) i) (elemAt (fmtOf (f.fn.toNat % 16)) (s.vreg n f.vb.toNat) i), false⟩))
  ∧ IssuesAs .fmax 0x05 VForm.bits (fun s n _ f => Claims.vecOut s n 2 f
    (elementwise (fmtOf (f.fn.toNat % 16)) (s.preg n f.pm.toNat) fun i => ⟨minMax (fmtOf (f.fn.toNat % 16)) true
      (elemAt (fmtOf (f.fn.toNat % 16)) (s.vreg n f.va.toNat) i) (elemAt (fmtOf (f.fn.toNat % 16)) (s.vreg n f.vb.toNat) i), false⟩))

/-- R206: the integer and bitwise operations work on elements of 8, 16 or 32 bits modulo 2^width, and BCAST writes bits [31:0]
of a scalar register to every written lane. -/
def Obligations.IntegerResults : Prop :=
  IssuesAs .iadd 0x0A VForm.bits (fun s n _ f => Claims.vecOut s n 1 f
    (Claims.elems (8 * 2 ^ (f.fn.toNat % 4)) (· + ·) (s.vreg n f.va.toNat) (s.vreg n f.vb.toNat), false))
  ∧ IssuesAs .isub 0x0B VForm.bits (fun s n _ f => Claims.vecOut s n 1 f
    (Claims.elems (8 * 2 ^ (f.fn.toNat % 4)) (fun x y => x + 2 ^ (8 * 2 ^ (f.fn.toNat % 4)) - y) (s.vreg n f.va.toNat)
      (s.vreg n f.vb.toNat), false))
  ∧ IssuesAs .imin 0x0C VForm.bits (fun s n _ f => Claims.vecOut s n 1 f
    (Claims.elems (8 * 2 ^ (f.fn.toNat % 4)) (fun x y =>
      if (if f.fn.toNat / 4 % 2 = 1 then decide (signedOf (8 * 2 ^ (f.fn.toNat % 4)) y < signedOf (8 * 2 ^ (f.fn.toNat % 4)) x)
        else decide (y < x)) then y else x) (s.vreg n f.va.toNat) (s.vreg n f.vb.toNat), false))
  ∧ IssuesAs .imax 0x0D VForm.bits (fun s n _ f => Claims.vecOut s n 1 f
    (Claims.elems (8 * 2 ^ (f.fn.toNat % 4)) (fun x y =>
      if (if f.fn.toNat / 4 % 2 = 1 then decide (signedOf (8 * 2 ^ (f.fn.toNat % 4)) x < signedOf (8 * 2 ^ (f.fn.toNat % 4)) y)
        else decide (x < y)) then y else x) (s.vreg n f.va.toNat) (s.vreg n f.vb.toNat), false))
  ∧ IssuesAs .vand 0x0E VForm.bits (fun s n _ f => Claims.vecOut s n 1 f
    (Claims.elems 32 Nat.land (s.vreg n f.va.toNat) (s.vreg n f.vb.toNat), false))
  ∧ IssuesAs .vor 0x0F VForm.bits (fun s n _ f => Claims.vecOut s n 1 f
    (Claims.elems 32 Nat.lor (s.vreg n f.va.toNat) (s.vreg n f.vb.toNat), false))
  ∧ IssuesAs .vxor 0x10 VForm.bits (fun s n _ f => Claims.vecOut s n 1 f
    (Claims.elems 32 Nat.xor (s.vreg n f.va.toNat) (s.vreg n f.vb.toNat), false))
  ∧ IssuesAs .mov 0x11 VForm.bits (fun s n _ f => Claims.vecOut s n 1 f
    (Claims.elems 32 (fun x _ => x) (s.vreg n f.va.toNat) (s.vreg n f.vb.toNat), false))
  ∧ IssuesAs .bcast 0x12 VForm.bits (fun s n _ f => Claims.vecOut s n 1 f
    ((List.range 64).flatMap fun _ => leBytes 4 (s.sreg n (f.va.toNat / 2)), false))

/-- R98, R209, R213 to R218: the conversions, the Phlox operations and the dot products have the effects the opcode map gives
them, on the registers their fields name. -/
def Obligations.ConversionAndDotResults : Prop :=
  IssuesAs .fcvt 0x08 VForm.bits (fun s n e f => opFcvt.effect ⟨s, n, f.bits, e⟩)
  ∧ IssuesAs .unpk 0x09 VForm.bits (fun s n _ f => Claims.vecOut s n 2 f
    (elementwise .e4m3 (s.preg n f.pm.toNat) fun i => roundTo .e4m3 .rne ((fmtOf (f.fn.toNat % 16)).value
      (elemAt (fmtOf (f.fn.toNat % 16)) (s.vreg n f.va.toNat) ((if f.fn.toNat % 16 = 7 then 256 * (f.fn.toNat / 16) else 0) + i)))))
  ∧ IssuesAs .padd 0x13 VForm.bits (fun s n e f => opPadd.effect ⟨s, n, f.bits, e⟩)
  ∧ IssuesAs .phloxExp 0x14 VForm.bits (fun s n e f => s.later n 4 (.scalar (f.vd.toNat % 32)
    (leNat ((List.range (spansOf (f.fn.toNat % 16))).map fun j => BitVec.ofNat 8 (spanExponent (spanValues ⟨s, n, f.bits, e⟩ j))))))
  ∧ IssuesAs .phloxCvt 0x15 VForm.bits (fun s n e f => opPhloxCvt.effect ⟨s, n, f.bits, e⟩)
  ∧ IssuesAs .phloxNorm 0x16 VForm.bits (fun s n e f => opPhloxNorm.effect ⟨s, n, f.bits, e⟩)
  ∧ IssuesAs .dotBlk16 0x18 DForm.bits (fun s n e f => dotEffect 16 ⟨s, n, f.bits, e⟩)
  ∧ IssuesAs .dotBlk32 0x19 DForm.bits (fun s n e f => dotEffect 32 ⟨s, n, f.bits, e⟩)
  ∧ IssuesAs .dotpBlk16 0x1A DForm.bits (fun s n e f => dotpEffect 16 ⟨s, n, f.bits, e⟩)
  ∧ IssuesAs .dotpBlk32 0x1B DForm.bits (fun s n e f => dotpEffect 32 ⟨s, n, f.bits, e⟩)

/-- R166, R219: a load writes the bytes at its address three cycles on, a store is seen two cycles on; R220: SSTART starts the
engine its field names on the descriptor; R222: SREL releases tiles two cycles on, unless the engine is IDLE or DONE. -/
def Obligations.MemoryAndStreamResults : Prop :=
  IssuesAs .ldV 0x20 MForm.bits (fun s n e f => Claims.loadOut s n (Claims.place s n e f) (2 ^ f.size.toNat) fun b =>
    .vec f.r.toNat (bytesAt 0 b))
  ∧ IssuesAs .ldS 0x22 MForm.bits (fun s n e f => Claims.loadOut s n (Claims.place s n e f) (2 ^ f.size.toNat) fun b =>
    .scalar (f.r.toNat % 32) (leNat b))
  ∧ IssuesAs .stV 0x21 MForm.bits (fun s n e f => Claims.storeOut s n (Claims.place s n e f)
    ((s.vreg n f.r.toNat).take (2 ^ f.size.toNat)))
  ∧ IssuesAs .stS 0x23 MForm.bits (fun s n e f => Claims.storeOut s n (Claims.place s n e f)
    (leBytes (2 ^ f.size.toNat) (s.sreg n (f.r.toNat % 32))))
  ∧ IssuesAs .sstart 0x24 StartForm.bits (fun s n e f => opSstart.effect ⟨s, n, f.bits, e⟩)
  ∧ IssuesAs .srel 0x26 WaitForm.bits (fun s n e f =>
    let k := f.k.toNat
    let count := if f.i = 1#1 then f.imm.toNat + (if f.x = 1#1 then e * 2 ^ 13 else 0) else s.sreg n f.sb.toNat
    if s.seState n k ≠ 0 ∧ s.seState n k ≠ 2 then
      s.later n 2 (.release k (min count (if s.seDir n k = 0 then s.seCount n k else (s.engine n k).ntiles)))
    else s)

/-- R224: the scalar operations compute on RA and the second operand modulo 2^64 and write RD; SHL, SHR and SRA shift by its
bits [5:0]. -/
def Obligations.ScalarResults : Prop :=
  IssuesAs .sadd 0x30 RForm.bits (Claims.scalarOut 1 (· + ·))
  ∧ IssuesAs .ssub 0x31 RForm.bits (Claims.scalarOut 1 fun x y => x + 2 ^ 64 - y)
  ∧ IssuesAs .smul 0x32 RForm.bits (Claims.scalarOut 3 (· * ·))
  ∧ IssuesAs .sand 0x33 RForm.bits (Claims.scalarOut 1 Nat.land)
  ∧ IssuesAs .sor 0x34 RForm.bits (Claims.scalarOut 1 Nat.lor)
  ∧ IssuesAs .sxor 0x35 RForm.bits (Claims.scalarOut 1 Nat.xor)
  ∧ IssuesAs .shl 0x36 RForm.bits (Claims.scalarOut 1 fun x y => x * 2 ^ (y % 64))
  ∧ IssuesAs .shr 0x37 RForm.bits (Claims.scalarOut 1 fun x y => x / 2 ^ (y % 64))
  ∧ IssuesAs .sra 0x38 RForm.bits (Claims.scalarOut 1 fun x y => unsignedOf 64 (signedOf 64 x / ((2 ^ (y % 64) : Nat) : Int)))

/-- R224, R225: the moves between register kinds write what the rule says to the register their field names; LOOP writes RA less
1; a taken branch sets the pc to TARGET and costs a second cycle. -/
def Obligations.MoveAndBranchResults : Prop :=
  IssuesAs .movi 0x39 JForm.bits (fun s n e f => s.later n 1 (.scalar f.rd.toNat (unsignedOf 64 (Claims.imm 20 f.x f.imm.toNat e))))
  ∧ IssuesAs .aadd 0x3A RForm.bits (fun s n e f => s.later n 1 (.address (f.rd.toNat % 16)
    ((s.areg n (f.ra.toNat % 16) + Claims.second s n e f) % 2 ^ 32)))
  ∧ IssuesAs .mova 0x3B RForm.bits (fun s n _ f => s.later n 1 (.address (f.rd.toNat % 16) (s.sreg n f.ra.toNat % 2 ^ 32)))
  ∧ IssuesAs .movs 0x3C RForm.bits (fun s n _ f => s.later n 1 (.scalar f.rd.toNat (s.areg n (f.ra.toNat % 16))))
  ∧ IssuesAs .pset 0x3D RForm.bits (fun s n _ f => s.later n 1 (.predicate (f.rd.toNat % 8) (s.sreg n f.ra.toNat)))
  ∧ (∀ (p : IssueAt) (f : BForm) (s : State), exec (.br p f) s = .next (
      Claims.branch 0x3E (fun t n g => brTaken g.cond.toNat (t.sreg n g.ra.toNat)) (fun t _ _ => t) p f s))
  ∧ (∀ (p : IssueAt) (f : BForm) (s : State), exec (.loop p f) s = .next (
      Claims.branch 0x3F (fun t n g => decide (t.sreg n g.ra.toNat ≠ 1))
        (fun t n g => t.later n 1 (.scalar g.ra.toNat ((t.sreg n g.ra.toNat + 2 ^ 64 - 1) % 2 ^ 64))) p f s))

/-! What each command does: the next state, for every state and operand -/

/-- R176, R183, R187, R189, R193, R400: what the commands of a core's sequencer do. -/
def Obligations.CoreControl : Prop :=
  (∀ (n : Fin 512) (s : State), exec (.coreStart n) s = .next (
      if s.coreState n = 1 ∧ ¬ s.coreHeld n ∧ s.fld F.SLC_DRAIN_STATE (n / 32) = 0 then
        match State.firstStart (s.core n).starts with
        | some p => (s.dropStale n p).takeStart n p
        | none => s
      else s))
  ∧ (∀ (n : Fin 512) (s : State), exec (.bundleIssue n) s = .next (
      if (s.coreState n = 3 ∨ s.coreState n = 2) ∧ (s.core n).halting = none then
        let s1 := s.setFld F.RC_STATUS_STATE 3 n
        if s.flag F.RC_CTRL_BREAK_EN n ∧ (s.core n).skipBreak = false
            ∧ s.fld F.RC_BREAK_ADDR n / 2 * 2 = s.fld F.RC_PC_PC n then
          s1.halting n ⟨3, 0, 0, 0, false, 0⟩
        else s1.issueNext n
      else s))
  ∧ (∀ (n : Fin 512) (s : State), exec (.drainPointIssue n) s = .next (
      if s.coreState n = 4 ∧ (s.core n).halting = none then
        let d := s.drainCore n
        let t := if (d.core n).halting = none then d.issueNext n else d
        if (s.core n).stepping ∧ t.coreState n = 3 then (t.halting n ⟨2, 0, 0, 0, false, 0⟩).completeHalt n else t
      else s))
  ∧ (∀ (p : IssueAt) (f : WaitForm) (s : State), exec (.swait p f) s = .next (Claims.drainPoint 0x25 f.bits (fun t => t) p s))
  ∧ (∀ (p : IssueAt) (f : ZForm) (s : State), exec (.endOp p f) s = .next
      (Claims.drainPoint 0x2F f.bits (fun t => t.endProgram p.core (s.fld F.RC_PC_PC p.core)) p s))
  ∧ (∀ (n : Fin 512) (s : State), exec (.haltReq n) s = .next (
      if s.debugState n ≠ 0 ∧ 2 ≤ s.coreState n ∧ s.coreState n ≤ 4 then s.halting n ⟨1, 0, 0, 0, false, 0⟩
      else s.setFld F.RC_STATUS_CMD_IGNORED 1 n))
  ∧ (∀ (n : Fin 512) (s : State), exec (.coreHalt n) s = .next (
      if (s.core n).halting ≠ none then s.completeHalt n
      else if (s.coreState n = 4 ∨ s.coreState n = 1) ∧ s.fld F.SLC_DRAIN_STATE (n / 32) = 1 then
        let c := s.core n
        let s1 := s.settleCore n
        if s1.coreState n = 5 then s1
        else
          let s2 := (s1.setFld F.RC_STATUS_FORCED 0 n).enterHalt n ⟨5, 0, 0, 0, false, 0⟩
          s2.setCore n { s2.core n with slept := s.coreState n, sleptStep := c.stepping,
                                        sleptWait := s.fld F.RC_STATUS_WAIT_SE n + 4 * s.fld F.RC_STATUS_WAIT_DRAIN n }
      else s))
  ∧ (∀ (n : Fin 512) (s : State), exec (.resume n) s = .next (
      if s.resumable n then
        if s.programOver n then (s.setCore n { s.core n with slept := 0 }).leaveProgram n
        else (s.setCore n { s.core n with skipBreak := true, slept := 0 }).setFld F.RC_STATUS_STATE 3 n
      else s.setFld F.RC_STATUS_CMD_IGNORED 1 n))
  ∧ (∀ (n : Fin 512) (s : State), exec (.stepCore n) s = .next (
      if s.resumable n then
        if s.programOver n then (s.setCore n { s.core n with slept := 0 }).leaveProgram n
        else
          let s1 := (s.setCore n { s.core n with skipBreak := true, stepping := true, slept := 0 }).setFld F.RC_STATUS_STATE 3 n
          let t := s1.issueNext n
          if t.coreState n = 3 then (t.halting n ⟨2, 0, 0, 0, false, 0⟩).completeHalt n else t
      else s.setFld F.RC_STATUS_CMD_IGNORED 1 n))

/-- R98, R178 to R181, R270: the steps of an inbound and of an outbound stream engine; a target that is absent takes no frame
and gives none (R112; log entry 85). -/
def Obligations.StreamEngines : Prop :=
  (∀ (n : Fin 512) (k : Fin 4) (s : State), exec (.seTileWrite n k) s = .next (
      if s.seRuns n k 0 then
        let e := s.engine n k
        let t := e.first + s.seCount n k
        if ¬ s.targetPresent (s.fld F.RC_SE_STAT_CTX n k) t (s.fld F.RC_SE_STAT_TARGET n k) then
          (if s.seCount n k - s.seRel n k < State.seSlots e then s.seAdvance n k 1 else s)
        else
          match s.inFrame n k with
          | none => s
          | some q =>
            let f := q.frame
            if f.len ≠ s.tilesIn f * e.tileBytes then (s.setCopy { q with faulty := true }).seFault n k 0x0A 2 e.bundle
            else if s.seCount n k - s.seRel n k < State.seSlots e then
              ((s.writeSram n (State.seSlot e t) (Machine.slice f.payload ((t - f.tile) * e.tileBytes) e.tileBytes)).seAdvance n k
                1).tookTile n q t
            else s
      else s))
  ∧ (∀ (n : Fin 512) (k : Fin 4) (s : State), exec (.seFrameQueue n k) s = .next (
      if s.seRuns n k 1 then
        let e := s.engine n k
        let c := s.fld F.RC_SE_STAT_CTX n k
        let m := min (s.seChunk c e) (e.ntiles - e.asked)
        let t := e.first + e.asked
        let target := s.fld F.RC_SE_STAT_TARGET n k
        let stage := ((s.core n).run.map (·.stage)).getD 0
        let cost := 16 * (m * e.tileBytes + 64)
        let tokens := readKey 0 s.limiter c
        let limited := !s.scheduled c
        if m = 0 ∨ s.seRel n k < e.asked + m ∨ ¬ (s.ctx c).active ∨ s.seWaits n k then s
        else if ¬ s.targetPresent c t target then s.seOffered n k m none
        else if limited && decide (tokens < cost) then s
        else if s.tilesBad n e t m then (s.noteTiles n e t m).seFault n k 9 2 e.bundle
        else
          let payload := (List.range m).flatMap fun i => s.sramBytes n (State.seSlot e (t + i)) e.tileBytes
          let s1 := s.noteTiles n e t m
          let s2 : State := if limited then { s1 with limiter := writeKey 0 s1.limiter c (tokens - cost) } else s1
          let isResult := e.mode = 0 ∧ (target < 0x4D ∨ target = 0x4E) ∧ s.isRoot c
          let nan := (List.range m).any fun i => s.tileNan c (Machine.slice payload (i * e.tileBytes) e.tileBytes)
          let s3 := if isResult then s2.noteNan c nan else s2
          (s3.askAll n k (s3.seFrames n c stage t e.mode target payload)).seOffered n k m (some s3.serial)
      else s))

/-- R25, R32, R168, R191, R261, R372: writes through the chip window, and the end of the schedule count. -/
def Obligations.WindowWrites : Prop :=
  (∀ (off : BitVec 30) (value : BitVec 64) (s : State), exec (.registerWrite off value) s = .next (
      match regAt off.toNat with
      | some (r, i, j, k) => s.writeReg r value.toNat i j k
      | none => s))
  ∧ (∀ (n : Fin 512) (off : BitVec 16) (value : BitVec 64) (s : State), exec (.rcRegfileWrite n off value) s = .next (
      match regAt (0x2000000 + n * 0x10000 + off.toNat) with
      | some (r, i, j, k) => if isRegfile r then s.writeRegfile r value.toNat i j k else s
      | none => s))
  ∧ (∀ (n : Fin 512) (addr : BitVec 19) (words : List (BitVec 32)) (s : State), exec (.sramWindowWrite n addr words) s = .next (
      s.writeWindows n (addr.toNat / 4 * 4) (min words.length (0x20000 - addr.toNat / 4)) (words.flatMap fun w => leBytes 4 w.toNat)))
  ∧ (∀ (value : BitVec 32) (s : State), exec (.fmaskSliceWrite value) s = .next (
      (Claims.newBits 16 (s.rd .GLB_FMASK_SLICE) value.toNat).foldl State.maskSlice
        (s.wr .GLB_FMASK_SLICE (Nat.lor (s.rd .GLB_FMASK_SLICE) (value.toNat % 2 ^ 16)))).showDisabled.noteTerms)
  ∧ (∀ (k : Fin 8) (value : BitVec 32) (s : State), exec (.fmaskPortWrite k value) s = .next (
      (Claims.newBits 32 (s.rd .GLB_FMASK_PORT k) value.toNat).foldl (fun a b => a.maskPort (32 * k + b))
        (s.wr .GLB_FMASK_PORT (Nat.lor (s.rd .GLB_FMASK_PORT k) (value.toNat % 2 ^ 32)) k)).showDisabled.noteTerms)
  ∧ (∀ (k : Fin 16) (value : BitVec 32) (s : State), exec (.fmaskCoreWrite k value) s = .next (
      (Claims.newBits 32 (s.rd .GLB_FMASK_CORE k) value.toNat).foldl (fun a b => a.maskCore (32 * k + b))
        (s.wr .GLB_FMASK_CORE (Nat.lor (s.rd .GLB_FMASK_CORE k) (value.toNat % 2 ^ 32)) k)).showDisabled.noteTerms)
  ∧ (∀ (d : Fin 3) (v : Fin 16) (mask : Fin 256) (s : State), exec (.nbrMaskWrite d v mask) s = .next (
      let t := (List.range 16).foldl (fun a n => a.setFld F.SLC_NBRM_MASK mask n d v) s
      if t.flushedAt = some t.now then t.flushNow else t))
  ∧ (∀ (s : State), exec .counterEnd s = .next (if s.count = 2 ^ 64 - 1 then s.report 0x0E 0 else s))

/-- The writes of a context's commands: a Management Processor in reset takes none (R120); a second write in a tick acts with
the first as one write of both (R118; log entry 10). -/
def Sys2Proof.Claims.command (s : State) (c : Nat) (w : CtxBits) : State :=
  let note (t : State) (b : CtxBits) (v : CtxView) : State :=
    { t with ctxWrites := (t.ctxWrites.filter fun e => e.1 != c) ++ [(c, b, v, t.cmdView c)] }
  if ¬ s.flag F.GLB_STATUS_MP_READY then s
  else
    match s.ctxWrites.find? fun e => e.1 == c with
    | some (_, b, before, after) =>
      if after = s.cmdView c then note ((s.setCmdView c before).applyCtx c (State.bothWrites b w)) (State.bothWrites b w) before
      else note (s.applyCtx c w) w (s.cmdView c)
    | none => note (s.applyCtx c w) w (s.cmdView c)

/-- R113, R117 to R120, R133, R138: writes of the fields of SCH_CTX_CMD and SCH_CTX_COMMIT, and the events of a launch. -/
def Obligations.ContextEvents : Prop :=
  (∀ (c : Fin 4096) (w : CtxBits) (s : State), exec (.ctxCommitGo c w) s = .next (Claims.command s c { w with go := true }))
  ∧ (∀ (c : Fin 4096) (w : CtxBits) (s : State), exec (.ctxArm c w) s = .next (Claims.command s c { w with arm := true }))
  ∧ (∀ (c : Fin 4096) (w : CtxBits) (s : State), exec (.ctxCancel c w) s = .next (Claims.command s c { w with cancel := true }))
  ∧ (∀ (c : Fin 4096) (w : CtxBits) (s : State), exec (.ctxAbort c w) s = .next (Claims.command s c { w with abort := true }))
  ∧ (∀ (c : Fin 4096) (w : CtxBits) (s : State), exec (.ctxUnbind c w) s = .next (Claims.command s c { w with unbind := true }))
  ∧ (∀ (c : Fin 4096) (s : State), exec (.launchStart c) s = .next (
      let st := s.ctxState c
      let x := s.ctx c
      if (st = 3 ∨ st = 4) ∧ s.fld F.SCH_CTX_STATUS_LEFT c ≠ 0 ∧ s.startDue c = true then
        if x.active then (if s.scheduled c then s.setCtx c { x with deferred := true } else s)
        else if s.mgAdmits (s.ctxPart c) then s.openLaunch c
        else (s.setCtx c { x with heldBack := true }).showStall (s.ctxPart c)
      else s))
  ∧ (∀ (c : Fin 4096) (part : Fin 16) (epoch : Fin 16) (src : Fin 131072) (s : State), exec (.abortFrameRx c part epoch src) s = .next (
      if s.ctxGranted c part && s.epoch c == epoch && s.neighbour c (src / 32) then s.abortCtx c 3 (some (src / 32)) else s))
  ∧ (∀ (c : Fin 4096) (s : State), exec (.ctxTimeout c) s = .next (
      let x := s.ctx c
      if x.active && !x.timedOut && decide (x.startedAt + s.fld F.SCH_CTX_TMO_TMO c * 1000 ≤ s.now) then
        let s1 := (s.setCtx c { x with timedOut := true }).report 0x10 c (leBytes 16 (s.rd .SCH_CTX_STATUS c))
        if s.sevOf 0x10 < 2 then s1 else s1.abortCtx c 5
      else s))
  ∧ (∀ (x : Fin 256) (s : State), exec (.resultReorderRelease x) s = .next (
      match State.firstOf (s.copies.filter fun c => c.phase == .held && c.out == .port x && !s.ahead c) with
      | some k => s.commitTo k x
      | none => s))

/-- R43, R53 to R56: the record engine's window, drains, acknowledgements and checkpoints. -/
def Obligations.MarigoldRows : Prop :=
  (∀ (s : State), exec .mgWindowEnd s = .next (
      if s.falls 2048 2047 then (List.range 16).foldl (fun a p => a.windowEnd p) s.closeTick else s))
  ∧ (∀ (p : Fin 16) (s : State), exec (.mgDrain p) s = .next (
      if s.drainsByHost p then s
      else match s.newDrain p 126 with
        | (a, some d) => a.sendDrain p d
        | (a, none) => a))
  ∧ (∀ (p : Fin 16) (serial : Nat) (s : State), exec (.mgDrainResend p serial) s = .next (
      if s.drainsByHost p then s
      else match (s.mgOf p).drains.find? (fun d => d.serial == serial) with
        | some d =>
          if d.sentAt + s.fld F.GLB_MG_DRAIN_TMO_TMO p * 1000 ≤ s.now then (s.noteSent p serial).sendDrain p d else s
        | none => s))
  ∧ (∀ (src : Fin 131072) (payload : List (BitVec 8)) (s : State), exec (.mgAckRx src payload) s = .next (
      let b := payload
      let p := leAt b 4 1
      if p < 16 ∧ b.length = 8 ∧ src = s.fld F.GLB_MG_DRAIN_DEST_DEST p then s.ackDrain p (leAt b 0 4) else s))
  ∧ (∀ (p : Fin 16) (s : State), exec (.checkpointSigned p) s = .next (
      if ¬ s.flag F.GLB_STATUS_MP_READY then s else
      let m := s.mgOf p
      match m.checkpoints.findIdx? (fun k => k.entry.isSome) with
      | some i =>
        match m.checkpoints[i]? with
        | some k =>
          match k.entry with
          | some e =>
            let msg := State.checkMessage p k e
            (s.setMg p { m with checkpoints := m.checkpoints.eraseIdx i }).respond k.cmd 0 0
              (msg ++ Machine.slice (Config.signEcdsa msg) 0 96 ++ Machine.slice (Config.signMlDsa msg) 0 3309)
          | none => s
        | none => s
      | none => s))
  ∧ Answers .mgRead 0x18 (fun a c =>
      if c.arg = 0 ∨ 126 < c.arg then a.respond c 3
      else if ¬ a.drainsByHost c.part then a.respond c 7
      else match (a.mgOf c.part).drains with
        | d :: _ => (a.readQueue c.part).respond c 0 0 d.payload
        | [] =>
          match a.newDrain c.part c.arg with
          | (b, some d) => b.respond c 0 0 d.payload
          | (b, none) => b.respond c 0)
  ∧ Answers .mgAck 0x19 (fun a c =>
      if 2 ^ 32 ≤ c.arg then a.respond c 3
      else if ¬ a.drainsByHost c.part then a.respond c 7
      else if (a.mgOf c.part).drains.any fun d => d.serial == c.arg then (a.ackDrain c.part c.arg).respond c 0
      else a.respond c 0xD)
  ∧ Answers .mgCheckpoint 0x1A (fun a c =>
      let p := c.part
      let m := a.mgOf p
      if c.payload.length ≠ 32 then a.respond c 3
      else if a.fld F.GLB_MG_MODE_MODE p = 0 ∨ (m.appended ∧ a.fld F.GLB_MG_SEQ_SEQ p = 2 ^ 48 - 1) then a.respond c 0xD
      else if 8 ≤ m.checkpoints.length then a.respond c 0x46
      else if a.fld F.GLB_MG_MODE_MODE p = 2 ∧ a.mgFree p ≤ a.inFlightOf p + (a.openChecks p + 1) + 2 then a.respond c 0x46
      else a.setMg p { m with checkpoints := m.checkpoints ++ [{ cmd := c, nonce := c.payload }] })

/-- R141 to R149, R156 to R161: the schedule counter's synchronisation, slots, slot spans and slips. -/
def Obligations.ScheduleEvents : Prop :=
  (∀ (s : State), exec .epochCorrection s = .next (s.correct))
  ∧ (∀ (frac : Fin 16) (s : State), exec (.syncInPulse frac) s = .next (s.pulse frac))
  ∧ (∀ (s : State), exec .schLoadArm s = .next (
      if s.source < 2 ∧ s.syncState = 0 then s.setSync { s.sync with armed := true } else s))
  ∧ (∀ (s : State), exec .timeReqSend s = .next (
      match s.exchangePort with
      | some x =>
        if s.falls (2 ^ 20) (2 ^ 19) ∧ s.sync.asked ≠ some (s.count / 2 ^ 20) ∧ s.portUp x then
          (s.setSync { s.sync with asked := some (s.count / 2 ^ 20), t1 := none }).sendControl x
            { typ := Frame.TIME_REQ, payload := List.replicate 16 0 }
        else s
      | none => s))
  ∧ (∀ (x : Fin 256) (payload : List (BitVec 8)) (time : Nat) (s : State), exec (.timeReqRx x payload time) s = .next (
      let p := payload
      s.onPort x fun n j =>
      if s.flag F.SLC_WLK_STAT_EPISODE n j then s
      else s.sendControl x
        { typ := Frame.TIME_RSP, payload := Machine.slice p 0 16 ++ leBytes 8 (time / 16) ++ leBytes 1 (time % 16) ++ List.replicate 15 0 }))
  ∧ (∀ (x : Fin 256) (payload : List (BitVec 8)) (time : Nat) (s : State), exec (.timeRspRx x payload time) s = .next (
      s.takeTime x payload time))
  ∧ (∀ (s : State), exec .exchangeMissed s = .next (
      match s.sync.asked with
      | some k =>
        if (k + 1) * 2 ^ 20 - 2 ^ 16 ≤ s.count then
          let m := min 4 (s.fld F.SCH_SYNC_STATUS_MISSED + 1)
          let s1 := (s.setSync { s.sync with asked := none, t1 := none }).setFld F.SCH_SYNC_STATUS_MISSED m
          if m = 4 then s1.parentLost else s1
        else s
      | none => s))
  ∧ (∀ (s : State), exec .syncInLost s = .next (
      match s.sync.lastPulse with
      | some t =>
        if s.source < 2 ∧ t + 2 ^ 21 ≤ s.count ∧ s.flag F.SCH_PULSE_OFS_SEEN then
          let s1 := (s.setFld F.SCH_PULSE_OFS_SEEN 0).report 0x0B 0
          if s.syncState = 2 then
            ((s1.setSync { s1.sync with holdAt := s.count, drifted := false, corr := 0 }).setFld F.SCH_SYNC_STATUS_STATE 3).report 0x09 0
          else s1
        else s
      | none => s))
  ∧ (∀ (s : State), exec .syncDrift s = .next (
      if s.syncState = 3 ∧ ¬ s.sync.drifted
        ∧ s.sync.holdAt + clampTo 1 4095 (s.fld F.SCH_SYNC_CFG_HOLD_EPOCHS) * 2 ^ 20 ≤ s.count then
        (s.setSync { s.sync with drifted := true }).report 0x0A 0
      else s))
  ∧ (∀ (x : Fin 256) (e : Fin 128) (s : State), exec (.slotStart x e) s = .next (s.slotStart x e))
  ∧ (∀ (n : Fin 16) (s : State), exec (.slotSpanEnd n) s = .next (
      let l := s.lag n
      let g := s.guardBand
      let rl := s.roundLen
      let y := s.slice n
      let next := s.count / rl * rl
      let k := s.slotClock n / rl
      let drop : Bool := match y.dropAt with
        | some b => decide (b ≤ s.count)
        | none => false
      if drop = true ∨ (l < g ∧ y.spanFrom < next) then
        ((s.setFld F.SCH_LAG_LAG 0 n).setFld F.SCH_LAG_RUN 0 n).setSlice n
          { y with spanFrom := next, dropAt := if drop then none else y.dropAt, slipped := false }
      else if g ≤ l ∧ l ≤ s.count ∧ rl - g ≤ s.slotClock n % rl ∧ y.spanFrom ≤ k * rl ∧ ¬ s.flag F.SCH_LAG_PAUSED n then
        ((s.setFld F.SCH_LAG_LAG (l - g) n).setFld F.SCH_LAG_RUN
            (if l = g then 0 else min 255 (s.fld F.SCH_LAG_RUN n + 1)) n).setSlice n
          { y with spanFrom := (k + 1) * rl, slipped := y.slipped && l != g }
      else s))
  ∧ (∀ (n : Fin 16) (s : State), exec (.schedSlip n) s = .next (
      let y := s.slice n
      if s.guardBand * (s.fld F.SCH_ROUND_CFG_CATCHUP - s.fld F.SCH_LAG_RUN n) < s.lag n ∧ y.slipped = false then
        let cs := s.slipContexts n
        let s1 := ((s.setSlice n { y with slipped := true }).bump F.SCH_SLIP_SLIPS 1 n).report 0x0D n (leBytes 16 (s.rd .SCH_LAG n))
        let s2 := cs.foldl (fun a c => a.setFld F.SCH_CTX_STATUS_SLIPPED 1 c) s1
        if s.sevOf 0x0D < 2 then (if s.flag F.SCH_LAG_PAUSED n then s2.releasePause n else s2)
        else
          let s3 := cs.foldl (fun a c => a.abortCtx c 4) s2
          let s4 := if s.flag F.SCH_LAG_PAUSED n then s3.releasePause n else s3
          s4.setSlice n { s4.slice n with dropAt := some ((s.count / s.roundLen + 1) * s.roundLen) }
      else s))

/-- R142, R266 to R289: echoes (their cuts act in the next tick), rates, the flowlet flush, tags, token refill, shaper commits and queue samples. -/
def Obligations.TrafficEvents : Prop :=
  (∀ (n : Fin 16) (part : Fin 16) (payload : List (BitVec 8)) (s : State), exec (.echoY5Rx n part payload) s = .next (
      let b := payload
      let s1 := s.bump F.SLC_RT_ECHO_RX_COUNT 1 n
      let c := leAt b 2 2 % 4096
      if s.ctxGranted c part && !s.scheduled c && decide (2 ≤ s.ctxState c) && s.epoch c == leAt b 2 2 / 4096
          && bitsOf (leAt b 0 1) 4 3 != 6 && bitsOf (leAt b 0 1) 0 4 == part && (leAt b 1 1 == 1 || leAt b 1 1 == 2) then
        { s1 with cuts := s1.cuts ++ [(c, leAt b 2 2 / 4096, leAt b 1 1)] }
      else s1))
  ∧ (∀ (s : State), exec .echoWindowEnd s = .next (if s.falls 1024 1023 then s.echoes.foldl State.sendEcho { s with echoes := [] } else s))
  ∧ (∀ (s : State), exec .rateRecovery s = .next (
      if s.falls 8192 0 then
        { s.grantedCtxs.foldl State.raiseRate s with echoed := [] }
      else s))
  ∧ (∀ (n : Fin 16) (s : State), exec (.flush n) s = .next (
      if s.flag F.SLC_RT_STATUS_FLUSH_BUSY n then s.setFld F.SLC_RT_STATUS_FLUSH_IGNORED 1 n
      else
        let s1 : State := { s.clearFlowlets with flushing := (s.copies.filter (onPorts s.maskedPorts)).map (·.id),
                                                 flushedAt := some s.now }
        (List.range 16).foldl (fun a m => a.setFld F.SLC_RT_STATUS_FLUSH_BUSY 1 m) s1))
  ∧ (∀ (s : State), exec .flushDone s = .next (
      if s.flushedAt.isSome ∧ s.flushing = [] then
        { (List.range 16).foldl (fun a m => a.setFld F.SLC_RT_STATUS_FLUSH_BUSY 0 m) s with flushedAt := none }
      else s))
  ∧ (∀ (x : Fin 256) (tag : Fin 4096) (s : State), exec (.tagTimeout x tag) s = .next (
      match s.portAt x, lookupKey (s.port x).tags tag with
      | some (n, j), some t =>
        if t + 2 * s.lifeLimit ≤ s.now then
          let q := s.port x
          let r := eraseKey q.tags tag
          (s.setPort x { q with tags := r }).setFld F.SLC_WLK_TAG_OUTSTANDING r.length n j
        else s
      | _, _ => s))
  ∧ (∀ (s : State), exec .tokenRefill s = .next (
      if s.falls 64 0 then (List.range 16).foldl State.refillSlice s else s))
  ∧ (∀ (n : Fin 16) (s : State), exec (.shpCommit n) s = .next (
      let ks := s.shaperKeys n
      s.setSlice n { s.slice n with shpDue := (s.slice n).shpDue ++ [(s.now, s.shadow.filter fun e => ks.contains e.1)] }))
  ∧ (∀ (s : State), exec .queueSample s = .next (if s.falls 1024 0 then s.sampleAll else s))
  ∧ (∀ (n : Fin 16) (s : State), exec (.clearMax n) s = .next (
      let b := RegName.SLC_QMAX.addr n 0
      { s with regs := s.regs.filter fun e => !(decide (b ≤ e.1) && decide (e.1 < b + 0x4000)) }))

/-- R232 to R251: admission, pointers, copies, caches, audits and draining. -/
def Obligations.BufferEvents : Prop :=
  (∀ (n : Fin 16) (s : State), exec (.origAdmit n) s = .next ((s.openRequests n).foldl State.decideOne s))
  ∧ (∀ (n : Fin 16) (s : State), exec (.pointerHandover n) s = .next (
      let t := (s.openRequests n).foldl State.decideOne s
      t.handOver n (4 - (if (t.slice n).handedAt = t.now then (t.slice n).handed else 0))))
  ∧ (∀ (n : Fin 16) (second : Bool) (s : State), exec (.copyCommit n second) s = .next (
      match s.writing n, second with
      | [], _ => s
      | a :: _, false => (s.written a).unpark a.frame.ctx
      | [_], true => s
      | a :: b :: _, true => if sameFlow a b then s else (s.written b).unpark b.frame.ctx))
  ∧ (∀ (n : Fin 16) (i : Fin 17) (s : State), exec (.cacheRefill n i) s = .next (
      let x := s.pool n i
      let m := if x.refill = [] then 0 else s.injected 2 (n * 32 + i)
      let s0 := if x.refill = [] then s else s.injectSpent 2 (n * 32 + i)
      let s1 := (s0.setPool n i { x with refill := [] })
      let s2 := x.refill.zipIdx.foldl (fun a w => a.cachePtr n i w.1 (m == 2 && w.2 == 0) (m == 2 && w.2 == 0)) s1
      (s2.startRefill n i).showPool n i))
  ∧ (∀ (n : Fin 16) (s : State), exec (.audit n) s = .next (
      if s.flag F.SLC_BUF_CTRL_AUDIT_EN n ∧ s.falls (s.auditPeriod n) 0 = true ∧ (s.slice n).audit.isNone then
        s.setSlice n { s.slice n with audit := some (s.now, (List.range 17).map (s.deficit n)) }
      else s))
  ∧ (∀ (n : Fin 16) (s : State), exec (.auditWrite n) s = .next (
      match (s.slice n).audit with
      | some (t, ds) =>
        if t + 64 ≤ s.now then
          ds.zipIdx.foldl (fun a d => a.writeDeficit n d.2 d.1) (s.setSlice n { s.slice n with audit := none })
        else s
      | none => s))
  ∧ (∀ (n : Fin 16) (i : Fin 17) (s : State), exec (.reclaim n i) s = .next (
      if s.copies.any fun c => c.slice == n && c.pool == i && c.ptrs != [] then s.setFld F.SLC_POOL_AUDIT_RECLAIM_REFUSED 1 n i
      else s.buildPool n i))
  ∧ (∀ (n : Fin 16) (s : State), exec (.sliceEmpty n) s = .next (
      if s.fld F.SLC_DRAIN_STATE n = 1 ∧ s.sliceEmpty n then s.goDown n (s.fld F.SLC_DRAIN_TARGET n) true else s))
  ∧ (∀ (n : Fin 16) (s : State), exec (.drainDeadline n) s = .next (
      let target := s.fld F.SLC_DRAIN_TARGET n
      if s.fld F.SLC_DRAIN_STATE n ≠ 1 ∨ s.now < (s.slice n).drainEnd then s
      else if target = 1 then s.goDown n 1 false
      else
        let d := s.dropSlice n true
        (d.1.goDown n target false).setFld F.SLC_DRAIN_DROPPED d.2 n))

/-- R276, R330 to R345: frames onto and off a port's wire, acknowledgements, retransmission and credits. -/
def Obligations.LinkEvents : Prop :=
  (∀ (x : Fin 256) (s : State), exec (.frameTxStart x) s = .next (s.txStart x))
  ∧ (∀ (x : Fin 256) (s : State), exec (.frameTxEnd x) s = .next (s.txEnd x))
  ∧ (∀ (x : Fin 256) (raw : List (BitVec 8)) (errored : Bool) (time : Nat) (s : State), exec (.frameRx x raw errored time) s = .next (
      s.onPort x fun n j =>
      if !([3, 4, 5, 6, 8].contains (s.portState x)) then s
      else
        match s.framing n j x raw errored with
        | (a, none) => a
        | (a, some (f, h, body, icv)) =>
          let up := a.portState x = 4
          let b := if up then a.headerAcks x f else a
          if Frame.linkLocal f.typ then b.linkLocalRx n j x f time
          else if up then b.sequenced n j x f h body icv
          else b))
  ∧ (∀ (x : Fin 256) (ackseq : BitVec 16) (s : State), exec (.ackRx x ackseq) s = .next (
      let a := ackseq.toNat
      let mine (k : Copy) : Bool := k.out == .port x && k.phase == .unacked && State.seqLe k.lseq a
      let t := s.freeWhere mine
      if s.copies.any mine then t.setPort x { t.port x with ackAt := s.now } else t))
  ∧ (∀ (x : Fin 256) (s : State), exec (.ackSend x) s = .next (
      s.onPort x fun n j =>
      if (s.port x).ackOwed ∧ (s.port x).sentAt + s.fld F.SLC_WLK_CFG_ACK_INT n j ≤ s.now then s.sendControl x { typ := Frame.ACK }
      else s))
  ∧ (∀ (x : Fin 256) (ackseq : BitVec 16) (frame : Bool) (s : State), exec (.nackRx x ackseq frame) s = .next (
      s.onPort x fun n j =>
      (if frame then s.bump F.SLC_WLK_NACK_RX 1 n j else s).nackTo x ackseq.toNat))
  ∧ (∀ (x : Fin 256) (s : State), exec (.retryTimeout x) s = .next (
      s.onPort x fun n j =>
      if (s.port x).retx = [] ∧ (s.port x).ackAt + s.fld F.SLC_PORT_RTT_RTT n j + 2 * s.tFrame x + 64 ≤ s.now then s.retransmit x
      else s))
  ∧ (∀ (x : Fin 256) (s : State), exec (.retryEpisodeExpiry x) s = .next (
      s.onPort x fun n j =>
      if s.flag F.SLC_WLK_STAT_EPISODE n j ∧ s.tRetry n j x < s.now - (s.port x).episodeAt then s.startRetrain n j x else s))
  ∧ (∀ (x : Fin 256) (payload : List (BitVec 8)) (s : State), exec (.creditRx x payload) s = .next (
      s.setPort x { s.port x with creditsIn := (s.port x).creditsIn ++ State.creditEntries payload }))
  ∧ (∀ (x : Fin 256) (all : Bool) (s : State), exec (.creditSend x all) s = .next (
      if s.portUp x && (all || (s.port x).changed != []) then s.sendCredits x all else s))

/-- R291 to R302, R319, R323 to R325: the laser module, codewords, the LED frame and the service button. -/
def Obligations.OpticsAndService : Prop :=
  (∀ (n : Fin 16) (p : LaserPoll) (s : State), exec (.laserPoll n p) s = .next (
      if p.ok then
        let s1 : State := { s with i2cFails := writeKey 0 s.i2cFails n 0 }
        let s2 := ((s1.setFld F.SLC_LSR_STAT_PRESENT (b2n p.present) n).setFld F.SLC_LSR_STAT_MSTATE p.mstate.toNat n).setFld
          F.SLC_LSR_STAT_ALARM (b2n (p.alarms != 0)) n
        let on := p.present && p.mstate == 3 && s.flag F.SLC_LSR_CTRL_EN n
        (if p.present then s2 else s2.setFld F.SLC_LSR_STAT_I2C_ERR 1 n).setReady n (if on then
          Nat.land (Nat.land (s.fld F.SLC_LSR_CTRL_OUT_EN n) p.powerOk.toNat) (255 - p.alarms.toNat) else 0)
      else
        let f := readKey 0 s.i2cFails n + 1
        let s1 : State := { s with i2cFails := writeKey 0 s.i2cFails n f }
        if f < 3 then s1 else ((s1.setFld F.SLC_LSR_STAT_I2C_ERR 1 n).setFld F.SLC_LSR_STAT_PRESENT 0 n).setReady n 0))
  ∧ (∀ (n : Fin 16) (en : Bool) (outEn : BitVec 8) (s : State), exec (.lsrCtrlWrite n en outEn) s = .next (
      (s.setFld F.SLC_LSR_CTRL_EN (b2n en) n).setFld F.SLC_LSR_CTRL_OUT_EN outEn.toNat n))
  ∧ (∀ (l : Fin 512) (w : Codeword) (s : State), exec (.codewordRx l w) s = .next (
      let n := (l / 32)
      let l := (l % 32)
      match s.portOfLane n l with
      | none => s
      | some (j, _) =>
        let x := s.lport n j
        if s.portState x < 2 ∨ ¬ s.flag F.SLC_LANE_STAT_LIGHT n l then s
        else
          let m := s.injected 6 x
          let s0 := s.injectSpent 6 x
          let s1 := s0.countCodeword n j x (w.corrected + b2n (m == 1)) (w.bad || m == 2)
          let s2 := s1.lockLane n l w
          let am := State.headerOk w.header.toNat && w.header.toNat / 16 == 0x1B4E
          let s3 := if s2.laneLocked n l && am then s2.amSeen n j x else s2
          if s3.portState x = 8 then
            (if s3.flag F.SLC_PORT_TEST_LOOPING n j then s3.loopCodeword n j x l w.header.toNat am w.payload else s3).testCodeword n j x w
          else (s3.receivePayload n j x l am w.payload (w.bad || m == 2)).lanesChanged n j x))
  ∧ (∀ (s : State), exec .ledFrame s = .next (
      if s.flag F.GLB_STATUS_MP_READY ∨ s.flag F.GLB_STATUS_RECOVERY then
        let b := s.ledFrame
        ({ s with svc := { s.svc with led := b, frames := s.svc.frames + 1 } } : State).emit (.led b)
      else s.emit (.led s.svc.led)))
  ∧ (∀ (ms : Nat) (s : State), exec (.servicePress ms) s = .next (
      if ms < 5000 ∧ ¬ s.romTiming then { s with svc := { s.svc with locate := true, pressedAt := s.now } } else s))
  ∧ (∀ (s : State), exec .locateExpiry s = .next (
      if s.svc.pressedAt + 60000000000 ≤ s.now then { s with svc := { s.svc with locate := false } } else s))

/-- R305 to R321: the timers of a port's state machine, hellos and the control registers of a port. -/
def Obligations.PortEvents : Prop :=
  (∀ (x : Fin 256) (s : State), exec (.alignTimeout x) s = .next (
      s.onPort x fun n j =>
      if s.portState x = 2 ∧ s.heldFor x (s.fld F.SLC_PORT_TMR_ALIGN_TMO n j * 1000000) then
        (if State.lowestLanes (s.rxOk n j) ≠ 0 then (s.takeLanes n j x).enterState n j x 3 else s.portDown n j x 7)
      else s))
  ∧ (∀ (x : Fin 256) (s : State), exec (.helloTimeout x) s = .next (
      s.onPort x fun n j =>
      if s.portState x = 3 ∧ s.heldFor x 1000000 ∧ (¬ (s.helloOf x).peerSeen ∨ (s.helloOf x).heardAt + 1000000 ≤ s.now) then
        s.portDown n j x 7
      else s))
  ∧ (∀ (x : Fin 256) (s : State), exec (.keepaliveLoss x) s = .next (
      s.onPort x fun n j =>
      if s.portState x = 4 ∧ s.heldFor x 400000 ∧ (s.helloOf x).heardAt + 400000 ≤ s.now then s.portDown n j x 7 else s))
  ∧ (∀ (x : Fin 256) (s : State), exec (.retrainTimeout x) s = .next (
      s.onPort x fun n j =>
      if s.portState x = 5 ∧ s.heldFor x (s.fld F.SLC_PORT_TMR_RETRAIN_TMO n j * 100000) then s.portDown n j x 7 else s))
  ∧ (∀ (x : Fin 256) (s : State), exec (.holdExpiry x) s = .next (
      s.onPort x fun n j =>
      if s.portState x = 7 ∧ ¬ s.portHeld x ∧ s.heldFor x (s.fld F.SLC_PORT_TMR_HOLD n j * 1000000) then s.enterAlign n j x else s))
  ∧ (∀ (x : Fin 256) (s : State), exec (.loopRefused x) s = .next (
      s.onPort x fun n j =>
      if s.portState x = 8 ∧ (s.helloOf x).loopReq ∧ s.heldFor x 1000000 then
        (s.setFld F.SLC_PORT_STAT_LOOP_REFUSED 1 n j).setHello x { s.helloOf x with loopReq := false }
      else s))
  ∧ (∀ (x : Fin 256) (ppb : BitVec 24) (s : State), exec (.freqWindow x ppb) s = .next (
      s.onPort x fun n j =>
      if s.fabric x then
        let s1 := s.setFld F.SLC_PORT_FREQ_OFFSET ppb.toNat n j
        if ¬ s.flag F.SLC_LNK_CFG_RACK_ISOLATED n ∧ 100 < ppb.toInt.natAbs then s1.report 0x2E x else s1
      else s))
  ∧ (∀ (x : Fin 256) (s : State), exec (.helloSend x) s = .next (
      if [3, 4, 5, 6].contains (s.portState x) || (s.portState x == 8 && (s.helloOf x).loopReq) then
        s.sendControl x { typ := Frame.HELLO, payload := List.replicate 96 0 }
      else s))
  ∧ (∀ (x : Fin 256) (payload : List (BitVec 8)) (time : Nat) (s : State), exec (.helloRx x payload time) s = .next (
      s.helloRx x payload time))
  ∧ (∀ (n : Fin 16) (j : Fin 16) (en : Bool) (s : State), exec (.portEnWrite n j en) s = .next (
      (s.setFld F.SLC_PORT_CTRL_EN (b2n en) n j).enablePort n j (s.lport n j)))
  ∧ (∀ (n : Fin 16) (j : Fin 16) (s : State), exec (.portRetrain n j) s = .next (
      if s.fld F.SLC_PORT_STAT_STATE n j = 6 then s.portDown n j (s.lport n j) 7
      else if s.fld F.SLC_PORT_STAT_STATE n j = 4 then s.startRetrain n j (s.lport n j) else s))
  ∧ (∀ (n : Fin 16) (j : Fin 16) (on : Bool) (s : State), exec (.portLocate n j on) s = .next (
      s.setFld F.SLC_PORT_CTRL_LOCATE (b2n on) n j))
  ∧ (∀ (n : Fin 16) (j : Fin 16) (mode : Fin 4) (s : State), exec (.portTestWrite n j mode) s = .next (
      let x := s.lport n j
      let s1 := ((((s.setFld F.SLC_PORT_TEST_MODE mode n j).setFld F.SLC_PORT_TEST_ERRORS 0 n j).setFld F.SLC_PORT_TEST_PRBS_LOCK 0 n
        j).setFld F.SLC_PORT_TEST_LOOPING 0 n j)
      if s.fld F.SLC_PORT_STAT_STATE n j = 0 then s1
      else if (mode : Nat) = 0 then (if s.fld F.SLC_PORT_STAT_STATE n j = 8 then s1.portDown n j x 7 else s1)
      else
        let s2 := s1.portDown n j x 8
        s2.setHello x { s2.helloOf x with loopReq := (mode : Nat) == 3 }))

/-- R351 to R359: staging, validating, storing, discarding, arming, committing and loading an image. -/
def Obligations.ImageLoading : Prop :=
  Answers .imgBegin 0x10 (fun a c => a.beginImage c)
  ∧ Answers .imgChunk 0x11 (fun a c => a.chunkImage c)
  ∧ Answers .imgValidate 0x12 (fun a c => if a.stageState = 1 then (a.setStage 2).respond c 0 else a.respond c 0xD)
  ∧ Answers .imgStore 0x13 (fun a c =>
      if a.image.packages = [] then a.respond c 0x124
      else if 96 * 2 ^ 20 < a.image.packages.foldl (fun n b => n + b.length) 0 then a.respond c 0x208
      else { a with cmd := { a.cmd with work := a.cmd.work ++ [(c, .store)] } })
  ∧ (∀ (s : State), exec .validationDone s = .next (s.endValidation))
  ∧ (∀ (s : State), exec .discard s = .next (
      if [1, 3, 4].contains s.stageState then ({ s with stage := {} } : State).setStage 0 else s))
  ∧ (∀ (value : BitVec 32) (s : State), exec (.commitArm value) s = .next (s.writeCommitCtrl (value ||| 1#32).toNat))
  ∧ (∀ (value : BitVec 32) (s : State), exec (.commitNow value) s = .next (s.writeCommitCtrl (value ||| 2#32).toNat))
  ∧ (∀ (value : BitVec 32) (s : State), exec (.commitCancel value) s = .next (s.writeCommitCtrl (value ||| 4#32).toNat))
  ∧ (∀ (s : State), exec .imageCommit s = .next (
      if s.stageState = 5 ∧ s.stage.due ≤ s.count ∧ s.stage.tick ≤ s.now then
        let b := s.stage.bytes
        if s.safe then ((s.lastPackage b).lastStatus 0x401).setStage 3
        else
          let s1 := s.commitPackage b
          if s1.fld F.CFG_COMMIT_STAT_LAST_STATUS = 0 then ({ s1 with stage := {} } : State).setStage 0 else s1.setStage 3
      else s))
  ∧ (∀ (s : State), exec .bootImageLoad s = .next (s.loadStored))

/-- R365 to R367, R375, R376, R379 to R381: the host queues, the command input and forwarding. -/
def Obligations.HostPort : Prop :=
  (∀ (q : Fin 8) (tail : BitVec 16) (slots : List (List (BitVec 8))) (s : State), exec (.sqTailWrite q tail slots) s = .next (
      let tail := tail.toNat
      let size := 2 ^ s.fld F.MGT_SQ_CFG_LOG2 q
      let new := (tail % size + size - s.fld F.MGT_SQ_TAIL_TAIL q % size) % size
      let s1 := s.setFld F.MGT_SQ_TAIL_TAIL tail q
      if s.flag F.MGT_QP_CTRL_EN q then
        let x := s.queue q
        s1.setQueue q { x with slots := x.slots ++ (List.range new).map fun i => (s.now, Machine.slice (slots.getD i []) 0 64) }
      else s1))
  ∧ (∀ (q : Fin 8) (head : BitVec 16) (s : State), exec (.cqHeadWrite q head) s = .next (
      s.setFld F.MGT_CQ_HEAD_HEAD head.toNat q))
  ∧ (∀ (q : Fin 8) (value : BitVec 32) (s : State), exec (.qpEnWrite q value) s = .next (
      let v := value.toNat
      let was := s.flag F.MGT_QP_CTRL_EN q
      let s1 := s.wr .MGT_QP_CTRL (bitsOf v 0 1 + 2 * min (bitsOf v 1 4) 7 + 32 * bitsOf v 5 1) q
      if bitOf v 0 && !was then
        let s2 := (((s1.setFld F.MGT_SQ_HEAD_HEAD (s.fld F.MGT_SQ_TAIL_TAIL q) q).setFld F.MGT_CQ_TAIL_TAIL 0 q).setFld
          F.MGT_CQ_HEAD_HEAD 0 q).setFld F.MGT_QP_STAT_STOPPED 0 q
        s2.setQueue q { gen := (s.queue q).gen + 1 }
      else s1))
  ∧ (∀ (s : State), exec .commandTake s = .next (
      match s.nextHost, s.waitingInband with
      | some (q, t), i :: rest => if t ≤ i.tick then s.takeHost q else s.takeInband i rest
      | some (q, _), [] => s.takeHost q
      | none, i :: rest => s.takeInband i rest
      | none, [] => s))
  ∧ (∀ (x : Fin 256) (src : Fin 131072) (payload : List (BitVec 8)) (s : State), exec (.cmdRx x src payload) s = .next (
      { s with cmd := { s.cmd with inband := s.cmd.inband ++ [⟨x, src, payload, s.now, none⟩] } }))
  ∧ (∀ (width : BitVec 4) (speed : BitVec 3) (s : State), exec (.hostLinkUp width speed) s = .next (
      ((s.setFld F.MGT_HP_STAT_LINK_UP 1).setFld F.MGT_HP_STAT_WIDTH width.toNat).setFld F.MGT_HP_STAT_SPEED speed.toNat))
  ∧ (∀ (s : State), exec .forwardCommand s = .next (
      match s.cmd.taken with
      | c :: rest =>
        if pkChip c.bytes = s.ownChip then s else ({ s with cmd := { s.cmd with taken := rest } } : State).forward c
      | [] => s))
  ∧ (∀ (payload : List (BitVec 8)) (s : State), exec (.fwdResponse payload) s = .next (
      let b := payload
      match lookupKey s.cmd.forwards (pkFwd b - 1), decide (pkFwd b = 0) with
      | some e, false =>
        let r := b.take 2 ++ leBytes 2 (putBits (pkFlags b) 2 2 0) ++ Machine.slice b 4 2 ++ leBytes 2 e.fwd ++ b.drop 8
        (s.setForwards (eraseKey s.cmd.forwards (pkFwd b - 1))).deliver e.cmd r
      | _, _ => s.bump F.MGT_FWD_STAT_LATE))
  ∧ (∀ (entry : Fin 1024) (s : State), exec (.fwdTimeout entry) s = .next (
      match lookupKey s.cmd.forwards entry with
      | some e =>
        if e.sentAt + s.fld F.MGT_FWD_CFG_TMO * 1000000 ≤ s.now then (s.setForwards (eraseKey s.cmd.forwards entry)).respond e.cmd 0xA
        else s
      | none => s))

/-- R110, R111, R370, R372: NOP, the register packets and the allocation packets. -/
def Obligations.ResourceCommands : Prop :=
  Answers .nop 0x01 (fun a c => a.respond c 0)
  ∧ Answers .regRead 0x02 State.regRead
  ∧ Answers .regWrite 0x03 State.regWrite
  ∧ Answers .ctxAlloc 0x08 (fun a c =>
      if 256 ≤ c.arg then a.respond c 3
      else if a.leaving c.part then a.respond c 0xD
      else match a.freeCtx c.part c.arg with
        | some x => (a.setFld F.SCH_CTX_STATUS_STATE 1 x).respond c 0 x
        | none => a.respond c 0x41)
  ∧ Answers .groupAlloc 0x09 (fun a c =>
      let l := a.groupsOf c.part
      let low := State.freeGroup l l.length 0
      let g := if bitOf c.arg 16 then low else c.arg % 65536
      if 2 ^ 17 ≤ c.arg then a.respond c 3
      else if a.leaving c.part then a.respond c 0xD
      else if 65536 ≤ low then a.respond c 0x43
      else if l.contains g then a.respond c 0x4A
      else (a.addGroup c.part g).respond c 0 g)
  ∧ Answers .groupFree 0x0A (fun a c =>
      if 65536 ≤ c.arg then a.respond c 3
      else if ¬ (a.groupsOf c.part).contains c.arg then a.respond c 0x48
      else if a.groupHeld c.part c.arg then a.respond c 0x47
      else ({ a with groups := a.groups.filter (· != c.part * 65536 + c.arg) } : State).respond c 0)

/-- R390 to R402: sessions, reports, keys, debug states, removal packets, rekeys and TAP accesses. -/
def Obligations.SecurityRows : Prop :=
  Answers .spdmMsg 0x30 State.spdmCommand
  ∧ Answers .secReport 0x31 State.secReport
  ∧ Answers .secOpkey 0x32 (fun a c => if a.opStatus c = 0 then a.startWork c .opkey else a.respond c (a.opStatus c))
  ∧ Answers .debugSet 0x33 State.debugSet
  ∧ Answers .partRemove 0x34 State.partRemove
  ∧ Answers .linkRekey 0x35 State.linkRekey
  ∧ (∀ (message : List (BitVec 8)) (s : State), exec (.spdmVdmRx message) s = .next (
      match s.spdm none message with
      | (a, some b) => a.emit (.vdm b)
      | (a, none) => a.emit (.vdm [0x13, 0x7F, 0x03, 0x00])))
  ∧ (∀ (x : Fin 256) (p : Fin 16) (gen : BitVec 32) (s : State), exec (.rekeyReqRx x p gen) s = .next (
      if (s.port x).session.isSome then
        (s.installEpoch x p gen.toNat).respond
          { path := .frame x (s.linkPeer x), bytes := State.packet s.ownChip 0x30 p 0 (Config.rekeyRequest x p gen.toNat) } 0 0
          (Config.rekeyAck x p gen.toNat)
      else s))
  ∧ (∀ (x : Fin 256) (p : Fin 16) (gen : BitVec 32) (s : State), exec (.rekeyAckRx x p gen) s = .next (
      s.onPort x fun n j => s.rekeyAcked n j x p gen.toNat))
  ∧ (∀ (x : Fin 256) (s : State), exec (.linkSessionRetry x) s = .next (
      s.onPort x fun n j =>
      if s.portUp x ∧ (s.port x).triedAt + 100000000 ≤ s.now then
        (s.setPort x { s.port x with triedAt := s.now }).startSession n j x
      else s))
  ∧ (∀ (s : State), exec .tapAccess s = .next (s.setFld F.SEC_DEBUG_JTAG_USED 1))

/-- R403: a partition leaves by DRAINING, RETIRING and zeroising. -/
def Obligations.RemovalEvents : Prop :=
  (∀ (p : Fin 16) (s : State), exec (.removalDrained p) s = .next (
      if s.departing p && (s.activeOf p).isEmpty && (s.mgOf p).queue.isEmpty then s.setFld F.SEC_PART_STAT_STATE 4 p else s))
  ∧ (∀ (p : Fin 16) (s : State), exec (.removalDeadline p) s = .next (
      if s.departing p ∧ s.pastDue p then
        let act := s.activeOf p
        let s1 := act.foldl (fun a c => a.abortCtx c 7) s
        let m := s1.mgOf p
        let s2 := (s1.setMg p { m with queue := [], drains := [] }).showQueue p
        ((s2.setFld F.SEC_PART_RM_ABORTED act.length p).setFld F.SEC_PART_RM_MG_DISCARDED m.queue.length p).setFld
          F.SEC_PART_STAT_STATE 4 p
      else s))
  ∧ (∀ (p : Fin 16) (s : State), exec (.retiringDone p) s = .next (
      if s.partState p = 4 ∧ (s.activeOf p).isEmpty ∧ ¬ s.flag F.SEC_PART_STAT_ZEROISING p then
        let mine (k : Copy) : Bool := k.frame.part == p && !Frame.command k.frame.typ && onPorts s.allPorts k
        let n := s.copies.countP mine
        let s1 := s.allPorts.foldl (fun a x => a.retirePort x p) s
        let s2 := (s1.freeWhere mine).bump F.SEC_PART_DROP_DROP_TX n p
        ((s2.ctxsOf p).foldl (fun a c => if a.ctxState c = 0 then a else a.unbindCtx c) s2).setFld F.SEC_PART_STAT_ZEROISING 1 p
      else s))
  ∧ (∀ (p : Fin 16) (s : State), exec (.zeroiseDone p) s = .next (s.zeroised p))

/-- R407 to R415, R419: raises, clears, the safe state and the collector's registers. -/
def Obligations.CollectorEvents : Prop :=
  (∀ (fault : FaultOp) (s : State), exec (.faultRaise fault) s = .next (
      let s1 := match fault.upset with
        | some u => s.upsetWord u.core u.word.toNat u.both
        | none => s
      match fault.raise with
      | none => s1.deliverRaise
      | some r =>
        let i := r.src.toNat
        if State.faultSources.contains i then
          let s2 := if i = 0x01 then s1.bump F.FC_QECC_EVQ_UE else if i = 0x12 then s1.bump F.FC_QECC_MG_UE else s1
          s2.arrive ⟨i, r.inst.toNat, s2.count, s2.infoOf i r.inst.toNat, false⟩ false
        else s1))
  ∧ (∀ (mask : BitVec 64) (s : State), exec (.fcStatClear mask) s = .next (
      let mask := mask.toNat
      ((List.range 64).filter (bitOf mask)).foldl State.clearSource s))
  ∧ (∀ (s : State), exec .safeExit s = .next (
      if ¬ s.safe then s
      else if (List.range 64).any fun i => bitOf (s.rd .FC_STAT) i && s.sevOf i == 3 then s.setFld F.FC_SAFE_EXIT_REFUSED 1
      else
        let s1 := ((s.setFld F.FC_SAFE_SAFE 0).setFld F.GLB_STATUS_SAFE 0).showErr
        (List.range 512).foldl State.freeCore (s1.runHold s1.allPorts)))
  ∧ (∀ (k : Fin 4) (value : BitVec 32) (s : State), exec (.sevWrite k value) s = .next (
      let v := value.toNat
      let known := s.fc.oldSev.any fun e => e.1 == (k : Nat) && e.2.1 == s.now
      let old := if known then s.fc.oldSev else [((k : Nat), s.now, s.rd .FC_SEV k)] ++ s.fc.oldSev.filter (fun e => e.1 != (k : Nat))
      let s1 : State := { s with fc := { s.fc with oldSev := old } }
      (s1.wr .FC_SEV (if (k : Nat) = 0 then putBits v 0 4 7 else v) k).rewrote k))
  ∧ (∀ (value : BitVec 32) (s : State), exec (.fcErrWrite value) s = .next (
      let v := value.toNat
      let s1 := ((s.setFld F.FC_ERR_ERR_MIN (max 1 (bitsOf v 0 2))).setFld F.FC_ERR_HOLD (bitsOf v 2 1)).setFld F.FC_ERR_PULSE
        (clampTo 16 1000 (bitsOf v 4 10))
      s1.showErr.rewrote 4))
  ∧ (∀ (s : State), exec .errPulseEnd s = .next (
      if s.flag F.FC_ERR_PULSING ∧ s.fc.pulseAt + s.fld F.FC_ERR_PULSE * 1000 ≤ s.now then (s.setFld F.FC_ERR_PULSING 0).showErr else s))
  ∧ (∀ (value : BitVec 32) (s : State), exec (.fcInjGo value) s = .next (s.writeInj (value ||| 0x10000#32).toNat))

/-- R418, R420: the packets of the event FIFO and of snapshots, and a snapshot's capture. -/
def Obligations.EventCommands : Prop :=
  Answers .evtRead 0x38 State.evtRead
  ∧ Answers .evtAck 0x39 State.evtAck
  ∧ Answers .telSnapshot 0x3A State.askSnapshot
  ∧ Answers .telRead 0x3B State.readSnapshot
  ∧ (∀ (s : State), exec .snapshotCapture s = .next (
      match s.tel.asked with
      | some a =>
        if s.falls 1024 0 ∧ a.count < s.count / 1024 * 1024 then
          let s1 : State := { s with tel := { asked := none, snap := s.snapBytes a.slices a.samples } }
          let s2 := (((s1.setFld F.TEL_SNAP_STAT_STATE 2).setFld F.TEL_SNAP_STAT_SLICES a.slices).setFld F.TEL_SNAP_STAT_SAMPLES
            (b2n a.samples)).setFld F.TEL_SNAP_STAT_LENGTH (State.snapLength a.slices a.samples / 8)
          ((s2.wrap F.TEL_SNAP_STAT_COUNT).setFld F.TEL_SNAP_TICK_TICK s.count).respond a.cmd 0 s.count
        else s
      | none => s))

/-- R422 to R427, R435 to R439: the rails, the clocks and the SMBus. -/
def Obligations.SupplyEvents : Prop :=
  (∀ (volt : BitVec 16) (s : State), exec (.vinPowerUp volt) s = .next (
      if 10800 ≤ volt.toNat then
        ((s.afterReset fun a => a == 0x300004).powerOnReset 0 true).setFld F.PWR_VIN_VOLT volt.toNat
      else s))
  ∧ (∀ (volt : BitVec 16) (s : State), exec (.vinPowerDown volt) s = .next (
      if volt.toNat < 10200 then s.afterReset fun a => a == 0x300004 else s))
  ∧ (∀ (r : Fin 39) (m : RailOp) (s : State), exec (.railUp r m) s = .next (
      if s.fld F.PWR_RAIL_STAT_STATE r ≠ 1 then s
      else
        let s1 := ((s.setRail r 2).setFld F.PWR_RAIL_STAT_MV m.mv.toNat r).setFld F.PWR_RAIL_STAT_CURR m.curr.toNat r
        if 0x20 ≤ r then
          if r < 0x26 then (if s.seqState = 1 ∨ s.seqState = 4 then s1.setRail (r + 1) 1 else s1)
          else if s.seqState = 4 then ((s1.setSeq 2).setFld F.PWR_STANDBY_ACTIVE 0).setFld F.GLB_STATUS_STANDBY 0
          else s1
        else if 0x10 ≤ r then
          (if lookupKey s.pwr.waking (r - 16) = some 3 then s1.setRail (r - 16) 1 else s1)
        else if s.pwr.slot = some r then { s1 with pwr := { s1.pwr with slot := none } }
        else s1))
  ∧ (∀ (r : Fin 39) (s : State), exec (.railWindowMiss r) s = .next (
      if s.fld F.PWR_RAIL_STAT_STATE r = 1 then s.latchRail r 1 else s))
  ∧ (∀ (r : Fin 39) (current : Bool) (s : State), exec (.railTrip r current) s = .next (
      if s.fld F.PWR_RAIL_STAT_STATE r = 2 ∨ (s.fld F.PWR_RAIL_STAT_STATE r = 1 ∧ current) then
        s.latchRail r (if current then 2 else 1)
      else s))
  ∧ (∀ (locked : Bool) (s : State), exec (.pllLock locked) s = .next (
      if ¬ locked ∨ s.pwr.refLost then s
      else
        let s1 : State := { s with pwr := { s.pwr with pllLost := false } }
        if s.seqState = 1 ∧ s.fld F.PWR_RAIL_STAT_STATE 0x26 = 2 then
          { s1.setSeq 2 with boot := { s1.boot with start := 1 }, pwr := { s1.pwr with kicked := s1.pwr.now } }
        else s1))
  ∧ (∀ (s : State), exec .brownout s = .next (
      if s.seqState = 3 then
        let t := ((s.logicOff 0).noteCause 1).bump F.PWR_RST_CAUSE_BROWNOUTS
        { t with pwr := { t.pwr with due := { t.pwr.due with power := some 1 } } }
      else s))
  ∧ (∀ (pll : Bool) (s : State), exec (.refclkLoss pll) s = .next (
      let t : State := { s with pwr := { s.pwr with refLost := s.pwr.refLost || !pll, pllLost := s.pwr.pllLost || pll } }
      if s.pwr.refLost ∨ s.pwr.pllLost then t else t.report 0x3D 0))
  ∧ (∀ (s : State), exec .refclkReturn s = .next ({ s with pwr := { s.pwr with refLost := false } }))
  ∧ (∀ (off : BitVec 32) (pec : Bool) (s : State), exec (.smbusRegRead off pec) s = .next (
      if pec then s.emit (.smbus (s.smbusBytes off.toNat)) else s))
  ∧ (∀ (off : BitVec 32) (data : List (BitVec 8)) (pec : Bool) (s : State), exec (.smbusRegWrite off data pec) s = .next (
      if pec then s.smbusWrite off.toNat data else s))
  ∧ (∀ (r : BitVec 8) (pec : Bool) (s : State), exec (.railClear r pec) s = .next (
      if pec ∧ r.toNat < 0x27 then s.railClear r.toNat else s))
  ∧ (∀ (data : BitVec 8) (pec : Bool) (s : State), exec (.powerCycle data pec) s = .next (
      if pec ∧ data = 0xA5#8 then s.powerOnReset 2 true else s))
  ∧ (∀ (data : BitVec 8) (pec : Bool) (s : State), exec (.warmReset data pec) s = .next (
      if pec ∧ data = 0xA5#8 then s.warmReset 6 else s))

/-- R429 to R433: performance levels, the cap, temperatures and sleep. -/
def Obligations.SlicePower : Prop :=
  (∀ (go : BitVec 16) (s : State), exec (.pwrCommit go) s = .next (
      let go := go.toNat
      (((List.range 16).filter (bitOf go)).foldl State.commitSlice s).showCap))
  ∧ (∀ (n : Fin 16) (settled : BitVec 64) (s : State), exec (.plevelSwitch n settled) s = .next (
      let settled := settled.toNat
      match lookupKey s.pwr.levels n with
      | some x =>
        if x.at_ ≤ s.count ∧ (x.rises → settled ≤ s.count) then
          let late := x.rises && x.at_ != 0 && decide (x.at_ < settled)
          let s1 : State := { s with pwr := { s.pwr with levels := eraseKey s.pwr.levels n } }
          let s2 := (s1.setFld F.PWR_SLICE_STAT_PLVL x.target n).bump F.PWR_SLICE_STAT_CHANGES 1 n
          let s3 := if late then s2.setFld F.PWR_SLICE_STAT_LATE 1 n else s2
          match x.next with
          | some a => s3.retarget n a
          | none => s3
        else s
      | none => s))
  ∧ (∀ (vin : VinOp) (s : State), exec (.capLower vin) s = .next ((s.showVin vin).lowerCap))
  ∧ (∀ (vin : VinOp) (s : State), exec (.fastTrip vin) s = .next ((s.showVin vin).fastTrip vin))
  ∧ (∀ (vin : VinOp) (s : State), exec (.capRaise vin) s = .next ((s.showVin vin).raiseCap))
  ∧ (∀ (n : Fin 16) (temp : BitVec 8) (s : State), exec (.thermSample n temp) s = .next (
      if 115 ≤ temp.toNat then
        let t := (s.logicOff 0).noteCause 4
        { t with pwr := { t.pwr with shutdown := true } }
      else s.sampleTemp n temp.toNat))
  ∧ (∀ (n : Fin 16) (s : State), exec (.sliceWake n) s = .next (
      match s.wakeReady n with
      | none => s
      | some w =>
        let p : PwrX :=
          { s.pwr with wakes := s.pwr.wakes.erase w, waking := insertKey s.pwr.waking n w.was,
                       awakeAt := insertKey s.pwr.awakeAt n (s.now + State.wakeTicks w.was),
                       slot := if w.was = 1 then s.pwr.slot else some n }
        let s1 := ({ s with pwr := p } : State).setSliceState n 5
        if w.was = 1 then s1 else if w.was = 2 then s1.setRail n 1 else s1.setRail (16 + n) 1))
  ∧ (∀ (n : Fin 16) (s : State), exec (.wakeComplete n) s = .next (s.wakeDone n))
  ∧ (∀ (n : Fin 16) (s : State), exec (.sliceDrainStart n) s = .next (
      match lookupKey s.pwr.sleeps n with
      | some x =>
        if x.at_ ≤ s.count then
          ({ s with pwr := { s.pwr with sleeps := eraseKey s.pwr.sleeps n } } : State).beginSleep n x.target
        else s
      | none => s))
  ∧ (∀ (n : Fin 16) (s : State), exec (.codeRegionReload n) s = .next (
      if s.sliceState n = 0 then
        (State.sliceCores n).foldl (fun a c => if a.coreState c = 0 ∧ a.coreUsable c then (a.loadCode c).coreOn c else a) s
      else s))

/-- R435, R439, R440: standby and the resets, each 100 µs after its command. -/
def Obligations.ResetCommands : Prop :=
  (∀ (value : BitVec 32) (s : State), exec (.standbyReq value) s = .next (s.writeStandby (value ||| 1#32).toNat))
  ∧ (∀ (value : BitVec 32) (s : State), exec (.standbyExit value) s = .next (s.writeStandby (value ||| 2#32).toNat))
  ∧ (∀ (s : State), exec .standbyEntered s = .next (
      if ¬ s.pwr.entering then s
      else
        let s1 : State := { s with pwr := { s.pwr with entering := false } }
        let s2 := [0x20, 0x21, 0x22, 0x23].foldl (fun a r => a.setFld F.PWR_RAIL_STAT_LOWPWR 1 r) (s1.railsOff [0x26, 0x25, 0x24])
        ((s2.setSeq 3).setFld F.PWR_STANDBY_ACTIVE 1).setFld F.GLB_STATUS_STANDBY 1))
  ∧ (∀ (value : BitVec 32) (s : State), exec (.rstCmdWarm value) s = .next (s.writeRst (value ||| 1#32).toNat))
  ∧ (∀ (value : BitVec 32) (s : State), exec (.rstCmdMp value) s = .next (s.writeRst (value ||| 2#32).toNat))
  ∧ (∀ (value : BitVec 32) (s : State), exec (.rstCmdSlice value) s = .next (
      let v := value.toNat
      if bitsOf v 8 8 ≠ 0xA5 then s
      else
        let d := s.pwr.due
        let w := if bitOf v 0 ∧ d.warm.isNone then some s.now else d.warm
        let m := if bitOf v 1 ∧ d.mp.isNone then some s.now else d.mp
        let sl := ((List.range 16).filter fun n => bitOf v (16 + n)).foldl (fun l n =>
          if (lookupKey l n).isSome then l else insertKey l n s.now) d.slices
        { s with pwr := { s.pwr with due := { d with warm := w, mp := m, slices := sl } } }))
  ∧ (∀ (s : State), exec .powerOnReset s = .next (
      match s.pwr.due.power with
      | some b => s.powerOnReset b false
      | none => s))
  ∧ (∀ (s : State), exec .deviceWarmReset s = .next (if s.pwr.due.warm.any s.rstDue then s.warmReset 5 else s))
  ∧ (∀ (n : Fin 16) (s : State), exec (.sliceReset n) s = .next (
      match lookupKey s.pwr.due.slices n with
      | some t =>
        let s1 : State := { s with pwr := { s.pwr with due := { s.pwr.due with slices := eraseKey s.pwr.due.slices n } } }
        if !s.rstDue t then s else if s.excluded t then s1 else s1.sliceReset n
      | none => s))
  ∧ (∀ (s : State), exec .mpReset s = .next (
      match s.pwr.due.mp with
      | some t =>
        let s1 : State := { s with pwr := { s.pwr with due := { s.pwr.due with mp := none } } }
        if !s.rstDue t then s else if s.excluded t then s1 else s1.mpReset 7
      | none => s))

/-- R449 to R452, R459, R460: the boot ROM, the confirmation of firmware and its relay. -/
def Obligations.BootEvents : Prop :=
  (∀ (service : Bool) (s : State), exec (.romBoot service) s = .next (
      if s.boot.start = 0 then s
      else
        let pressed := service && s.boot.start != 3
        let s1 : State := { s with boot := { s.boot with start := 0, running := false, confirming := false, timer := false },
                                   pwr := { s.pwr with kicked := s.pwr.now } }
        let s2 := ((s1.wr .GLB_BOOT_STAT 0).setFld F.GLB_BOOT_STAT_MIN_SVN s.nv.minSvn).setFld F.GLB_STATUS_RECOVERY 0
        if pressed then s2.recovery 1 else s2.romDirectory))
  ∧ (∀ (s : State), exec .healthConfirm s = .next (
      if s.boot.running ∧ s.boot.timer ∧ ¬ s.flag F.GLB_BOOT_STAT_CONFIRMED then
        { s with boot := { s.boot with confirming := true } }
      else s))
  ∧ (∀ (s : State), exec .confirmWriteDone s = .next (
      if ¬ s.boot.confirming then s
      else
        let v := { s.nv.promote with confirmed := true, fails := 0 }
        let s1 := ({ s with boot := { s.boot with confirming := false, timer := false } } : State).withNv v.written
        ((s1.setFld F.GLB_BOOT_STAT_CONFIRMED 1).setFld F.GLB_BOOT_STAT_FAILS 0).setFld F.GLB_BOOT_STAT_TRIAL 0))
  ∧ (∀ (s : State), exec .confirmTimerExpiry s = .next (
      if s.boot.timer ∧ ¬ s.flag F.GLB_BOOT_STAT_CONFIRMED ∧ s.boot.jumped + 600000000000 ≤ s.now then
        (({ s with boot := { s.boot with timer := false } } : State).setFld F.GLB_BOOT_STAT_EXPIRED 1).setFld F.GLB_BOOT_TIMER_LEFT 0
      else s))
  ∧ (∀ (payload : List (BitVec 8)) (s : State), exec (.relayResponse payload) s = .next (
      let b := payload
      match s.boot.relay with
      | none => s
      | some r =>
        if ¬ s.boot.running ∨ r.waits then s
        else
          let st := leAt b 22 2
          let s1 := s.setFld F.GLB_FW_RELAY_LAST_STATUS st r.entry
          let last := ceilDiv s.nv.stage.bytes.length 4096 + 1
          if st ≠ 0 then s1.relayFailed r
          else if (r.step = 0 ∧ pkArg b = 1) ∨ r.step = last then (s1.setFld F.GLB_FW_RELAY_STATE 2 r.entry).relayNext
          else s1.relaySend { r with step := r.step + 1 }))
  ∧ (∀ (s : State), exec .relayRetry s = .next (
      match s.boot.relay with
      | none => s
      | some r =>
        let wait := if r.waits then 10000000000 else s.fld F.MGT_FWD_CFG_TMO * 1000000
        if ¬ s.boot.running ∨ s.now < r.sentAt + wait then s
        else if ¬ r.waits then s.relayFailed r
        else (s.setFld F.GLB_FW_RELAY_TRIES (min 3 (s.fld F.GLB_FW_RELAY_TRIES r.entry + 1)) r.entry).relaySend { entry := r.entry }))

/-- R453, R454, R456, R457: the packets of firmware and of recovery mode, and background work. -/
def Obligations.FirmwareCommands : Prop :=
  Answers .fwBegin 0x20 State.fwBegin
  ∧ Answers .fwChunk 0x21 State.fwChunk
  ∧ Answers .fwEnd 0x22 State.fwEnd
  ∧ Answers .fwRelay 0x23 State.fwRelay
  ∧ Answers .fwDiscard 0x24 (fun a c => a.relayStop.startWork c .fwDiscard)
  ∧ Answers .fwSvnCommit 0x25 (fun a c =>
      if a.flag F.GLB_BOOT_STAT_CONFIRMED then a.startWork c .svnCommit else a.respond c 0x205)
  ∧ Answers .settingsRead 0x26 (fun a c => a.respond c 0 0 (a.nv.settings.getD []))
  ∧ Answers .settingsWrite 0x27 (fun a c =>
      if ¬ State.settingsWf c.payload then a.respond c 3
      else if State.setFormat c.payload ≠ a.boot.settingsFmt then a.respond c 0x206
      else a.startWork c .settings)
  ∧ (∀ (index : BitVec 16) (ok : Bool) (s : State), exec (.backgroundCommandDone index ok) s = .next (
      let i := index.toNat
      match s.cmd.work[i]? with
      | none => s
      | some (c, w) =>
        let s1 : State := { s with cmd := { s.cmd with work := s.cmd.work.eraseIdx i } }
        if ok then s1.workDone c w else s1.respond c 0x207))
  ∧ Answers .recInfo 0x2C (fun a c => a.recOnly c fun t d =>
      t.respond d 0 0 (Machine.slice (Config.directoryCopy t.nv) 0 4096 ++ leBytes 8 (t.rd .GLB_BOOT_STAT)))
  ∧ Answers .recChunk 0x2D (fun a c => a.recOnly c State.recChunk)
  ∧ Answers .recInstall 0x2E (fun a c => a.recOnly c fun t d => if 2 ≤ d.arg then t.respond d 3 else t.startWork d .recInstall)
  ∧ Answers .recExit 0x2F (fun a c => a.recOnly c fun t d =>
      let u := t.respond d 0
      { u with boot := { u.boot with start := 3 } })

/-! The queue, the clock and the canonical form -/

/-- The command at the front of the queue runs on the queue's rest. -/
def Obligations.StepRunsFront : Prop :=
  ∀ (c : Instr) (s : State), step { s with pending := c :: s.pending } = exec c s

/-- The model's choice (log entry 2): on an empty queue a tick passes; R438: nothing moves while the reference clock is absent
or the device is off; R25, R140, R141: the schedule count moves on by one, holds at its maximum, and holds for a backward
correction. -/
def Obligations.TickOnEmptyQueue : Prop :=
  (∀ s : State, s.pending = [] → step s = .next s.tick)
  ∧ (∀ s : State, s.clocked = false → s.tick = s)
  ∧ (∀ s : State, s.Inv → s.sync.hold = 0 → s.advanceCount.count = min (s.count + 1) (2 ^ 64 - 1))
  ∧ (∀ s : State, s.sync.hold ≠ 0 → s.advanceCount.count = s.count ∧ s.advanceCount.sync.hold = s.sync.hold - 1)

/-- Every command answers a next state, in every state, and leaves the commands that wait as they are; so does every step. -/
def Obligations.EveryCommandCompletes : Prop :=
  (∀ (c : Instr) (s : State), ∃ t, exec c s = .next t ∧ t.pending = s.pending) ∧ ∀ s : State, ∃ t, step s = .next t

/-- Every step keeps the registers, their shadows and core SRAM in canonical form: equal contents stay equal data. -/
def Obligations.StepKeepsInv : Prop := ∀ s t : State, s.Inv → step s = .next t → t.Inv

/-- A run from reset, whatever commands it is given, stays in canonical form. -/
def Obligations.ReachedInv : Prop := ∀ s : State, Reached s → s.Inv

/-- The reset state is in canonical form. -/
def Obligations.ResetInv : Prop := State.reset.Inv

/-- R360, R378: after reset each register outside the digests reads its reset value, the device digest is that of the empty
image, and no command, copy, session, event or output is there. The reset values that the spec does not give are the model's
(log entries 3 and 4). -/
def Obligations.ResetValues : Prop :=
  (∀ (r : RegName) (i j k : Nat), r.addr i j k < 0x400040 ∨ 0x400300 ≤ r.addr i j k →
    State.reset.rd r i j k = (r.resetAt i).toNat)
  ∧ (∀ k : Fin 4, State.reset.rd .CFG_DEV_DIGEST k = leAt (sha3 [0x20#8]) (8 * k) 8)
  ∧ State.reset.mem = [] ∧ State.reset.pending = [] ∧ State.reset.copies = [] ∧ State.reset.outbox = []
  ∧ State.reset.fc.fifo = [] ∧ State.reset.sec.sessions = [] ∧ State.reset.groups = [] ∧ State.reset.image.sections = []

/-! Registers -/

/-- R8, R9: a write of a register whose write does nothing more acts on each bit by its access code, leaves RO, ROS, WO and
reserved bits, raises no error, and leaves every other register, the memory and the rest of the Y5. -/
def Obligations.RegisterAccess : Prop :=
  ∀ (s : State) (r : RegName) (v : BitVec 64) (i j k : Nat), s.Inv →
    let t := s.plainWrite r v.toNat i j k
    let w := clampReg r (v.toNat % 2 ^ r.row.width)
    (∀ off : BitVec 30, regAt off.toNat = some (r, i, j, k) → s.writeSpecial r v.toNat i j k = none →
      s.writeControl r v.toNat i = none → exec (.registerWrite off v) s = .next t)
    ∧ t = { s with regs := t.regs, shadow := t.shadow }
    ∧ (∀ (q : RegName) (a b c : Nat), q.addr a b c ≠ r.addr i j k →
      t.rd q a b c = s.rd q a b c ∧ t.rdShadow q a b c = s.rdShadow q a b c)
    ∧ ∀ b, b < 64 →
      ((r.mask .rw).testBit b → (t.rd r i j k).testBit b = w.testBit b)
      ∧ ((r.mask .w1c).testBit b → (t.rd r i j k).testBit b = ((s.rd r i j k).testBit b && !v.toNat.testBit b))
      ∧ ((r.mask .w1s).testBit b → (t.rd r i j k).testBit b = ((s.rd r i j k).testBit b || v.toNat.testBit b))
      ∧ ((r.mask .rwc).testBit b → (t.rdShadow r i j k).testBit b = w.testBit b)
      ∧ ((r.mask .rw).testBit b = false → (r.mask .w1c).testBit b = false → (r.mask .w1s).testBit b = false →
        (t.rd r i j k).testBit b = (s.rd r i j k).testBit b)
      ∧ ((r.mask .wo).testBit b → (t.plainRead r i j k).testBit b = false)

/-- R4: a written field that has a range takes the nearer bound, and the other bits are kept. -/
def Obligations.WriteRanges : Prop :=
  ∀ (r : RegName) (v : Nat),
    (∀ e ∈ writeRanges r, bitsOf (clampReg r v) e.1 e.2.1 = clampTo e.2.2.1 e.2.2.2 (bitsOf v e.1 e.2.1)
      ∧ e.2.2.1 ≤ bitsOf (clampReg r v) e.1 e.2.1 ∧ bitsOf (clampReg r v) e.1 e.2.1 ≤ e.2.2.2)
    ∧ ∀ b, (∀ e ∈ writeRanges r, b < e.1 ∨ e.1 + e.2.1 ≤ b) → (clampReg r v).testBit b = v.testBit b

/-- R191, R400: a write of a core's register file, by either command, takes effect only in HALTED with its partition FULL, and
then never on p0; otherwise it only sets INSPECT_REFUSED. A read elsewhere than in IDLE and HALTED, or LOCKED, gives 0. -/
def Obligations.RegisterFileGate : Prop :=
  (∀ (n : Fin 512) (off : BitVec 16) (v : BitVec 64) (r : RegName) (i j k : Nat) (s : State),
    regAt (0x2000000 + n * 0x10000 + off.toNat) = some (r, i, j, k) → isRegfile r →
    exec (.rcRegfileWrite n off v) s = .next (
      if s.coreState i = 5 ∧ s.debugState i = 2 then (if r = .RC_P ∧ j = 0 then s else s.plainWrite r v.toNat i j k)
      else s.setFld F.RC_STATUS_INSPECT_REFUSED 1 i))
  ∧ (∀ (off : BitVec 30) (v : BitVec 64) (r : RegName) (i j k : Nat) (s : State),
    regAt off.toNat = some (r, i, j, k) → isRegfile r →
    exec (.registerWrite off v) s = .next (
      if s.coreState i = 5 ∧ s.debugState i = 2 then (if r = .RC_P ∧ j = 0 then s else s.plainWrite r v.toNat i j k)
      else s.setFld F.RC_STATUS_INSPECT_REFUSED 1 i))
  ∧ (∀ (s : State) (r : RegName) (i j k : Nat), isRegfile r →
    (s.coreState i ≠ 1 ∧ s.coreState i ≠ 5) ∨ s.debugState i = 0 → s.readReg r i j k = 0)

/-- R168: a write through the chip window changes no byte of the code region, no byte outside the words written and no byte of
another core; the word of one write reads back, unless a launch in progress reads it as its parameter copy (R128); one to the
code region only sets WIN_REFUSED. -/
def Obligations.SramWindow : Prop :=
  (∀ (n m : Fin 512) (addr a : BitVec 19) (words : List (BitVec 32)) (s t : State), s.Inv →
    exec (.sramWindowWrite n addr words) s = .next t →
    m ≠ n ∨ a.toNat < addr.toNat / 4 * 4 ∨ addr.toNat / 4 * 4 + 4 * words.length ≤ a.toNat ∨ a.toNat < 0x10000 →
    t.sram m a.toNat = s.sram m a.toNat)
  ∧ (∀ (n : Fin 512) (addr : BitVec 19) (w : BitVec 32) (s : State), s.Inv → 0x10000 ≤ addr.toNat →
    s.liveParam n (addr.toNat / 4 * 4) = none →
    ∃ t, exec (.sramWindowWrite n addr [w]) s = .next t ∧ leNat (t.sramBytes n (addr.toNat / 4 * 4) 4) = w.toNat)
  ∧ (∀ (n : Fin 512) (addr : BitVec 19) (w : BitVec 32) (s : State), addr.toNat < 0x10000 →
    exec (.sramWindowWrite n addr [w]) s = .next (s.setFld F.RC_STATUS_WIN_REFUSED 1 n))

/-! Roles -/

/-- R387: what a role must be, or hold, for a command to be permitted: a tenant's register command names only its partition's
targets, a tenant's partition command its own partition, a command that reads telemetry or events (R421) needs HOST,
OPERATOR or a peer, and every other but NOP, SEC_REPORT, SPDM_MSG, the register commands, the partition commands and
PART_REMOVE needs HOST or OPERATOR; PART_REMOVE is the partition's tenant's too. -/
def Obligations.Permissions : Prop :=
  (∀ (s : State) (t : Nat) (b : Bytes), pkOp b = 2 ∨ pkOp b = 3 → s.permitted (.tenant t) b = true →
    ∀ off ∈ State.wordsOf b, s.scopeOf off = some t)
  ∧ (∀ (s : State) (r : Role) (b : Bytes), pkOp b = 3 → s.permitted r b = true → ∀ off ∈ State.wordsOf b, s.scopeOf off = none →
    r = .host ∨ r = .operator)
  ∧ (∀ (s : State) (t : Nat) (b : Bytes), pkOp b ∈ partOpcodes → s.permitted (.tenant t) b = true → pkPart b = t)
  ∧ (∀ (s : State) (r : Role) (b : Bytes), pkOp b ∉ [0x01, 0x02, 0x03, 0x30, 0x31, 0x34, 0x38, 0x3A, 0x3B] →
    pkOp b ∉ partOpcodes → (s.permitted r b = true ↔ r = .host ∨ r = .operator))
  ∧ (∀ (s : State) (r : Role) (b : Bytes), pkOp b ∈ [0x38, 0x3A, 0x3B] →
    (s.permitted r b = true ↔ r = .host ∨ r = .operator ∨ r = .peer))
  ∧ (∀ (s : State) (r : Role) (b : Bytes), pkOp b = 0x34 →
    (s.permitted r b = true ↔ r = .host ∨ r = .operator ∨ r = .tenant (pkPart b)))
  ∧ (∀ (s : State) (r : Role) (b : Bytes), pkOp b ∈ partOpcodes → s.permitted r b = true → r = .host ∨ r = .operator →
    s.flag F.SEC_PART_STAT_OPERATOR_ACCESS (pkPart b) = true)

/-! Cores -/

/-- R173, R224: the sum of ADD stands in RD one cycle after its issue; the other scalar registers of the core and core SRAM
stay as they were. -/
def Obligations.ScalarWriteLands : Prop :=
  ∀ (p : IssueAt) (f : RForm) (s : State), s.Inv → s.issues p.core → s.faultAt p 0x30 f.bits = none →
    (s.core p.core).writes = [] → (s.core p.core).stores = [] →
    ∃ t, exec (.sadd p f) s = .next t
      ∧ (t.tickCore p.core).sreg p.core f.rd.toNat
        = (s.sreg p.core f.ra.toNat + Claims.second s p.core p.ext.toNat f) % 2 ^ 64
      ∧ (∀ k, k < 32 → k ≠ f.rd.toNat → (t.tickCore p.core).sreg p.core k = s.sreg p.core k)
      ∧ (t.tickCore p.core).mem = s.mem

/-- Until their write cycle, operations that do not fault change nothing but the record of what their core has in flight: no
register, no byte of SRAM (R166, R173). -/
def Obligations.OperationFrame : Prop :=
  OnlyCores .iadd 0x0A VForm.bits ∧ OnlyCores .isub 0x0B VForm.bits ∧ OnlyCores .imin 0x0C VForm.bits
  ∧ OnlyCores .imax 0x0D VForm.bits ∧ OnlyCores .vand 0x0E VForm.bits ∧ OnlyCores .vor 0x0F VForm.bits
  ∧ OnlyCores .vxor 0x10 VForm.bits ∧ OnlyCores .mov 0x11 VForm.bits ∧ OnlyCores .bcast 0x12 VForm.bits
  ∧ OnlyCores .stV 0x21 MForm.bits ∧ OnlyCores .stS 0x23 MForm.bits ∧ OnlyCores .srel 0x26 WaitForm.bits
  ∧ OnlyCores .sadd 0x30 RForm.bits ∧ OnlyCores .ssub 0x31 RForm.bits ∧ OnlyCores .smul 0x32 RForm.bits
  ∧ OnlyCores .sand 0x33 RForm.bits ∧ OnlyCores .sor 0x34 RForm.bits ∧ OnlyCores .sxor 0x35 RForm.bits
  ∧ OnlyCores .shl 0x36 RForm.bits ∧ OnlyCores .shr 0x37 RForm.bits ∧ OnlyCores .sra 0x38 RForm.bits
  ∧ OnlyCores .movi 0x39 JForm.bits ∧ OnlyCores .aadd 0x3A RForm.bits ∧ OnlyCores .mova 0x3B RForm.bits
  ∧ OnlyCores .movs 0x3C RForm.bits ∧ OnlyCores .pset 0x3D RForm.bits

/-- R60: a subnormal operand keeps its value, and a result below the normal range is delivered in whole units of the smallest
subnormal, in every float format and under every rounding mode. -/
def Obligations.SubnormalsKept : Prop :=
  (∀ (f : Fmt) (bits : Nat), f ≠ .int8 → bitsOf bits f.mb f.eb = 0 →
    f.value bits = .fin (bitOf bits (f.width - 1)) (bitsOf bits 0 f.mb) (1 - (f.bias : Int) - f.mb))
  ∧ (∀ (f : Fmt) (mode : Rnd) (neg : Bool) (m : Nat) (e : Int), f ≠ .int8 → m ≠ 0 → (m.log2 : Int) + e < 1 - (f.bias : Int) →
    roundTo f mode (.fin neg m e)
      = ⟨roundUnits mode m e (1 - (f.bias : Int) - f.mb) + (if neg then 2 ^ (f.width - 1) else 0), false⟩)

/-- R58, R68: a value that a format holds rounds to its own encoding, without overflow, under every rounding mode. -/
def Obligations.RoundingIsExactOnValues : Prop :=
  ∀ (f : Fmt) (mode : Rnd) (bits : Nat) (neg : Bool) (m : Nat) (e : Int), bits < 2 ^ f.width → f.value bits = .fin neg m e →
    roundTo f mode (.fin neg m e) = ⟨bits, false⟩

/-- R68: to nearest even, the units chosen are within half a unit of the value, and even at exactly half; toward zero they are
the whole units below it; a stochastic rounding takes the units below or the next, and the value itself when it is whole. -/
def Obligations.RoundingUnits : Prop :=
  ∀ (m : Nat) (e q : Int), e < q →
    let u : Int := (2 ^ (q - e).toNat : Nat)
    let near : Int := roundUnits .rne m e q
    (2 * (near * u - m) ≤ u ∧ -u ≤ 2 * (near * u - m) ∧ ((2 * (near * u - m) = u ∨ 2 * (near * u - m) = -u) → near % 2 = 0))
    ∧ ((roundUnits .rtz m e q : Int) * u ≤ m ∧ (m : Int) < (roundUnits .rtz m e q + 1 : Int) * u)
    ∧ ∀ r, (roundUnits (.sr r) m e q = roundUnits .rtz m e q ∨ roundUnits (.sr r) m e q = roundUnits .rtz m e q + 1)
      ∧ ((roundUnits .rtz m e q : Int) * u = m → roundUnits (.sr r) m e q = roundUnits .rtz m e q)

/-! The record, groups, faults, resets -/

/-- R51: an append to a full queue removes the oldest entry, keeps the others in their order, and puts 1 into the LOST field of
the entry appended. -/
def Obligations.LossyAppend : Prop :=
  ∀ (s : State) (p seq : Nat) (e : Bytes), (s.mgOf p).queue.length = 4160 →
    ∃ x : QueuedX, ((s.append p seq e).mgOf p).queue = (s.mgOf p).queue.drop 1 ++ [x] ∧ leAt x.entry 22 2 = 1
      ∧ leAt x.entry 0 6 = seq % 2 ^ 48

/-- R111: GROUP_ALLOC of the lowest free ID gives the lowest that the partition does not hold, GROUP_EXHAUSTED when it holds all;
an ID allocated is held from then on, and no other ID of any partition is touched. -/
def Obligations.GroupIds : Prop :=
  (∀ (s : State) (c : TakenX) (rest : List TakenX), s.cmd.taken = c :: rest → pkChip c.bytes = s.ownChip → c.op = 9 →
    c.arg = 65536 → s.leaving c.part = false →
    (∀ g, g < 65536 → g ∉ s.groupsOf c.part → (∀ h, h < g → h ∈ s.groupsOf c.part) →
      exec .groupAlloc s = .next (((({ s with cmd := { s.cmd with taken := rest } } : State)).addGroup c.part g).respond c 0 g))
    ∧ ((∀ g, g < 65536 → g ∈ s.groupsOf c.part) →
      exec .groupAlloc s = .next (({ s with cmd := { s.cmd with taken := rest } } : State).respond c 0x43)))
  ∧ (∀ (s : State) (p q g h : Nat), g < 65536 → h < 65536 →
    (h ∈ (s.addGroup p g).groupsOf q ↔ (q = p ∧ h = g) ∨ h ∈ s.groupsOf q))

/-- R407, R408: a raise at severity Count or Notify sets the source's bit in FC_STAT, counts up to 0xFFFF_FFFF, and records the
instance, and the tick and instance of the first since the bit was clear; the other sources' bits stay. -/
def Obligations.RaiseRecorded : Prop :=
  ∀ (s : State) (r : RaiseOp), s.Inv → State.faultSources.contains r.src.toNat = true → s.sevOf r.src.toNat ≤ 1 →
    ∃ t, exec (.faultRaise { raise := some r }) s = .next t
      ∧ (∀ b, b < 64 → (t.rd .FC_STAT).testBit b = ((s.rd .FC_STAT).testBit b || b == r.src.toNat))
      ∧ t.fld F.FC_SRC_CNT_COUNT r.src.toNat = min (s.fld F.FC_SRC_CNT_COUNT r.src.toNat + 1) 0xFFFFFFFF
      ∧ t.fld F.FC_SRC_INST_LAST r.src.toNat = r.inst.toNat
      ∧ (bitOf (s.rd .FC_STAT) r.src.toNat = false →
        t.rd .FC_SRC_FIRST r.src.toNat = s.count ∧ t.fld F.FC_SRC_INST_FIRST r.src.toNat = r.inst.toNat)
      ∧ (bitOf (s.rd .FC_STAT) r.src.toNat = true →
        t.rd .FC_SRC_FIRST r.src.toNat = s.rd .FC_SRC_FIRST r.src.toNat
        ∧ t.fld F.FC_SRC_INST_FIRST r.src.toNat = s.fld F.FC_SRC_INST_FIRST r.src.toNat)

/-- R417, R418: the event FIFO never holds more than 65,600 entries; an entry created goes to its end with the next SEQ, and in
a full FIFO the oldest gives way and counts in FC_EVQ_LOST. -/
def Obligations.EventFifo : Prop :=
  ∀ (s : State) (e : Event), s.Inv → s.fc.fifo.length ≤ 65600 →
    (s.createEntry e).fc.fifo.length ≤ 65600
    ∧ (s.createEntry e).fc.fifo
      = (if s.fc.fifo.length = 65600 then s.fc.fifo.drop 1 else s.fc.fifo) ++ [{ e with seq := s.fld F.FC_EVQ_STAT_NEXT_SEQ }]
    ∧ (s.createEntry e).fld F.FC_EVQ_STAT_NEXT_SEQ = (s.fld F.FC_EVQ_STAT_NEXT_SEQ + 1) % 2 ^ 32
    ∧ (s.createEntry e).fld F.FC_EVQ_LOST_LOST
      = (if s.fc.fifo.length = 65600 then min (s.fld F.FC_EVQ_LOST_LOST + 1) 0xFFFFFFFF else s.fld F.FC_EVQ_LOST_LOST)

/-- R368: PERST_N resets every MGT register of the host port to its reset value (RSP_LOST is kept through it) and disables every
queue pair; commands taken, in hand, forwarded or in band stay, and the response of a host command taken before is discarded
and counted in RSP_LOST. -/
def Obligations.PerstResets : Prop :=
  ∀ s : State, s.Inv → ∃ t, exec .perst s = .next t
    ∧ (∀ q, q < 8 → (∀ r ∈ State.hostRegs, t.rd r q = (r.resetAt q).toNat) ∧ t.flag F.MGT_QP_CTRL_EN q = false)
    ∧ t.fld F.MGT_HP_STAT_LINK_UP = 0 ∧ t.fld F.MGT_HP_STAT_WIDTH = 0 ∧ t.fld F.MGT_HP_STAT_SPEED = 0
    ∧ t.fld F.MGT_HP_STAT_RSP_LOST = s.fld F.MGT_HP_STAT_RSP_LOST
    ∧ t.cmd.taken = s.cmd.taken ∧ t.cmd.work = s.cmd.work ∧ t.cmd.forwards = s.cmd.forwards ∧ t.cmd.inband = s.cmd.inband
    ∧ ∀ (c : TakenX) (q gen status arg : Nat) (payload : Bytes), c.path = .host q gen → q < 8 →
      status ∉ [6, 0x301, 0x302] → t.respond c status arg payload = t.bump F.MGT_HP_STAT_RSP_LOST

/-- R442: the watchdog expires when EN is 1 and no KICK has been written for TMO ms (default 2,000, range 100 to 60,000); expiry
raises PWR_WDT and causes an MP reset; EN is 1 after every MP reset. -/
def Obligations.Watchdog : Prop :=
  (∀ s : State, exec .wdtExpiry s = .next (
    if s.flag F.PWR_WDT_EN ∧ s.pwr.kicked + s.fld F.PWR_WDT_TMO * 1000000 ≤ s.pwr.now then (s.report 0x3E 0).mpReset 8 else s))
  ∧ (∀ s : State, exec .wdtKick s = .next { s with pwr := { s.pwr with kicked := s.pwr.now } })
  ∧ (∀ (s : State) (cause : Nat), s.Inv → (s.mpReset cause).flag F.PWR_WDT_EN = true)
  ∧ State.reset.fld F.PWR_WDT_TMO = 2000
  ∧ (∀ v : Nat, 100 ≤ bitsOf (clampReg .PWR_WDT v) 0 16 ∧ bitsOf (clampReg .PWR_WDT v) 0 16 ≤ 60000)

/-- R40, R441: an MP reset leaves the cores, core SRAM, the contexts, the record engine and its queues, the schedule counter's
synchronisation and the committed image as they are, and answers every command in hand NOT_READY by holding none. -/
def Obligations.MpResetKeeps : Prop :=
  ∀ (s : State) (cause : Nat),
    (s.mpReset cause).mem = s.mem ∧ (s.mpReset cause).cores = s.cores ∧ (s.mpReset cause).ctxs = s.ctxs
    ∧ (s.mpReset cause).mg = s.mg ∧ (s.mpReset cause).sync = s.sync
    ∧ (s.mpReset cause).image = { s.image with packages := [] }
    ∧ (s.mpReset cause).cmd.taken = [] ∧ (s.mpReset cause).cmd.work = []

/-- The events of rows whose condition does not hold change nothing (log entries 11 and 12): an engine that does not run, a core
that does not issue, a port that the image does not define, a count at which no correction or slot falls, no image under
validation, no packages under load, no partition to zeroise, no wake, no request or pointer to decide on. -/
def Obligations.NothingOutOfTurn : Prop :=
  (∀ (n : Fin 512) (k : Fin 4) (s : State), s.seRuns n k 0 = false → exec (.seTileWrite n k) s = .next s)
  ∧ (∀ (n : Fin 512) (k : Fin 4) (s : State), s.seRuns n k 1 = false → exec (.seFrameQueue n k) s = .next s)
  ∧ (∀ (x : Fin 256) (s : State), s.portAt x = none → exec (.frameTxStart x) s = .next s
    ∧ ∀ (raw : Bytes) (bad : Bool) (time : Nat), exec (.frameRx x raw bad time) s = .next s
      ∧ exec (.helloRx x raw time) s = .next s)
  ∧ (∀ s : State, s.count % 2 ^ 20 ≠ 2 ^ 20 - 1 → exec .epochCorrection s = .next s)
  ∧ (∀ (frac : Fin 16) (s : State), 2 ≤ s.source → exec (.syncInPulse frac) s = .next s)
  ∧ (∀ (x : Fin 256) (e : Fin 128) (s : State), ((s.slotsOf x).find? fun k => k.entry == (e : Nat)) = none →
    exec (.slotStart x e) s = .next s)
  ∧ (∀ s : State, s.stageState ≠ 2 → exec .validationDone s = .next s)
  ∧ (∀ s : State, ¬ (s.boot.running ∧ s.boot.fresh) → exec .bootImageLoad s = .next s)
  ∧ (∀ (p : Fin 16) (s : State), ¬ (s.partState p = 4 ∧ s.flag F.SEC_PART_STAT_ZEROISING p) → exec (.zeroiseDone p) s = .next s)
  ∧ (∀ (n : Fin 16) (s : State), lookupKey s.pwr.waking n = none → exec (.wakeComplete n) s = .next s)
  ∧ (∀ (p : IssueAt) (f : WaitForm) (g : ZForm) (s : State), ¬ s.issues p.core →
    exec (.swait p f) s = .next s ∧ exec (.endOp p g) s = .next s)
  ∧ (∀ (n : Fin 16) (s : State), s.openRequests n = [] → exec (.origAdmit n) s = .next s
    ∧ ((∀ c ∈ s.copies, c.slice = n → c.phase ≠ .granted) → exec (.pointerHandover n) s = .next s))

/-! The PCS, shared registers, ECC, the counters' ends, measurements -/

/-- R296: the scrambler and the descrambler run on continuously; from a common state the descrambler recovers what the scrambler
took, and after 58 bits received its state no longer depends on where it started. -/
def Obligations.ScramblerRoundTrip : Prop :=
  (∀ (st : Nat) (l : List Bool), st < 2 ^ 58 → descramble st (scramble st l).2 = ((scramble st l).1, l))
  ∧ (∀ (st : Nat) (l m : List Bool), scramble st (l ++ m)
      = ((scramble (scramble st l).1 m).1, (scramble st l).2 ++ (scramble (scramble st l).1 m).2))
  ∧ (∀ (st : Nat) (l m : List Bool), descramble st (l ++ m)
      = ((descramble (descramble st l).1 m).1, (descramble st l).2 ++ (descramble (descramble st l).1 m).2))
  ∧ (∀ (a b : Nat) (l : List Bool), 58 ≤ l.length → (descramble a l).1 = (descramble b l).1)

/-- R294, R297, R299: a codeword is 544 symbols of 10 bits, of which the first 514 hold the header and then the payload, most
significant bit first, and leaves as 2,720 PAM4 levels; in Standard FEC a pair keeps its headers in symbols 0 and 1 and takes
turns, symbol by symbol, in the others. R295, R304: a header that is no link-down idle's is valid, one that is, is not. -/
def Obligations.CodewordSymbols : Prop :=
  (∀ (header : Nat) (p : List Bool), p.length = 5120 →
    (codewordOf header p).length = 544 ∧ (∀ y ∈ codewordOf header p, y < 1024)
    ∧ ((codewordOf header p).take 514).flatMap (bitsMsb 10) = bitsMsb 20 header ++ p
    ∧ (pamLevels (codewordOf header p)).length = 2720)
  ∧ (∀ a b : List Nat, a.length = 544 → b.length = 544 →
    (interleave a b).1.take 2 = a.take 2 ∧ (interleave a b).2.take 2 = b.take 2
    ∧ (interleave a b).1.length = 544 ∧ (interleave a b).2.length = 544
    ∧ ∀ i, i < 271 → (interleave a b).1[2 + 2 * i]? = a[2 + i]? ∧ (interleave a b).1[3 + 2 * i]? = b[2 + i]?
      ∧ (interleave a b).2[2 + 2 * i]? = a[273 + i]? ∧ (interleave a b).2[3 + 2 * i]? = b[273 + i]?)
  ∧ (∀ (am down : Bool) (i : Nat), i < 8 → State.headerOk (pcsHeader am down i) = !down)

/-- R167: a read of core SRAM whose words hold no error does nothing; a single-bit error is corrected and counted in CORR; an
uncorrectable one makes the read bad, counts in UNCORR and raises RC_SRAM_UE (0x19); a write of a whole word leaves no error in
it (the model's choice of where errors come from and of what clears them: log entry 77). -/
def Obligations.SramErrors : Prop :=
  ∀ (s : State) (n : Fin 512) (a len : Nat), s.Inv → s.injected 1 n = 0 →
    (s.upsetsIn n a len = [] → s.noteRead n a len = s ∧ s.badRead n a len = false)
    ∧ (∀ k free, s.upsetsIn n a len = [(k, ⟨false, free⟩)] → s.badRead n a len = false
      ∧ (s.noteRead n a len).fld F.RC_ECC_CORR n = min (s.fld F.RC_ECC_CORR n + 1) 0xFFFF
      ∧ (s.noteRead n a len).fld F.RC_ECC_UNCORR n = s.fld F.RC_ECC_UNCORR n
      ∧ (s.noteRead n a len).fc.wires = s.fc.wires)
    ∧ (∀ k free, s.upsetsIn n a len = [(k, ⟨true, free⟩)] → s.badRead n a len = true
      ∧ (s.noteRead n a len).fld F.RC_ECC_UNCORR n = min (s.fld F.RC_ECC_UNCORR n + 1) 0xFFFF
      ∧ (s.noteRead n a len).fld F.RC_ECC_CORR n = s.fld F.RC_ECC_CORR n
      ∧ (s.noteRead n a len).fc.wires = s.fc.wires ++ [⟨0x19, n, s.count, List.replicate 16 0#8, false⟩])
    ∧ ∀ bs : Bytes, a % 8 = 0 → a + 8 ≤ 0x80000 → bs.length = 8 → (s.writeSram n a bs).upsetsIn n a 8 = []

/-- R261, R271: a write of SLCn_RT_FLOW, or of a neighbour's MASK, in the block of any slice stands in all 16 slices. -/
def Obligations.SharedRouting : Prop :=
  (∀ (off : BitVec 30) (v : BitVec 64) (n : Nat) (s : State), s.Inv → regAt off.toNat = some (.SLC_RT_FLOW, n, 0, 0) →
    ∃ t, exec (.registerWrite off v) s = .next t ∧ ∀ m, m < 16 →
      t.fld F.SLC_RT_FLOW_IDLE_TK m = bitsOf (clampReg .SLC_RT_FLOW (v.toNat % 2 ^ 32)) 0 16
      ∧ t.fld F.SLC_RT_FLOW_MAX m = bitsOf (clampReg .SLC_RT_FLOW (v.toNat % 2 ^ 32)) 16 9)
  ∧ (∀ (d : Fin 3) (v : Fin 16) (mask : Fin 256) (s : State), s.Inv → ∃ t, exec (.nbrMaskWrite d v mask) s = .next t
      ∧ (∀ m, m < 16 → t.fld F.SLC_NBRM_MASK m d v = mask)
      ∧ ∀ (m : Nat) (d' : Fin 3) (v' : Fin 16), m < 16 → (d', v') ≠ (d, v) →
        t.fld F.SLC_NBRM_MASK m d' v' = s.fld F.SLC_NBRM_MASK m d' v')

/-- R25: at its maximum the schedule counter holds that value, no launch begins, and the fault is raised. -/
def Obligations.CountEnd : Prop :=
  ∀ s : State, s.Inv → s.count = 2 ^ 64 - 1 →
    s.advanceCount.count = 2 ^ 64 - 1 ∧ (∀ c : Fin 4096, exec (.launchStart c) s = .next s)
    ∧ exec .counterEnd s = .next (s.report 0x0E 0)

/-- R393: the 23 measurement blocks, digests in blocks 1 to 19 and raw values in 20 to 23, with the content of the table; each
names its index and its length, and the record is the blocks asked for in turn (the block's form is DMTF's: log entry 101). -/
def Obligations.MeasurementBlocks : Prop :=
  (∀ (s : State) (p : Nat), p < 16 → s.measured (4 + p) = some (false, s.digestAt .CFG_PART_DIGEST p))
  ∧ (∀ s : State, s.measured 1 = some (false, leBytes 32 Config.romDigest.toNat) ∧ s.measured 2 = some (false, s.fwDigest)
    ∧ s.measured 3 = some (false, s.devDigestNow) ∧ s.measured 20 = some (true, leBytes 4 (s.rd .SEC_FUSE))
    ∧ s.measured 21 = some (true, leBytes 4 (s.rd .SEC_DEBUG) ++ (List.range 16).flatMap fun p =>
        leBytes 1 (s.fld F.SEC_PART_STAT_DEBUG p))
    ∧ s.measured 22 = some (true, (List.range 16).flatMap s.partLayout)
    ∧ s.measured 23 = some (true, leBytes 8 (s.rd .GLB_REPLAY_CLASS)))
  ∧ (∀ (s : State) (i : Nat), s.measured i = none ↔ i = 0 ∨ 23 < i)
  ∧ (∀ (s : State) (i : Nat) (raw : Bool) (v : Bytes), i < 256 → v.length < 0xFFFD → s.measured i = some (raw, v) →
    leAt (s.measurementBlock i) 0 1 = i ∧ leAt (s.measurementBlock i) 2 2 = v.length + 3
    ∧ leAt (s.measurementBlock i) 5 2 = v.length ∧ (s.measurementBlock i).drop 7 = v)
  ∧ (∀ (s : State) (l m : List Nat), s.measurements (l ++ m) = s.measurements l ++ s.measurements m)
end

