-- ==== Sys2Proof/Laws/Bits.lean ====
section
/-! SUPPORT. Bit fields of numbers, bit by bit. -/

namespace Sys2Proof.Machine

theorem bitsOf_lt (v lo w : Nat) : bitsOf v lo w < 2 ^ w := Nat.mod_lt _ (Nat.two_pow_pos w)

theorem bitOf_eq (v i : Nat) : bitOf v i = v.testBit i := by
  rw [Nat.testBit_eq_decide_div_mod_eq]
  unfold bitOf
  rcases Nat.mod_two_eq_zero_or_one (v / 2 ^ i) with h | h <;> rw [h] <;> rfl

theorem testBit_bitsOf (v lo w i : Nat) : (bitsOf v lo w).testBit i = (decide (i < w) && v.testBit (lo + i)) := by
  unfold bitsOf
  rw [Nat.testBit_mod_two_pow, ← Nat.shiftRight_eq_div_pow, Nat.testBit_shiftRight]

/-- A number as its bits above a field, the field and the bits below it. -/
theorem bits_split (v lo w : Nat) : v = 2 ^ lo * (2 ^ w * (v / 2 ^ lo / 2 ^ w) + bitsOf v lo w) + v % 2 ^ lo := by
  unfold bitsOf
  rw [Nat.div_add_mod, Nat.div_add_mod]

theorem putBits_eq (v lo w x : Nat) :
    putBits v lo w x = 2 ^ lo * (2 ^ w * (v / 2 ^ lo / 2 ^ w) + x % 2 ^ w) + v % 2 ^ lo := by
  have h := bits_split v lo w
  unfold putBits
  rw [Nat.mul_add] at h ⊢
  rw [Nat.mul_comm (bitsOf v lo w), Nat.mul_comm (x % 2 ^ w)]
  omega

/-- Every bit of a number with a field replaced. -/
theorem testBit_putBits (v lo w x i : Nat) :
    (putBits v lo w x).testBit i = if lo ≤ i ∧ i < lo + w then x.testBit (i - lo) else v.testBit i := by
  rw [putBits_eq, Nat.testBit_two_pow_mul_add _ (Nat.mod_lt _ (Nat.two_pow_pos lo))]
  by_cases h1 : i < lo
  · simp [h1, Nat.testBit_mod_two_pow, show ¬ lo ≤ i by omega]
  · rw [if_neg h1, Nat.testBit_two_pow_mul_add _ (Nat.mod_lt _ (Nat.two_pow_pos w))]
    by_cases h2 : i - lo < w
    · simp [h2, Nat.testBit_mod_two_pow, show lo ≤ i ∧ i < lo + w by omega]
    · rw [if_neg h2, if_neg (by omega), ← Nat.shiftRight_eq_div_pow, ← Nat.shiftRight_eq_div_pow, Nat.testBit_shiftRight,
        Nat.testBit_shiftRight]
      congr 1
      omega

/-- The field written reads back. -/
theorem bitsOf_putBits_self (v lo w x : Nat) : bitsOf (putBits v lo w x) lo w = x % 2 ^ w := by
  apply Nat.eq_of_testBit_eq
  intro i
  rw [testBit_bitsOf, testBit_putBits, Nat.testBit_mod_two_pow]
  by_cases h : i < w
  · simp [h]
  · simp [h]

/-- A field apart from the one written keeps its value. -/
theorem bitsOf_putBits_apart {v lo w x lo' w' : Nat} (h : lo' + w' ≤ lo ∨ lo + w ≤ lo') :
    bitsOf (putBits v lo w x) lo' w' = bitsOf v lo' w' := by
  apply Nat.eq_of_testBit_eq
  intro i
  rw [testBit_bitsOf, testBit_bitsOf, testBit_putBits]
  by_cases hi : i < w'
  · rw [if_neg (by omega)]
  · simp [hi]

/-- Bits of a 64-bit register value. -/
theorem bitsOf_mod64 {v lo w : Nat} (h : lo + w ≤ 64) : bitsOf (v % 2 ^ 64) lo w = bitsOf v lo w := by
  apply Nat.eq_of_testBit_eq
  intro i
  rw [testBit_bitsOf, testBit_bitsOf, Nat.testBit_mod_two_pow]
  by_cases hi : i < w
  · simp [hi, show lo + i < 64 by omega]
  · simp [hi]

end Sys2Proof.Machine
end

