-- ==== Sys2Proof/Laws/Forms.lean ====
section
/-! SUPPORT. The fields of an operation's word are the ones it was put together from (R198). -/

namespace Sys2Proof

open Sys2Proof.Machine

@[simp] theorem VForm.bitsOf_vd (f : VForm) : bitsOf f.bits 20 6 = f.vd.toNat := by
  have h0 := f.vd.isLt
  have h1 := f.va.isLt
  have h2 := f.vb.isLt
  have h3 := f.pm.isLt
  have h4 := f.fn.isLt
  unfold VForm.bits bitsOf
  omega

@[simp] theorem VForm.bitsOf_va (f : VForm) : bitsOf f.bits 14 6 = f.va.toNat := by
  have h0 := f.vd.isLt
  have h1 := f.va.isLt
  have h2 := f.vb.isLt
  have h3 := f.pm.isLt
  have h4 := f.fn.isLt
  unfold VForm.bits bitsOf
  omega

@[simp] theorem VForm.bitsOf_vb (f : VForm) : bitsOf f.bits 8 6 = f.vb.toNat := by
  have h0 := f.vd.isLt
  have h1 := f.va.isLt
  have h2 := f.vb.isLt
  have h3 := f.pm.isLt
  have h4 := f.fn.isLt
  unfold VForm.bits bitsOf
  omega

@[simp] theorem VForm.bitsOf_pm (f : VForm) : bitsOf f.bits 5 3 = f.pm.toNat := by
  have h0 := f.vd.isLt
  have h1 := f.va.isLt
  have h2 := f.vb.isLt
  have h3 := f.pm.isLt
  have h4 := f.fn.isLt
  unfold VForm.bits bitsOf
  omega

@[simp] theorem VForm.bitsOf_fn (f : VForm) : bitsOf f.bits 0 5 = f.fn.toNat := by
  have h0 := f.vd.isLt
  have h1 := f.va.isLt
  have h2 := f.vb.isLt
  have h3 := f.pm.isLt
  have h4 := f.fn.isLt
  unfold VForm.bits bitsOf
  omega

@[simp] theorem DForm.bitsOf_vd (f : DForm) : bitsOf f.bits 20 6 = f.vd.toNat := by
  have h0 := f.vd.isLt
  have h1 := f.va.isLt
  have h2 := f.vb.isLt
  have h3 := f.pair.isLt
  have h4 := f.nb2.isLt
  have h5 := f.acc.isLt
  have h6 := f.scaled.isLt
  have h7 := f.rsvd.isLt
  unfold DForm.bits bitsOf
  omega

@[simp] theorem DForm.bitsOf_va (f : DForm) : bitsOf f.bits 14 6 = f.va.toNat := by
  have h0 := f.vd.isLt
  have h1 := f.va.isLt
  have h2 := f.vb.isLt
  have h3 := f.pair.isLt
  have h4 := f.nb2.isLt
  have h5 := f.acc.isLt
  have h6 := f.scaled.isLt
  have h7 := f.rsvd.isLt
  unfold DForm.bits bitsOf
  omega

@[simp] theorem DForm.bitsOf_vb (f : DForm) : bitsOf f.bits 8 6 = f.vb.toNat := by
  have h0 := f.vd.isLt
  have h1 := f.va.isLt
  have h2 := f.vb.isLt
  have h3 := f.pair.isLt
  have h4 := f.nb2.isLt
  have h5 := f.acc.isLt
  have h6 := f.scaled.isLt
  have h7 := f.rsvd.isLt
  unfold DForm.bits bitsOf
  omega

@[simp] theorem DForm.bitsOf_pair (f : DForm) : bitsOf f.bits 4 4 = f.pair.toNat := by
  have h0 := f.vd.isLt
  have h1 := f.va.isLt
  have h2 := f.vb.isLt
  have h3 := f.pair.isLt
  have h4 := f.nb2.isLt
  have h5 := f.acc.isLt
  have h6 := f.scaled.isLt
  have h7 := f.rsvd.isLt
  unfold DForm.bits bitsOf
  omega

@[simp] theorem DForm.bitsOf_nb2 (f : DForm) : bitsOf f.bits 3 1 = f.nb2.toNat := by
  have h0 := f.vd.isLt
  have h1 := f.va.isLt
  have h2 := f.vb.isLt
  have h3 := f.pair.isLt
  have h4 := f.nb2.isLt
  have h5 := f.acc.isLt
  have h6 := f.scaled.isLt
  have h7 := f.rsvd.isLt
  unfold DForm.bits bitsOf
  omega

@[simp] theorem DForm.bitsOf_acc (f : DForm) : bitsOf f.bits 2 1 = f.acc.toNat := by
  have h0 := f.vd.isLt
  have h1 := f.va.isLt
  have h2 := f.vb.isLt
  have h3 := f.pair.isLt
  have h4 := f.nb2.isLt
  have h5 := f.acc.isLt
  have h6 := f.scaled.isLt
  have h7 := f.rsvd.isLt
  unfold DForm.bits bitsOf
  omega

@[simp] theorem DForm.bitsOf_scaled (f : DForm) : bitsOf f.bits 1 1 = f.scaled.toNat := by
  have h0 := f.vd.isLt
  have h1 := f.va.isLt
  have h2 := f.vb.isLt
  have h3 := f.pair.isLt
  have h4 := f.nb2.isLt
  have h5 := f.acc.isLt
  have h6 := f.scaled.isLt
  have h7 := f.rsvd.isLt
  unfold DForm.bits bitsOf
  omega

@[simp] theorem DForm.bitsOf_rsvd (f : DForm) : bitsOf f.bits 0 1 = f.rsvd.toNat := by
  have h0 := f.vd.isLt
  have h1 := f.va.isLt
  have h2 := f.vb.isLt
  have h3 := f.pair.isLt
  have h4 := f.nb2.isLt
  have h5 := f.acc.isLt
  have h6 := f.scaled.isLt
  have h7 := f.rsvd.isLt
  unfold DForm.bits bitsOf
  omega

@[simp] theorem MForm.bitsOf_r (f : MForm) : bitsOf f.bits 20 6 = f.r.toNat := by
  have h0 := f.r.isLt
  have h1 := f.a.isLt
  have h2 := f.size.isLt
  have h3 := f.x.isLt
  have h4 := f.ofs.isLt
  unfold MForm.bits bitsOf
  omega

@[simp] theorem MForm.bitsOf_a (f : MForm) : bitsOf f.bits 16 4 = f.a.toNat := by
  have h0 := f.r.isLt
  have h1 := f.a.isLt
  have h2 := f.size.isLt
  have h3 := f.x.isLt
  have h4 := f.ofs.isLt
  unfold MForm.bits bitsOf
  omega

@[simp] theorem MForm.bitsOf_size (f : MForm) : bitsOf f.bits 12 4 = f.size.toNat := by
  have h0 := f.r.isLt
  have h1 := f.a.isLt
  have h2 := f.size.isLt
  have h3 := f.x.isLt
  have h4 := f.ofs.isLt
  unfold MForm.bits bitsOf
  omega

@[simp] theorem MForm.bitsOf_x (f : MForm) : bitsOf f.bits 11 1 = f.x.toNat := by
  have h0 := f.r.isLt
  have h1 := f.a.isLt
  have h2 := f.size.isLt
  have h3 := f.x.isLt
  have h4 := f.ofs.isLt
  unfold MForm.bits bitsOf
  omega

@[simp] theorem MForm.bitsOf_ofs (f : MForm) : bitsOf f.bits 0 11 = f.ofs.toNat := by
  have h0 := f.r.isLt
  have h1 := f.a.isLt
  have h2 := f.size.isLt
  have h3 := f.x.isLt
  have h4 := f.ofs.isLt
  unfold MForm.bits bitsOf
  omega

@[simp] theorem StartForm.bitsOf_rsvdHi (f : StartForm) : bitsOf f.bits 22 4 = f.rsvdHi.toNat := by
  have h0 := f.rsvdHi.isLt
  have h1 := f.k.isLt
  have h2 := f.a.isLt
  have h3 := f.rsvdLo.isLt
  have h4 := f.x.isLt
  have h5 := f.ofs.isLt
  unfold StartForm.bits bitsOf
  omega

@[simp] theorem StartForm.bitsOf_k (f : StartForm) : bitsOf f.bits 20 2 = f.k.toNat := by
  have h0 := f.rsvdHi.isLt
  have h1 := f.k.isLt
  have h2 := f.a.isLt
  have h3 := f.rsvdLo.isLt
  have h4 := f.x.isLt
  have h5 := f.ofs.isLt
  unfold StartForm.bits bitsOf
  omega

@[simp] theorem StartForm.bitsOf_a (f : StartForm) : bitsOf f.bits 16 4 = f.a.toNat := by
  have h0 := f.rsvdHi.isLt
  have h1 := f.k.isLt
  have h2 := f.a.isLt
  have h3 := f.rsvdLo.isLt
  have h4 := f.x.isLt
  have h5 := f.ofs.isLt
  unfold StartForm.bits bitsOf
  omega

@[simp] theorem StartForm.bitsOf_rsvdLo (f : StartForm) : bitsOf f.bits 12 4 = f.rsvdLo.toNat := by
  have h0 := f.rsvdHi.isLt
  have h1 := f.k.isLt
  have h2 := f.a.isLt
  have h3 := f.rsvdLo.isLt
  have h4 := f.x.isLt
  have h5 := f.ofs.isLt
  unfold StartForm.bits bitsOf
  omega

@[simp] theorem StartForm.bitsOf_x (f : StartForm) : bitsOf f.bits 11 1 = f.x.toNat := by
  have h0 := f.rsvdHi.isLt
  have h1 := f.k.isLt
  have h2 := f.a.isLt
  have h3 := f.rsvdLo.isLt
  have h4 := f.x.isLt
  have h5 := f.ofs.isLt
  unfold StartForm.bits bitsOf
  omega

@[simp] theorem StartForm.bitsOf_ofs (f : StartForm) : bitsOf f.bits 0 11 = f.ofs.toNat := by
  have h0 := f.rsvdHi.isLt
  have h1 := f.k.isLt
  have h2 := f.a.isLt
  have h3 := f.rsvdLo.isLt
  have h4 := f.x.isLt
  have h5 := f.ofs.isLt
  unfold StartForm.bits bitsOf
  omega

@[simp] theorem WaitForm.bitsOf_rsvd (f : WaitForm) : bitsOf f.bits 22 4 = f.rsvd.toNat := by
  have h0 := f.rsvd.isLt
  have h1 := f.k.isLt
  have h2 := f.sb.isLt
  have h3 := f.i.isLt
  have h4 := f.x.isLt
  have h5 := f.imm.isLt
  unfold WaitForm.bits bitsOf
  omega

@[simp] theorem WaitForm.bitsOf_k (f : WaitForm) : bitsOf f.bits 20 2 = f.k.toNat := by
  have h0 := f.rsvd.isLt
  have h1 := f.k.isLt
  have h2 := f.sb.isLt
  have h3 := f.i.isLt
  have h4 := f.x.isLt
  have h5 := f.imm.isLt
  unfold WaitForm.bits bitsOf
  omega

@[simp] theorem WaitForm.bitsOf_sb (f : WaitForm) : bitsOf f.bits 15 5 = f.sb.toNat := by
  have h0 := f.rsvd.isLt
  have h1 := f.k.isLt
  have h2 := f.sb.isLt
  have h3 := f.i.isLt
  have h4 := f.x.isLt
  have h5 := f.imm.isLt
  unfold WaitForm.bits bitsOf
  omega

@[simp] theorem WaitForm.bitsOf_i (f : WaitForm) : bitsOf f.bits 14 1 = f.i.toNat := by
  have h0 := f.rsvd.isLt
  have h1 := f.k.isLt
  have h2 := f.sb.isLt
  have h3 := f.i.isLt
  have h4 := f.x.isLt
  have h5 := f.imm.isLt
  unfold WaitForm.bits bitsOf
  omega

@[simp] theorem WaitForm.bitsOf_x (f : WaitForm) : bitsOf f.bits 13 1 = f.x.toNat := by
  have h0 := f.rsvd.isLt
  have h1 := f.k.isLt
  have h2 := f.sb.isLt
  have h3 := f.i.isLt
  have h4 := f.x.isLt
  have h5 := f.imm.isLt
  unfold WaitForm.bits bitsOf
  omega

@[simp] theorem WaitForm.bitsOf_imm (f : WaitForm) : bitsOf f.bits 0 13 = f.imm.toNat := by
  have h0 := f.rsvd.isLt
  have h1 := f.k.isLt
  have h2 := f.sb.isLt
  have h3 := f.i.isLt
  have h4 := f.x.isLt
  have h5 := f.imm.isLt
  unfold WaitForm.bits bitsOf
  omega

@[simp] theorem RForm.bitsOf_rd (f : RForm) : bitsOf f.bits 21 5 = f.rd.toNat := by
  have h0 := f.rd.isLt
  have h1 := f.ra.isLt
  have h2 := f.i.isLt
  have h3 := f.x.isLt
  have h4 := f.low.isLt
  unfold RForm.bits bitsOf
  omega

@[simp] theorem RForm.bitsOf_ra (f : RForm) : bitsOf f.bits 16 5 = f.ra.toNat := by
  have h0 := f.rd.isLt
  have h1 := f.ra.isLt
  have h2 := f.i.isLt
  have h3 := f.x.isLt
  have h4 := f.low.isLt
  unfold RForm.bits bitsOf
  omega

@[simp] theorem RForm.bitsOf_i (f : RForm) : bitsOf f.bits 15 1 = f.i.toNat := by
  have h0 := f.rd.isLt
  have h1 := f.ra.isLt
  have h2 := f.i.isLt
  have h3 := f.x.isLt
  have h4 := f.low.isLt
  unfold RForm.bits bitsOf
  omega

@[simp] theorem RForm.bitsOf_x (f : RForm) : bitsOf f.bits 14 1 = f.x.toNat := by
  have h0 := f.rd.isLt
  have h1 := f.ra.isLt
  have h2 := f.i.isLt
  have h3 := f.x.isLt
  have h4 := f.low.isLt
  unfold RForm.bits bitsOf
  omega

@[simp] theorem RForm.bitsOf_low (f : RForm) : bitsOf f.bits 0 14 = f.low.toNat := by
  have h0 := f.rd.isLt
  have h1 := f.ra.isLt
  have h2 := f.i.isLt
  have h3 := f.x.isLt
  have h4 := f.low.isLt
  unfold RForm.bits bitsOf
  omega

@[simp] theorem JForm.bitsOf_rd (f : JForm) : bitsOf f.bits 21 5 = f.rd.toNat := by
  have h0 := f.rd.isLt
  have h1 := f.x.isLt
  have h2 := f.imm.isLt
  unfold JForm.bits bitsOf
  omega

@[simp] theorem JForm.bitsOf_x (f : JForm) : bitsOf f.bits 20 1 = f.x.toNat := by
  have h0 := f.rd.isLt
  have h1 := f.x.isLt
  have h2 := f.imm.isLt
  unfold JForm.bits bitsOf
  omega

@[simp] theorem JForm.bitsOf_imm (f : JForm) : bitsOf f.bits 0 20 = f.imm.toNat := by
  have h0 := f.rd.isLt
  have h1 := f.x.isLt
  have h2 := f.imm.isLt
  unfold JForm.bits bitsOf
  omega

@[simp] theorem BForm.bitsOf_ra (f : BForm) : bitsOf f.bits 21 5 = f.ra.toNat := by
  have h0 := f.ra.isLt
  have h1 := f.cond.isLt
  have h2 := f.rsvd.isLt
  have h3 := f.target.isLt
  unfold BForm.bits bitsOf
  omega

@[simp] theorem BForm.bitsOf_cond (f : BForm) : bitsOf f.bits 18 3 = f.cond.toNat := by
  have h0 := f.ra.isLt
  have h1 := f.cond.isLt
  have h2 := f.rsvd.isLt
  have h3 := f.target.isLt
  unfold BForm.bits bitsOf
  omega

@[simp] theorem BForm.bitsOf_rsvd (f : BForm) : bitsOf f.bits 16 2 = f.rsvd.toNat := by
  have h0 := f.ra.isLt
  have h1 := f.cond.isLt
  have h2 := f.rsvd.isLt
  have h3 := f.target.isLt
  unfold BForm.bits bitsOf
  omega

@[simp] theorem BForm.bitsOf_target (f : BForm) : bitsOf f.bits 0 16 = f.target.toNat := by
  have h0 := f.ra.isLt
  have h1 := f.cond.isLt
  have h2 := f.rsvd.isLt
  have h3 := f.target.isLt
  unfold BForm.bits bitsOf
  omega

/-! Parts of fields, as some operations read them -/

theorem VForm.bitsOf_code (f : VForm) : bitsOf f.bits 0 4 = f.fn.toNat % 16 := by
  have h0 := f.vd.isLt
  have h1 := f.va.isLt
  have h2 := f.vb.isLt
  have h3 := f.pm.isLt
  have h4 := f.fn.isLt
  unfold VForm.bits bitsOf
  omega

theorem VForm.bitsOf_width (f : VForm) : bitsOf f.bits 0 2 = f.fn.toNat % 4 := by
  have h0 := f.vd.isLt
  have h1 := f.va.isLt
  have h2 := f.vb.isLt
  have h3 := f.pm.isLt
  have h4 := f.fn.isLt
  unfold VForm.bits bitsOf
  omega

theorem VForm.bitsOf_signed (f : VForm) : bitsOf f.bits 2 1 = f.fn.toNat / 4 % 2 := by
  have h0 := f.vd.isLt
  have h1 := f.va.isLt
  have h2 := f.vb.isLt
  have h3 := f.pm.isLt
  have h4 := f.fn.isLt
  unfold VForm.bits bitsOf
  omega

theorem VForm.bitsOf_part (f : VForm) : bitsOf f.bits 4 1 = f.fn.toNat / 16 := by
  have h0 := f.vd.isLt
  have h1 := f.va.isLt
  have h2 := f.vb.isLt
  have h3 := f.pm.isLt
  have h4 := f.fn.isLt
  unfold VForm.bits bitsOf
  omega

theorem VForm.bitsOf_source (f : VForm) : bitsOf f.bits 15 5 = f.va.toNat / 2 := by
  have h0 := f.vd.isLt
  have h1 := f.va.isLt
  have h2 := f.vb.isLt
  have h3 := f.pm.isLt
  have h4 := f.fn.isLt
  unfold VForm.bits bitsOf
  omega

theorem VForm.bitsOf_scalar (f : VForm) : bitsOf f.bits 20 5 = f.vd.toNat % 32 := by
  have h0 := f.vd.isLt
  have h1 := f.va.isLt
  have h2 := f.vb.isLt
  have h3 := f.pm.isLt
  have h4 := f.fn.isLt
  unfold VForm.bits bitsOf
  omega

theorem MForm.bitsOf_scalar (f : MForm) : bitsOf f.bits 20 5 = f.r.toNat % 32 := by
  have h0 := f.r.isLt
  have h1 := f.a.isLt
  have h2 := f.size.isLt
  have h3 := f.x.isLt
  have h4 := f.ofs.isLt
  unfold MForm.bits bitsOf
  omega

theorem RForm.bitsOf_address (f : RForm) : bitsOf f.bits 21 4 = f.rd.toNat % 16 := by
  have h0 := f.rd.isLt
  have h1 := f.ra.isLt
  have h2 := f.i.isLt
  have h3 := f.x.isLt
  have h4 := f.low.isLt
  unfold RForm.bits bitsOf
  omega

theorem RForm.bitsOf_fromAddress (f : RForm) : bitsOf f.bits 16 4 = f.ra.toNat % 16 := by
  have h0 := f.rd.isLt
  have h1 := f.ra.isLt
  have h2 := f.i.isLt
  have h3 := f.x.isLt
  have h4 := f.low.isLt
  unfold RForm.bits bitsOf
  omega

theorem RForm.bitsOf_predicate (f : RForm) : bitsOf f.bits 21 3 = f.rd.toNat % 8 := by
  have h0 := f.rd.isLt
  have h1 := f.ra.isLt
  have h2 := f.i.isLt
  have h3 := f.x.isLt
  have h4 := f.low.isLt
  unfold RForm.bits bitsOf
  omega

theorem RForm.bitsOf_rb (f : RForm) : bitsOf f.bits 9 5 = f.low.toNat / 512 := by
  have h0 := f.rd.isLt
  have h1 := f.ra.isLt
  have h2 := f.i.isLt
  have h3 := f.x.isLt
  have h4 := f.low.isLt
  unfold RForm.bits bitsOf
  omega

end Sys2Proof
end

