-- ==== Sys2Proof/Laws/Issue.lean ====
section
/-! SUPPORT. The operations of the cores: from what an operation's definition computes to what its row does. -/

namespace Sys2Proof.Machine

/-- A row that issues one operation does what the operation's definition says. -/
theorem issuesAs_of {F : Type} {i : IssueAt → F → Instr} {opcode : Nat} {bits : F → Nat} {d : OpDef}
    {eff : State → Nat → Nat → F → State} (hx : ∀ p f s, exec (i p f) s = .next (s.issueOne p opcode (bits f)))
    (hd : opOf opcode = some d) (he : ∀ s n e f, d.effect ⟨s, n, bits f, e⟩ = eff s n e f) : IssuesAs i opcode bits eff := by
  intro p f s
  rw [hx, ← he]
  simp only [State.issueOne, State.faultAt]
  split
  · cases s.rowFault p.core p.ext.toNat ⟨slotNum p.slot, opcode, bits f⟩ <;> simp only [State.issueOp, hd]
  · rfl

/-- A row that does what IssuesAs says stays in the records of the cores when its effect does. -/
theorem onlyCores_of {F : Type} {i : IssueAt → F → Instr} {opcode : Nat} {bits : F → Nat}
    {eff : State → Nat → Nat → F → State} (h : IssuesAs i opcode bits eff)
    (he : ∀ s n e f, ∃ cs, eff s n e f = { s with cores := cs }) : OnlyCores i opcode bits := by
  intro p f s t hf ht
  rw [h, hf] at ht
  cases ht
  split
  · obtain ⟨cs, hc⟩ := he s p.core p.ext.toNat f
    rw [hc]
    rfl
  · rfl

end Sys2Proof.Machine
end

