-- ==== Sys2Proof/Laws/Store.lean ====
section
/-! SUPPORT. Sparse maps: reads after writes, and that every operation keeps the canonical form. -/

namespace Sys2Proof.Machine

variable {α : Type}

theorem keysRise_mono {lo lo' : Nat} {m : List (Nat × α)} (h : lo' ≤ lo) (k : keysRise lo m = true) : keysRise lo' m = true := by
  cases m with
  | nil => rfl
  | cons e m => obtain ⟨a, v⟩ := e; simp [keysRise] at *; exact ⟨by omega, k.2⟩

theorem keysRise_key {lo : Nat} {m : List (Nat × α)} (k : keysRise lo m = true) : ∀ e ∈ m, lo ≤ e.1 := by
  induction m generalizing lo with
  | nil => simp
  | cons e m ih =>
    obtain ⟨a, v⟩ := e
    simp [keysRise] at k
    intro e he
    rcases List.mem_cons.1 he with rfl | he
    · exact k.1
    · have := ih k.2 e he
      omega

theorem keysRise_insertKey {lo x : Nat} {m : List (Nat × α)} {a : α} (h : lo ≤ x) (k : keysRise lo m = true) :
    keysRise lo (insertKey m x a) = true := by
  induction m generalizing lo with
  | nil => simp [insertKey, keysRise, h]
  | cons e m ih =>
    obtain ⟨b, v⟩ := e
    simp only [keysRise, Bool.and_eq_true, decide_eq_true_eq] at k
    unfold insertKey
    split
    · subst_vars; simp [keysRise, k.2, h]
    · split
      · simp [keysRise, h, k.2]; omega
      · simp only [keysRise, Bool.and_eq_true, decide_eq_true_eq]
        exact ⟨k.1, ih (by omega) k.2⟩

theorem keysRise_eraseKey {lo x : Nat} {m : List (Nat × α)} (k : keysRise lo m = true) : keysRise lo (eraseKey m x) = true := by
  induction m generalizing lo with
  | nil => simp [eraseKey, keysRise]
  | cons e m ih =>
    obtain ⟨b, v⟩ := e
    simp only [keysRise, Bool.and_eq_true, decide_eq_true_eq] at k
    unfold eraseKey
    split
    · exact keysRise_mono (by omega) k.2
    · split
      · simp [keysRise, k.1, k.2]
      · simp only [keysRise, Bool.and_eq_true, decide_eq_true_eq]
        exact ⟨k.1, ih k.2⟩

theorem mem_insertKey {x : Nat} {m : List (Nat × α)} {a : α} : ∀ e ∈ insertKey m x a, e = (x, a) ∨ e ∈ m := by
  induction m with
  | nil => simp [insertKey]
  | cons e m ih =>
    obtain ⟨b, v⟩ := e
    unfold insertKey
    split
    · intro e he
      rcases List.mem_cons.1 he with he | he
      · exact .inl he
      · exact .inr (List.mem_cons_of_mem _ he)
    · split
      · intro e he; simpa using he
      · intro e he
        rcases List.mem_cons.1 he with rfl | he
        · simp
        · rcases ih e he with h | h
          · exact .inl h
          · exact .inr (List.mem_cons_of_mem _ h)

theorem mem_eraseKey {x : Nat} {m : List (Nat × α)} : ∀ e ∈ eraseKey m x, e ∈ m := by
  induction m with
  | nil => simp [eraseKey]
  | cons e m ih =>
    obtain ⟨b, v⟩ := e
    unfold eraseKey
    split
    · intro e he; exact List.mem_cons_of_mem _ he
    · split
      · intro e he; exact he
      · intro e he
        rcases List.mem_cons.1 he with rfl | he
        · simp
        · exact List.mem_cons_of_mem _ (ih e he)

theorem lookupKey_insertKey_self (m : List (Nat × α)) (x : Nat) (a : α) : lookupKey (insertKey m x a) x = some a := by
  induction m with
  | nil => simp [insertKey, lookupKey]
  | cons e m ih =>
    obtain ⟨b, v⟩ := e
    by_cases h1 : x = b
    · simp [insertKey, h1, lookupKey]
    · by_cases h2 : x < b
      · simp [insertKey, h1, h2, lookupKey]
      · simp [insertKey, h1, h2, lookupKey, ih]

theorem lookupKey_none {lo x : Nat} {m : List (Nat × α)} (k : keysRise lo m = true) (h : x < lo) : lookupKey m x = none := by
  cases m with
  | nil => rfl
  | cons e m => obtain ⟨b, v⟩ := e; simp [keysRise] at k; simp [lookupKey, show x ≠ b by omega, show x < b by omega]

theorem lookupKey_insertKey_ne {m : List (Nat × α)} {x y : Nat} {a : α} (h : y ≠ x) :
    lookupKey (insertKey m x a) y = lookupKey m y := by
  induction m with
  | nil => simp [insertKey, lookupKey, h]
  | cons e m ih =>
    obtain ⟨b, v⟩ := e
    by_cases h1 : x = b
    · subst h1; simp [insertKey, lookupKey, h]
    · by_cases h2 : x < b
      · simp only [insertKey, h1, h2, if_true, if_false, lookupKey, h]
        by_cases h3 : y < x
        · simp [h3, show y ≠ b by omega, show y < b by omega]
        · simp [h3]
      · simp only [insertKey, h1, h2, if_false, lookupKey, ih]

theorem lookupKey_eraseKey_self {lo x : Nat} {m : List (Nat × α)} (k : keysRise lo m = true) :
    lookupKey (eraseKey m x) x = none := by
  induction m generalizing lo with
  | nil => rfl
  | cons e m ih =>
    obtain ⟨b, v⟩ := e
    simp only [keysRise, Bool.and_eq_true, decide_eq_true_eq] at k
    by_cases h1 : x = b
    · subst h1; simpa [eraseKey] using lookupKey_none k.2 (Nat.lt_succ_self x)
    · by_cases h2 : x < b
      · simp [eraseKey, h1, h2, lookupKey]
      · simp [eraseKey, h1, h2, lookupKey, ih k.2]

theorem lookupKey_eraseKey_ne {lo x y : Nat} {m : List (Nat × α)} (k : keysRise lo m = true) (h : y ≠ x) :
    lookupKey (eraseKey m x) y = lookupKey m y := by
  induction m generalizing lo with
  | nil => rfl
  | cons e m ih =>
    obtain ⟨b, v⟩ := e
    simp only [keysRise, Bool.and_eq_true, decide_eq_true_eq] at k
    by_cases h1 : x = b
    · subst h1
      by_cases h3 : y < x
      · simp [eraseKey, lookupKey, h, h3, lookupKey_none k.2 (show y < x + 1 by omega)]
      · simp [eraseKey, lookupKey, h, h3]
    · by_cases h2 : x < b
      · simp [eraseKey, h1, h2]
      · simp [eraseKey, h1, h2, lookupKey, ih k.2]

theorem keysRise_filterMap {f : Nat × α → Option (Nat × α)} (hf : ∀ e g, f e = some g → g.1 = e.1) {lo : Nat}
    {m : List (Nat × α)} (k : keysRise lo m = true) : keysRise lo (m.filterMap f) = true := by
  induction m generalizing lo with
  | nil => rfl
  | cons e m ih =>
    obtain ⟨b, v⟩ := e
    simp only [keysRise, Bool.and_eq_true, decide_eq_true_eq] at k
    simp only [List.filterMap_cons]
    split
    · exact keysRise_mono (by omega) (ih k.2)
    · rename_i g hg
      have hk := hf _ _ hg
      obtain ⟨c, w⟩ := g
      simp only at hk
      subst hk
      simp only [keysRise, Bool.and_eq_true, decide_eq_true_eq]
      exact ⟨k.1, ih k.2⟩

theorem keysRise_append {hi : Nat} {l : List (Nat × α)} (hl : keysRise hi l = true) {m : List (Nat × α)} {lo : Nat}
    (hlo : lo ≤ hi) (k : keysRise lo m = true) (hm : ∀ e ∈ m, e.1 < hi) : keysRise lo (m ++ l) = true := by
  induction m generalizing lo with
  | nil => exact keysRise_mono hlo hl
  | cons e m ih =>
    obtain ⟨b, v⟩ := e
    simp only [keysRise, Bool.and_eq_true, decide_eq_true_eq] at k
    simp only [List.cons_append, keysRise, Bool.and_eq_true, decide_eq_true_eq]
    have hb := hm (b, v) (by simp)
    exact ⟨k.1, ih hb k.2 fun e he => hm e (List.mem_cons_of_mem _ he)⟩

section
variable [DecidableEq α] {d : α}

theorem storeWf_rise {m : List (Nat × α)} (h : storeWf d m = true) : keysRise 0 m = true := by
  simp [storeWf] at h; exact h.1

theorem storeWf_nil : storeWf d ([] : List (Nat × α)) = true := rfl

theorem storeWf_insertKey {m : List (Nat × α)} {x : Nat} {a : α} (h : storeWf d m = true) (ha : a ≠ d) :
    storeWf d (insertKey m x a) = true := by
  simp only [storeWf, Bool.and_eq_true, List.all_eq_true, decide_eq_true_eq] at *
  refine ⟨keysRise_insertKey (Nat.zero_le _) h.1, fun e he => ?_⟩
  rcases mem_insertKey e he with rfl | he
  · exact ha
  · exact h.2 e he

theorem storeWf_eraseKey {m : List (Nat × α)} {x : Nat} (h : storeWf d m = true) : storeWf d (eraseKey m x) = true := by
  simp only [storeWf, Bool.and_eq_true, List.all_eq_true, decide_eq_true_eq] at *
  exact ⟨keysRise_eraseKey h.1, fun e he => h.2 e (mem_eraseKey e he)⟩

theorem storeWf_writeKey {m : List (Nat × α)} {x : Nat} {a : α} (h : storeWf d m = true) :
    storeWf d (writeKey d m x a) = true := by
  unfold writeKey
  split
  · exact storeWf_eraseKey h
  · exact storeWf_insertKey h ‹_›

theorem storeWf_foldl_writeKey {l m : List (Nat × α)} (h : storeWf d m = true) :
    storeWf d (l.foldl (fun m e => writeKey d m e.1 e.2) m) = true := by
  induction l generalizing m with
  | nil => exact h
  | cons e l ih => exact ih (storeWf_writeKey h)

theorem storeWf_filterMap {f : Nat × α → Option (Nat × α)} (hf : ∀ e g, f e = some g → g.1 = e.1 ∧ (e.2 ≠ d → g.2 ≠ d))
    {m : List (Nat × α)} (h : storeWf d m = true) : storeWf d (m.filterMap f) = true := by
  simp only [storeWf, Bool.and_eq_true, List.all_eq_true, decide_eq_true_eq] at *
  refine ⟨keysRise_filterMap (fun e g he => (hf e g he).1) h.1, fun g hg => ?_⟩
  obtain ⟨e, he, heg⟩ := List.mem_filterMap.1 hg
  exact (hf e g heg).2 (h.2 e he)

theorem storeWf_filter {p : Nat × α → Bool} {m : List (Nat × α)} (h : storeWf d m = true) :
    storeWf d (m.filter p) = true := by
  rw [← List.filterMap_eq_filter]
  refine storeWf_filterMap (fun e g he => ?_) h
  simp only [Option.guard] at he
  split at he <;> simp_all

theorem storeWf_append {m l : List (Nat × α)} {hi : Nat} (hm : storeWf d m = true) (hl : storeWf d l = true)
    (hk : keysRise hi l = true) (hb : ∀ e ∈ m, e.1 < hi) : storeWf d (m ++ l) = true := by
  simp only [storeWf, Bool.and_eq_true, List.all_eq_true, decide_eq_true_eq] at *
  refine ⟨keysRise_append hk (Nat.zero_le _) hm.1 hb, fun e he => ?_⟩
  rcases List.mem_append.1 he with he | he
  · exact hm.2 e he
  · exact hl.2 e he

/-- A read of the entry just written. -/
theorem readKey_writeKey_self {m : List (Nat × α)} {x : Nat} {a : α} (h : storeWf d m = true) :
    readKey d (writeKey d m x a) x = a := by
  unfold writeKey readKey
  split
  · rw [lookupKey_eraseKey_self (storeWf_rise h)]; simp [*]
  · rw [lookupKey_insertKey_self]; rfl

/-- A read of another entry than the one written. -/
theorem readKey_writeKey_ne {m : List (Nat × α)} {x y : Nat} {a : α} (h : storeWf d m = true) (n : y ≠ x) :
    readKey d (writeKey d m x a) y = readKey d m y := by
  unfold writeKey readKey
  split
  · rw [lookupKey_eraseKey_ne (storeWf_rise h) n]
  · rw [lookupKey_insertKey_ne n]

end

end Sys2Proof.Machine
end

