-- ==== Sys2Proof/Laws/Keeps.lean ====
section
/-! SUPPORT. What Keeps needs: it is kept by writes of registers, shadows and core SRAM, by updates of every other field, by
branches and folds. The files Keeps<File>.lean hold one lemma for each function of Machine/<File>.lean that gives a state. -/

namespace Sys2Proof.Machine

theorem Keeps.refl (o : State) : Keeps o o := ⟨rfl, id⟩

theorem Keeps.trans {o s t : State} (h : Keeps o s) (k : Keeps s t) : Keeps o t := ⟨k.1.trans h.1, k.2 ∘ h.2⟩

section
variable {o s : State} {vupsets : List (Nat × SramUpset)} {vcores : List (Nat × CoreX)} {vfc : FaultX} {vimage :
    Image} {vstage : StageX} {vcopies : List Copy} {varrivals : List Arrival} {vpools : List (Nat × PoolX)} {vslices :
    List (Nat × SliceX)} {vports : List (Nat × PortX)} {vtokens : List (Nat × Int)} {vlimiter : List (Nat × Nat)}
    {vechoed : List Nat} {vcuts : List (Nat × Nat × Nat)} {vechoes : List EchoX} {vflushing : List Nat} {vflushedAt :
    Option Nat} {vserial : Nat} {vctxs : List (Nat × CtxRun)} {vaborts : List AbortX} {vctxWrites : List (Nat ×
    CtxBits × CtxView × CtxView)} {vunbound : List Nat} {vgroups : List Nat} {vresetEnd : Nat} {vmg : List (Nat ×
    MgX)} {vsync : SyncX} {vlanes : List (Nat × LaneX)} {vpcs : List (Nat × PcsLane)} {vi2cFails : List (Nat × Nat)}
    {vsvc : SvcX} {vcmd : CmdX} {vsec : SecX} {vtel : TelX} {vpwr : PwrX} {vnv : NvX} {vboot : BootX} {voutbox : List
    Output} {vfree : Nat}

/-- Fields other than the queue, the registers, their shadows and core SRAM. -/
theorem Keeps.mk_iff : Keeps o (State.mk s.regs s.shadow s.mem vupsets vcores vfc vimage vstage vcopies varrivals vpools vslices vports vtokens
    vlimiter vechoed vcuts vechoes vflushing vflushedAt vserial vctxs vaborts vctxWrites vunbound vgroups vresetEnd
    vmg vsync vlanes vpcs vi2cFails vsvc vcmd vsec vtel vpwr vnv vboot voutbox vfree s.pending) ↔
    Keeps o s := ⟨fun h => ⟨h.1, h.2⟩, fun h => ⟨h.1, h.2⟩⟩

theorem Keeps.regs {r : List (Nat × BitVec 64)} (h : Keeps o s) (hr : storeWf 0#64 s.regs = true → storeWf 0#64 r = true) :
    Keeps o (State.mk r s.shadow s.mem vupsets vcores vfc vimage vstage vcopies varrivals vpools vslices vports vtokens
    vlimiter vechoed vcuts vechoes vflushing vflushedAt vserial vctxs vaborts vctxWrites vunbound vgroups vresetEnd
    vmg vsync vlanes vpcs vi2cFails vsvc vcmd vsec vtel vpwr vnv vboot voutbox vfree s.pending) :=
  ⟨h.1, fun i => ⟨hr (h.2 i).1, (h.2 i).2⟩⟩

theorem Keeps.shadow {r : List (Nat × BitVec 64)} (h : Keeps o s) (hr : storeWf 0#64 s.shadow = true → storeWf 0#64 r =
    true) :
    Keeps o (State.mk s.regs r s.mem vupsets vcores vfc vimage vstage vcopies varrivals vpools vslices vports vtokens vlimiter
    vechoed vcuts vechoes vflushing vflushedAt vserial vctxs vaborts vctxWrites vunbound vgroups vresetEnd vmg vsync
    vlanes vpcs vi2cFails vsvc vcmd vsec vtel vpwr vnv vboot voutbox vfree s.pending) :=
  ⟨h.1, fun i => ⟨(h.2 i).1, hr (h.2 i).2.1, (h.2 i).2.2⟩⟩

theorem Keeps.mem {r : List Host.Cell} (h : Keeps o s) (hr : storeWf 0#8 s.mem = true → storeWf 0#8 r = true) :
    Keeps o (State.mk s.regs s.shadow r vupsets vcores vfc vimage vstage vcopies varrivals vpools vslices vports vtokens
    vlimiter vechoed vcuts vechoes vflushing vflushedAt vserial vctxs vaborts vctxWrites vunbound vgroups vresetEnd
    vmg vsync vlanes vpcs vi2cFails vsvc vcmd vsec vtel vpwr vnv vboot voutbox vfree s.pending) :=
  ⟨h.1, fun i => ⟨(h.2 i).1, (h.2 i).2.1, hr (h.2 i).2.2⟩⟩

end

theorem Keeps.ite {o a b : State} {c : Prop} [Decidable c] (ha : Keeps o a) (hb : Keeps o b) : Keeps o (if c then a else b) := by
  split <;> assumption

theorem Keeps.foldl {o s : State} {β : Type} {f : State → β → State} {l : List β} (h : Keeps o s)
    (hf : ∀ a b, Keeps o a → Keeps o (f a b)) : Keeps o (l.foldl f s) := by
  induction l generalizing s with
  | nil => exact h
  | cons b l ih => exact ih (hf _ _ h)

theorem Keeps.foldr {o s : State} {β : Type} {f : β → State → State} {l : List β} (h : Keeps o s)
    (hf : ∀ b a, Keeps o a → Keeps o (f b a)) : Keeps o (l.foldr f s) := by
  induction l with
  | nil => exact h
  | cons b l ih => exact hf _ _ ih

/-- A fold that carries a second value beside the state. -/
theorem Keeps.foldl_pair {o : State} {β γ : Type} {f : State × γ → β → State × γ} {l : List β} {p : State × γ} (h : Keeps o p.1)
    (hf : ∀ a b, Keeps o a.1 → Keeps o (f a b).1) : Keeps o (l.foldl f p).1 := by
  induction l generalizing p with
  | nil => exact h
  | cons b l ih => exact ih (hf _ _ h)

/-- The reset state is in canonical form. -/
theorem State.reset_inv : State.reset.Inv := by
  refine ⟨?_, ?_, ?_⟩ <;> decide

/-- A fold over a state that may be given up. -/
theorem Keeps.foldl_option {o : State} {β : Type} {f : Option State → β → Option State} {l : List β} {m : Option State}
    (h : ∀ s, m = some s → Keeps o s) (hf : ∀ m b, (∀ s, m = some s → Keeps o s) → ∀ s, f m b = some s → Keeps o s) :
    ∀ s, l.foldl f m = some s → Keeps o s := by
  induction l generalizing m with
  | nil => exact h
  | cons b l ih => exact ih (hf _ _ h)

theorem Keeps.of_pair {o t : State} {γ : Type} {p : State × γ} {x : γ} (e : p = (t, x)) (h : Keeps o p.1) : Keeps o t := by
  subst e; exact h

theorem KeepsOut.next {o t : State} (h : Keeps o t) : KeepsOut o (.next t) := ⟨t, rfl, h⟩

end Sys2Proof.Machine
end

