-- ==== Sys2Proof/Laws/KeepsOps.lean ====
section
/-! SUPPORT. Machine/Ops.lean keeps the queue and the canonical form of the stores. -/

namespace Sys2Proof.Machine

theorem State.wr_keeps {o s : State} (h : Keeps o s) (r : RegName) (v i j k : Nat) : Keeps o (s.wr r v i j k) :=
  Keeps.regs h storeWf_writeKey

theorem State.setFld_keeps {o s : State} (h : Keeps o s) (f : Fld) (v : Nat) (i : Nat) (j : Nat) (k : Nat) :
    Keeps o (State.setFld s f v i j k) := by
  unfold State.setFld
  try dsimp only
  repeat' first
    | with_reducible assumption
    | with_reducible apply State.wr_keeps

theorem State.bump_keeps {o s : State} (h : Keeps o s) (f : Fld) (n : Nat) (i : Nat) (j : Nat) (k : Nat) :
    Keeps o (State.bump s f n i j k) := by
  unfold State.bump
  try dsimp only
  repeat' first
    | with_reducible assumption
    | with_reducible apply State.setFld_keeps

theorem State.wrap_keeps {o s : State} (h : Keeps o s) (f : Fld) (n : Nat) (i : Nat) (j : Nat) (k : Nat) :
    Keeps o (State.wrap s f n i j k) := by
  unfold State.wrap
  try dsimp only
  repeat' first
    | with_reducible assumption
    | with_reducible apply State.setFld_keeps

theorem State.wrShadow_keeps {o s : State} (h : Keeps o s) (r : RegName) (v i j k : Nat) : Keeps o (s.wrShadow r v i j k) :=
  Keeps.shadow h storeWf_writeKey

theorem State.commitShadow_keeps {o s : State} (h : Keeps o s) (r : RegName) (i : Nat) (j : Nat) (k : Nat) :
    Keeps o (State.commitShadow s r i j k) := by
  unfold State.commitShadow
  try dsimp only
  repeat' first
    | with_reducible assumption
    | with_reducible apply State.wr_keeps

theorem State.resetReg_keeps {o s : State} (h : Keeps o s) (r : RegName) (i j k : Nat) : Keeps o (s.resetReg r i j k) :=
  Keeps.shadow (s := { s with regs := writeKey 0#64 s.regs (r.addr i j k) 0#64 }) (Keeps.regs h storeWf_writeKey) storeWf_writeKey

theorem State.setSram_keeps {o s : State} (h : Keeps o s) (n a : Nat) (b : Byte) : Keeps o (s.setSram n a b) :=
  Keeps.mem h storeWf_writeKey

theorem State.setSramBytes_keeps {o s : State} (h : Keeps o s) (n a : Nat) (b : Bytes) : Keeps o (s.setSramBytes n a b) := by
  induction b generalizing s a with
  | nil => exact h
  | cons x b ih => exact ih (setSram_keeps h n a x) (a + 1)

theorem State.clearUpsets_keeps {o s : State} (h : Keeps o s) (n : Nat) (a : Nat) (len : Nat) :
    Keeps o (State.clearUpsets s n a len) := by
  unfold State.clearUpsets
  try dsimp only
  repeat' first
    | with_reducible assumption
    | intro _
    | simp only [Keeps.mk_iff]
    | refine Keeps.of_pair (by with_reducible assumption) ?_
    | dsimp only

theorem State.writeSram_keeps {o s : State} (h : Keeps o s) (n : Nat) (a : Nat) (bs : Bytes) :
    Keeps o (State.writeSram s n a bs) := by
  unfold State.writeSram
  try dsimp only
  repeat' first
    | with_reducible assumption
    | intro _
    | with_reducible apply State.setSramBytes_keeps
    | with_reducible apply State.clearUpsets_keeps
    | simp only [Keeps.mk_iff]
    | refine Keeps.of_pair (by with_reducible assumption) ?_
    | dsimp only

theorem State.zeroSram_keeps {o s : State} (h : Keeps o s) (n lo hi : Nat) : Keeps o (s.zeroSram n lo hi) :=
  State.clearUpsets_keeps (Keeps.mem h storeWf_filter) n lo _

theorem State.setCore_keeps {o s : State} (h : Keeps o s) (n : Nat) (c : CoreX) :
    Keeps o (State.setCore s n c) := by
  unfold State.setCore
  try dsimp only
  repeat' first
    | with_reducible assumption
    | simp only [Keeps.mk_iff]

theorem State.useFree_keeps {o s : State} (h : Keeps o s) :
    Keeps o (State.useFree s) := by
  unfold State.useFree
  try dsimp only
  repeat' first
    | with_reducible assumption
    | simp only [Keeps.mk_iff]

theorem State.upsetWord_keeps {o s : State} (h : Keeps o s) (n : Nat) (word : Nat) (both : Bool) :
    Keeps o (State.upsetWord s n word both) := by
  unfold State.upsetWord
  try dsimp only
  repeat' first
    | with_reducible assumption
    | intro _
    | with_reducible apply State.useFree_keeps
    | simp only [Keeps.mk_iff]
    | refine Keeps.of_pair (by with_reducible assumption) ?_
    | dsimp only

theorem State.report_keeps {o s : State} (h : Keeps o s) (src : Nat) (inst : Nat) (info : Bytes) (injected : Bool) :
    Keeps o (State.report s src inst info injected) := by
  unfold State.report
  try dsimp only
  repeat' first
    | with_reducible assumption
    | simp only [Keeps.mk_iff]

theorem State.injectSpent_keeps {o s : State} (h : Keeps o s) (checker : Nat) (inst : Nat) :
    Keeps o (State.injectSpent s checker inst) := by
  unfold State.injectSpent
  try dsimp only
  repeat' first
    | with_reducible assumption
    | with_reducible apply Keeps.ite
    | with_reducible apply State.setFld_keeps
    | split
    | simp only [Keeps.mk_iff]

theorem State.noteUpsets_keeps {o s : State} (h : Keeps o s) (n : Nat) (a : Nat) (len : Nat) :
    Keeps o (State.noteUpsets s n a len) := by
  unfold State.noteUpsets
  try dsimp only
  repeat' first
    | with_reducible assumption
    | intro _
    | with_reducible apply Keeps.ite
    | with_reducible apply State.bump_keeps
    | with_reducible apply State.report_keeps
    | with_reducible apply Keeps.foldl
    | with_reducible apply Keeps.foldl_pair
    | split
    | simp only [Keeps.mk_iff]
    | refine Keeps.of_pair (by with_reducible assumption) ?_
    | dsimp only

theorem State.noteRead_keeps {o s : State} (h : Keeps o s) (n : Nat) (a : Nat) (len : Nat) :
    Keeps o (State.noteRead s n a len) := by
  unfold State.noteRead
  try dsimp only
  repeat' first
    | with_reducible assumption
    | intro _
    | with_reducible apply State.noteUpsets_keeps
    | with_reducible apply State.injectSpent_keeps
    | with_reducible apply State.bump_keeps
    | with_reducible apply State.report_keeps
    | split
    | simp only [Keeps.mk_iff]
    | refine Keeps.of_pair (by with_reducible assumption) ?_
    | dsimp only

end Sys2Proof.Machine
end

