-- ==== Sys2Proof/Laws/KeepsFlags.lean ====
section
/-! SUPPORT. Machine/Flags.lean keeps the queue and the canonical form of the stores. -/

namespace Sys2Proof.Machine

theorem State.noteOvf_keeps {o s : State} (h : Keeps o s) (c : Nat) (ovf : Bool) :
    Keeps o (State.noteOvf s c ovf) := by
  unfold State.noteOvf
  try dsimp only
  repeat' first
    | with_reducible assumption
    | with_reducible apply Keeps.ite
    | with_reducible apply State.setFld_keeps
    | split

theorem State.noteNan_keeps {o s : State} (h : Keeps o s) (c : Nat) (nan : Bool) :
    Keeps o (State.noteNan s c nan) := by
  unfold State.noteNan
  try dsimp only
  repeat' first
    | with_reducible assumption
    | with_reducible apply Keeps.ite
    | with_reducible apply State.setFld_keeps
    | split

theorem State.noteClamp_keeps {o s : State} (h : Keeps o s) (c : Nat) (n : Nat) :
    Keeps o (State.noteClamp s c n) := by
  unfold State.noteClamp
  try dsimp only
  repeat' first
    | with_reducible assumption
    | with_reducible apply Keeps.ite
    | with_reducible apply State.bump_keeps
    | split

theorem State.noteOp_keeps {o s : State} (h : Keeps o s) (n : Nat) (ovf : Bool) (clamps : Nat) :
    Keeps o (State.noteOp s n ovf clamps) := by
  unfold State.noteOp
  try dsimp only
  repeat' first
    | with_reducible assumption
    | intro _
    | with_reducible apply State.noteOvf_keeps
    | with_reducible apply State.noteClamp_keeps
    | split

theorem State.noteSubst_keeps {o s : State} (h : Keeps o s) (n : Nat) (code : Nat) (nan : Bool) :
    Keeps o (State.noteSubst s n code nan) := by
  unfold State.noteSubst
  try dsimp only
  repeat' first
    | with_reducible assumption
    | intro _
    | with_reducible apply Keeps.ite
    | with_reducible apply State.noteNan_keeps
    | split
    | simp only [Keeps.mk_iff]
    | refine Keeps.of_pair (by with_reducible assumption) ?_
    | dsimp only

end Sys2Proof.Machine
end

