-- ==== Sys2Proof/Laws/KeepsPorts.lean ====
section
/-! SUPPORT. Machine/Ports.lean keeps the queue and the canonical form of the stores. -/

namespace Sys2Proof.Machine

theorem State.setPort_keeps {o s : State} (h : Keeps o s) (p : Nat) (x : PortX) :
    Keeps o (State.setPort s p x) := by
  unfold State.setPort
  try dsimp only
  repeat' first
    | with_reducible assumption
    | simp only [Keeps.mk_iff]

theorem State.setSlice_keeps {o s : State} (h : Keeps o s) (n : Nat) (x : SliceX) :
    Keeps o (State.setSlice s n x) := by
  unfold State.setSlice
  try dsimp only
  repeat' first
    | with_reducible assumption
    | simp only [Keeps.mk_iff]

theorem State.setPool_keeps {o s : State} (h : Keeps o s) (n : Nat) (i : Nat) (x : PoolX) :
    Keeps o (State.setPool s n i x) := by
  unfold State.setPool
  try dsimp only
  repeat' first
    | with_reducible assumption
    | simp only [Keeps.mk_iff]

theorem State.setCtx_keeps {o s : State} (h : Keeps o s) (c : Nat) (x : CtxRun) :
    Keeps o (State.setCtx s c x) := by
  unfold State.setCtx
  try dsimp only
  repeat' first
    | with_reducible assumption
    | simp only [Keeps.mk_iff]

theorem State.setMg_keeps {o s : State} (h : Keeps o s) (p : Nat) (x : MgX) :
    Keeps o (State.setMg s p x) := by
  unfold State.setMg
  try dsimp only
  repeat' first
    | with_reducible assumption
    | simp only [Keeps.mk_iff]

theorem State.setRxLane_keeps {o s : State} (h : Keeps o s) (l : Nat) (x : LaneX) :
    Keeps o (State.setRxLane s l x) := by
  unfold State.setRxLane
  try dsimp only
  repeat' first
    | with_reducible assumption
    | simp only [Keeps.mk_iff]

theorem State.emit_keeps {o0 s : State} (h : Keeps o0 s) (o : Output) :
    Keeps o0 (State.emit s o) := by
  unfold State.emit
  try dsimp only
  repeat' first
    | with_reducible assumption
    | simp only [Keeps.mk_iff]

theorem State.raiseLink_keeps {o s : State} (h : Keeps o s) (src : Nat) (x : Nat) :
    Keeps o (State.raiseLink s src x) := by
  unfold State.raiseLink
  try dsimp only
  repeat' first
    | with_reducible assumption
    | with_reducible apply State.report_keeps

theorem State.showCredit_keeps {o s : State} (h : Keeps o s) (x : Nat) (pair : Nat) :
    Keeps o (State.showCredit s x pair) := by
  unfold State.showCredit
  try dsimp only
  repeat' first
    | with_reducible assumption
    | with_reducible apply Keeps.ite
    | with_reducible apply State.setFld_keeps
    | split

theorem State.returnCredit_keeps {o s : State} (h : Keeps o s) (x : Nat) (pair : Nat) (k : Nat) :
    Keeps o (State.returnCredit s x pair k) := by
  unfold State.returnCredit
  try dsimp only
  repeat' first
    | with_reducible assumption
    | with_reducible apply Keeps.ite
    | with_reducible apply State.setPort_keeps
    | with_reducible apply State.showCredit_keeps
    | split
    | simp only [Keeps.mk_iff]

theorem State.drop_keeps {o s : State} (h : Keeps o s) (n : Nat) (cause : Nat) :
    Keeps o (State.drop s n cause) := by
  unfold State.drop
  try dsimp only
  repeat' first
    | with_reducible assumption
    | with_reducible apply State.bump_keeps

theorem State.showStaging_keeps {o s : State} (h : Keeps o s) (x : Nat) :
    Keeps o (State.showStaging s x) := by
  unfold State.showStaging
  try dsimp only
  repeat' first
    | with_reducible assumption
    | intro _
    | with_reducible apply State.setFld_keeps
    | with_reducible apply Keeps.foldl
    | with_reducible apply Keeps.foldl_pair
    | split
    | simp only [Keeps.mk_iff]
    | refine Keeps.of_pair (by with_reducible assumption) ?_
    | dsimp only

theorem State.settle_keeps {o s : State} (h : Keeps o s) (g : Nat) :
    Keeps o (State.settle s g) := by
  unfold State.settle
  try dsimp only
  repeat' first
    | with_reducible assumption
    | intro _
    | with_reducible apply Keeps.ite
    | with_reducible apply State.showStaging_keeps
    | with_reducible apply State.returnCredit_keeps
    | split
    | simp only [Keeps.mk_iff]
    | refine Keeps.of_pair (by with_reducible assumption) ?_
    | dsimp only

end Sys2Proof.Machine
end

