-- ==== Sys2Proof/Laws/KeepsPools.lean ====
section
/-! SUPPORT. Machine/Pools.lean keeps the queue and the canonical form of the stores. -/

namespace Sys2Proof.Machine

theorem State.showPool_keeps {o s : State} (h : Keeps o s) (n : Nat) (i : Nat) :
    Keeps o (State.showPool s n i) := by
  unfold State.showPool
  try dsimp only
  repeat' first
    | with_reducible assumption
    | with_reducible apply State.setFld_keeps

theorem State.startRefill_keeps {o s : State} (h : Keeps o s) (n : Nat) (i : Nat) :
    Keeps o (State.startRefill s n i) := by
  unfold State.startRefill
  try dsimp only
  repeat' first
    | with_reducible assumption
    | with_reducible apply Keeps.ite
    | with_reducible apply State.setPool_keeps
    | with_reducible apply State.drop_keeps
    | split
    | simp only [Keeps.mk_iff]

theorem State.cachePtr_keeps {o s : State} (h : Keeps o s) (n : Nat) (i : Nat) (w : Nat) (bad : Bool) (injected : Bool) :
    Keeps o (State.cachePtr s n i w bad injected) := by
  unfold State.cachePtr
  try dsimp only
  repeat' first
    | with_reducible assumption
    | intro _
    | with_reducible apply Keeps.ite
    | with_reducible apply State.bump_keeps
    | with_reducible apply State.report_keeps
    | with_reducible apply State.setPool_keeps
    | split
    | simp only [Keeps.mk_iff]
    | refine Keeps.of_pair (by with_reducible assumption) ?_
    | dsimp only

theorem State.refillArrives_keeps {o s : State} (h : Keeps o s) (n : Nat) (i : Nat) :
    Keeps o (State.refillArrives s n i) := by
  unfold State.refillArrives
  try dsimp only
  repeat' first
    | with_reducible assumption
    | intro _
    | with_reducible apply Keeps.ite
    | with_reducible apply State.injectSpent_keeps
    | with_reducible apply State.setPool_keeps
    | with_reducible apply State.cachePtr_keeps
    | with_reducible apply State.startRefill_keeps
    | with_reducible apply State.showPool_keeps
    | with_reducible apply Keeps.foldl
    | split
    | simp only [Keeps.mk_iff]

theorem State.buildPool_keeps {o s : State} (h : Keeps o s) (n : Nat) (i : Nat) :
    Keeps o (State.buildPool s n i) := by
  unfold State.buildPool
  try dsimp only
  repeat' first
    | with_reducible assumption
    | intro _
    | with_reducible apply State.setSlice_keeps
    | with_reducible apply State.setPool_keeps
    | with_reducible apply State.setFld_keeps
    | with_reducible apply State.startRefill_keeps
    | with_reducible apply State.showPool_keeps
    | simp only [Keeps.mk_iff]
    | refine Keeps.of_pair (by with_reducible assumption) ?_
    | dsimp only

theorem State.freePtr_keeps {o s : State} (h : Keeps o s) (n : Nat) (i : Nat) (w : Nat) :
    Keeps o (State.freePtr s n i w) := by
  unfold State.freePtr
  try dsimp only
  repeat' first
    | with_reducible assumption
    | intro _
    | with_reducible apply Keeps.ite
    | with_reducible apply State.bump_keeps
    | with_reducible apply State.report_keeps
    | with_reducible apply State.setSlice_keeps
    | with_reducible apply State.setPool_keeps
    | split
    | simp only [Keeps.mk_iff]
    | refine Keeps.of_pair (by with_reducible assumption) ?_
    | dsimp only

theorem State.writeBack_keeps {o s : State} (h : Keeps o s) (n : Nat) (i : Nat) :
    Keeps o (State.writeBack s n i) := by
  unfold State.writeBack
  try dsimp only
  repeat' first
    | with_reducible assumption
    | with_reducible apply Keeps.ite
    | with_reducible apply State.setPool_keeps
    | with_reducible apply State.drop_keeps
    | split
    | simp only [Keeps.mk_iff]

theorem State.freeCopy_keeps {o s : State} (h : Keeps o s) (id : Nat) :
    Keeps o (State.freeCopy s id) := by
  unfold State.freeCopy
  try dsimp only
  repeat' first
    | with_reducible assumption
    | intro _
    | with_reducible apply Keeps.ite
    | with_reducible apply State.freePtr_keeps
    | with_reducible apply State.writeBack_keeps
    | with_reducible apply State.startRefill_keeps
    | with_reducible apply State.showPool_keeps
    | with_reducible apply State.setFld_keeps
    | with_reducible apply State.settle_keeps
    | with_reducible apply Keeps.foldl
    | split
    | simp only [Keeps.mk_iff]

theorem State.freeWhere_keeps {o s : State} (h : Keeps o s) (p : Copy → Bool) :
    Keeps o (State.freeWhere s p) := by
  unfold State.freeWhere
  try dsimp only
  repeat' first
    | with_reducible assumption
    | intro _
    | with_reducible apply State.freeCopy_keeps
    | with_reducible apply Keeps.foldl

theorem State.setCopy_keeps {o s : State} (h : Keeps o s) (c : Copy) :
    Keeps o (State.setCopy s c) := by
  unfold State.setCopy
  try dsimp only
  repeat' first
    | with_reducible assumption
    | intro _
    | with_reducible apply Keeps.ite
    | split
    | simp only [Keeps.mk_iff]

theorem State.handOne_keeps {o s : State} (h : Keeps o s) (c : Copy) :
    Keeps o (State.handOne s c) := by
  unfold State.handOne
  try dsimp only
  repeat' first
    | with_reducible assumption
    | intro _
    | with_reducible apply Keeps.ite
    | with_reducible apply State.setPool_keeps
    | with_reducible apply State.setSlice_keeps
    | with_reducible apply State.setCopy_keeps
    | with_reducible apply State.startRefill_keeps
    | with_reducible apply State.showPool_keeps
    | split
    | simp only [Keeps.mk_iff]
    | refine Keeps.of_pair (by with_reducible assumption) ?_
    | dsimp only

theorem State.handOver_keeps {o s : State} (h : Keeps o s) (n fuel : Nat) : Keeps o (s.handOver n fuel) := by
  induction fuel generalizing s with
  | zero => exact h
  | succ k ih =>
    unfold State.handOver
    split
    · exact h
    · exact ih (handOne_keeps h _)

theorem State.refuse_keeps {o0 s : State} (h : Keeps o0 s) (n : Nat) (cause : Nat) (f : Frame) (o : OutPort) :
    Keeps o0 (State.refuse s n cause f o) := by
  unfold State.refuse
  try dsimp only
  repeat' first
    | with_reducible assumption
    | intro _
    | with_reducible apply State.drop_keeps
    | with_reducible apply State.wrap_keeps
    | split
    | simp only [Keeps.mk_iff]
    | refine Keeps.of_pair (by with_reducible assumption) ?_
    | dsimp only

theorem State.request_keeps {o0 s : State} (h : Keeps o0 s) (f : Frame) (x : Nat) (group : Nat) (ix : Nat) (o : OutPort) (launch : Option Nat) (span : Option (Nat × Nat)) :
    Keeps o0 (State.request s f x group ix o launch span) := by
  unfold State.request
  try dsimp only
  repeat' first
    | with_reducible assumption
    | simp only [Keeps.mk_iff]
    | refine Keeps.of_pair (by with_reducible assumption) ?_
    | dsimp only

theorem State.ask_keeps {o0 s : State} (h : Keeps o0 s) (f : Frame) (m : Nat) (src : Nat) (o : OutPort) (group : Nat) (engine : Option (Nat × Nat)) (launch : Option Nat) :
    Keeps o0 (State.ask s f m src o group engine launch) := by
  unfold State.ask
  try dsimp only
  repeat' first
    | with_reducible assumption
    | intro _
    | with_reducible apply Keeps.ite
    | split
    | simp only [Keeps.mk_iff]
    | refine Keeps.of_pair (by with_reducible assumption) ?_
    | dsimp only

theorem State.admitOrig_keeps {o s : State} (h : Keeps o s) (c : Copy) :
    Keeps o (State.admitOrig s c) := by
  unfold State.admitOrig
  try dsimp only
  repeat' first
    | with_reducible assumption
    | with_reducible apply State.setCopy_keeps
    | with_reducible apply State.setFld_keeps
    | simp only [Keeps.mk_iff]

theorem State.decidePort_keeps {o s : State} (h : Keeps o s) (c : Copy) :
    Keeps o (State.decidePort s c) := by
  unfold State.decidePort
  try dsimp only
  repeat' first
    | with_reducible assumption
    | intro _
    | with_reducible apply Keeps.ite
    | with_reducible apply State.setCopy_keeps
    | with_reducible apply State.setFld_keeps
    | with_reducible apply State.refuse_keeps
    | with_reducible apply State.settle_keeps
    | with_reducible apply State.report_keeps
    | split
    | simp only [Keeps.mk_iff]
    | refine Keeps.of_pair (by with_reducible assumption) ?_
    | dsimp only

theorem State.decideOne_keeps {o s : State} (h : Keeps o s) (c : Copy) :
    Keeps o (State.decideOne s c) := by
  unfold State.decideOne
  try dsimp only
  repeat' first
    | with_reducible assumption
    | intro _
    | with_reducible apply Keeps.ite
    | with_reducible apply State.admitOrig_keeps
    | with_reducible apply State.decidePort_keeps
    | split
    | simp only [Keeps.mk_iff]
    | refine Keeps.of_pair (by with_reducible assumption) ?_
    | dsimp only

theorem State.admitSlice_keeps {o s : State} (h : Keeps o s) (n : Nat) :
    Keeps o (State.admitSlice s n) := by
  unfold State.admitSlice
  try dsimp only
  repeat' first
    | with_reducible assumption
    | intro _
    | with_reducible apply State.decideOne_keeps
    | with_reducible apply Keeps.foldl
    | with_reducible apply Keeps.foldl_pair
    | simp only [Keeps.mk_iff]
    | refine Keeps.of_pair (by with_reducible assumption) ?_
    | dsimp only

theorem State.admitAll_keeps {o s : State} (h : Keeps o s) :
    Keeps o (State.admitAll s) := by
  unfold State.admitAll
  try dsimp only
  repeat' first
    | with_reducible assumption
    | intro _
    | with_reducible apply State.admitSlice_keeps
    | with_reducible apply Keeps.foldl
    | with_reducible apply Keeps.foldl_pair
    | simp only [Keeps.mk_iff]
    | refine Keeps.of_pair (by with_reducible assumption) ?_
    | dsimp only

end Sys2Proof.Machine
end

