-- ==== Sys2Proof/Laws/KeepsRouting.lean ====
section
/-! SUPPORT. Machine/Routing.lean keeps the queue and the canonical form of the stores. -/

namespace Sys2Proof.Machine

theorem State.adaptive_keeps {o s : State} (h : Keeps o s) (n : Nat) (x : Nat) (f : Frame) :
    Keeps o (State.adaptive s n x f).1 := by
  unfold State.adaptive
  try dsimp only
  repeat' first
    | with_reducible assumption
    | intro _
    | with_reducible apply Keeps.ite
    | with_reducible apply State.setPort_keeps
    | with_reducible apply State.bump_keeps
    | split
    | simp only [Keeps.mk_iff]
    | refine Keeps.of_pair (by with_reducible assumption) ?_
    | dsimp only

theorem State.route_keeps {o s : State} (h : Keeps o s) (n : Nat) (x : Nat) (f : Frame) :
    Keeps o (State.route s n x f).1 := by
  unfold State.route
  try dsimp only
  repeat' first
    | with_reducible assumption
    | with_reducible apply Keeps.ite
    | with_reducible apply State.adaptive_keeps
    | split
    | refine Keeps.of_pair (by with_reducible assumption) ?_
    | dsimp only
    | with_reducible apply Keeps.foldl_pair

theorem State.originate_keeps {o s : State} (h : Keeps o s) (n : Nat) (f : Frame) :
    Keeps o (State.originate s n f) := by
  unfold State.originate
  try dsimp only
  repeat' first
    | with_reducible assumption
    | intro _
    | with_reducible apply State.route_keeps
    | with_reducible apply State.ask_keeps
    | with_reducible apply State.drop_keeps
    | split
    | simp only [Keeps.mk_iff]
    | refine Keeps.of_pair (by with_reducible assumption) ?_
    | dsimp only

theorem State.sendControl_keeps {o s : State} (h : Keeps o s) (x : Nat) (f : Frame) :
    Keeps o (State.sendControl s x f) := by
  unfold State.sendControl
  try dsimp only
  repeat' first
    | with_reducible assumption
    | with_reducible apply State.setPort_keeps
    | simp only [Keeps.mk_iff]

end Sys2Proof.Machine
end

