-- ==== Sys2Proof/Laws/KeepsOperands.lean ====
section
/-! SUPPORT. Machine/Operands.lean keeps the queue and the canonical form of the stores. -/

namespace Sys2Proof.Machine

theorem State.later_keeps {o s : State} (h : Keeps o s) (n : Nat) (w : Nat) (d : Dst) :
    Keeps o (State.later s n w d) := by
  unfold State.later
  try dsimp only
  repeat' first
    | with_reducible assumption
    | with_reducible apply State.setCore_keeps
    | simp only [Keeps.mk_iff]

theorem State.halting_keeps {o s : State} (h : Keeps o s) (n : Nat) (r : HaltRep) :
    Keeps o (State.halting s n r) := by
  unfold State.halting
  try dsimp only
  repeat' first
    | with_reducible assumption
    | with_reducible apply Keeps.ite
    | with_reducible apply State.setCore_keeps
    | split
    | simp only [Keeps.mk_iff]

end Sys2Proof.Machine
end

