-- ==== Sys2Proof/Laws/KeepsIsaVector.lean ====
section
/-! SUPPORT. Machine/IsaVector.lean keeps the queue and the canonical form of the stores. -/

namespace Sys2Proof.Machine

theorem vectorResult_keeps {o0 : State} {o : OpIn} (h : Keeps o0 o.s) (w : Nat) (r : Bytes × Bool) :
    Keeps o0 (vectorResult o w r) := by
  unfold vectorResult
  try dsimp only
  repeat' first
    | with_reducible assumption
    | with_reducible apply State.later_keeps
    | with_reducible apply State.noteOp_keeps

theorem floatOp_keeps {o0 : State} {o : OpIn} (h : Keeps o0 o.s) (f : Fmt) (w : Nat) (g : FV → FV → FV) (reports : Bool) :
    Keeps o0 (floatOp o f w g reports) := by
  unfold floatOp
  try dsimp only
  repeat' first
    | with_reducible assumption
    | intro _
    | with_reducible apply vectorResult_keeps

theorem opFadd_keeps {o0 : State} {o : OpIn} (h : Keeps o0 o.s) : Keeps o0 (opFadd.effect o) := by
  unfold opFadd
  try dsimp only
  repeat' first
    | with_reducible assumption
    | with_reducible apply floatOp_keeps

theorem opFsub_keeps {o0 : State} {o : OpIn} (h : Keeps o0 o.s) : Keeps o0 (opFsub.effect o) := by
  unfold opFsub
  try dsimp only
  repeat' first
    | with_reducible assumption
    | intro _
    | with_reducible apply floatOp_keeps

theorem opFmul_keeps {o0 : State} {o : OpIn} (h : Keeps o0 o.s) : Keeps o0 (opFmul.effect o) := by
  unfold opFmul
  try dsimp only
  repeat' first
    | with_reducible assumption
    | with_reducible apply floatOp_keeps

theorem minMaxOp_keeps {o0 : State} {o : OpIn} (h : Keeps o0 o.s) (isMax : Bool) :
    Keeps o0 (minMaxOp o isMax) := by
  unfold minMaxOp
  try dsimp only
  repeat' first
    | with_reducible assumption
    | intro _
    | with_reducible apply vectorResult_keeps

theorem opFmin_keeps {o0 : State} {o : OpIn} (h : Keeps o0 o.s) : Keeps o0 (opFmin.effect o) := by
  unfold opFmin
  try dsimp only
  repeat' first
    | with_reducible assumption
    | with_reducible apply minMaxOp_keeps

theorem opFmax_keeps {o0 : State} {o : OpIn} (h : Keeps o0 o.s) : Keeps o0 (opFmax.effect o) := by
  unfold opFmax
  try dsimp only
  repeat' first
    | with_reducible assumption
    | with_reducible apply minMaxOp_keeps

theorem State.occupy_keeps {o s : State} (h : Keeps o s) (n : Nat) (unit : Nat) (occ : Nat) :
    Keeps o (State.occupy s n unit occ) := by
  unfold State.occupy
  try dsimp only
  repeat' first
    | with_reducible assumption
    | with_reducible apply State.setCore_keeps
    | split
    | simp only [Keeps.mk_iff]

theorem opFdiv_keeps {o0 : State} {o : OpIn} (h : Keeps o0 o.s) : Keeps o0 (opFdiv.effect o) := by
  unfold opFdiv
  try dsimp only
  repeat' first
    | with_reducible assumption
    | with_reducible apply floatOp_keeps
    | with_reducible apply State.occupy_keeps

theorem opFsqrt_keeps {o0 : State} {o : OpIn} (h : Keeps o0 o.s) : Keeps o0 (opFsqrt.effect o) := by
  unfold opFsqrt
  try dsimp only
  repeat' first
    | with_reducible assumption
    | intro _
    | with_reducible apply floatOp_keeps
    | with_reducible apply State.occupy_keeps

theorem opFcvt_keeps {o0 : State} {o : OpIn} (h : Keeps o0 o.s) : Keeps o0 (opFcvt.effect o) := by
  unfold opFcvt
  try dsimp only
  repeat' first
    | with_reducible assumption
    | with_reducible apply State.noteSubst_keeps
    | intro _
    | with_reducible apply Keeps.ite
    | with_reducible apply State.later_keeps
    | with_reducible apply State.noteOp_keeps
    | split

theorem opUnpk_keeps {o0 : State} {o : OpIn} (h : Keeps o0 o.s) : Keeps o0 (opUnpk.effect o) := by
  unfold opUnpk
  try dsimp only
  repeat' first
    | with_reducible assumption
    | intro _
    | with_reducible apply Keeps.ite
    | with_reducible apply vectorResult_keeps
    | split

theorem intOp_keeps {o0 : State} {o : OpIn} (h : Keeps o0 o.s) (w : Nat) (g : Nat → Nat → Nat) :
    Keeps o0 (intOp o w g) := by
  unfold intOp
  try dsimp only
  repeat' first
    | with_reducible assumption
    | intro _
    | with_reducible apply vectorResult_keeps

theorem opIadd_keeps {o0 : State} {o : OpIn} (h : Keeps o0 o.s) : Keeps o0 (opIadd.effect o) := by
  unfold opIadd
  try dsimp only
  repeat' first
    | with_reducible assumption
    | with_reducible apply intOp_keeps

theorem opIsub_keeps {o0 : State} {o : OpIn} (h : Keeps o0 o.s) : Keeps o0 (opIsub.effect o) := by
  unfold opIsub
  try dsimp only
  repeat' first
    | with_reducible assumption
    | intro _
    | with_reducible apply intOp_keeps

theorem opImin_keeps {o0 : State} {o : OpIn} (h : Keeps o0 o.s) : Keeps o0 (opImin.effect o) := by
  unfold opImin
  try dsimp only
  repeat' first
    | with_reducible assumption
    | intro _
    | with_reducible apply Keeps.ite
    | with_reducible apply intOp_keeps
    | split

theorem opImax_keeps {o0 : State} {o : OpIn} (h : Keeps o0 o.s) : Keeps o0 (opImax.effect o) := by
  unfold opImax
  try dsimp only
  repeat' first
    | with_reducible assumption
    | intro _
    | with_reducible apply Keeps.ite
    | with_reducible apply intOp_keeps
    | split

theorem opAnd_keeps {o0 : State} {o : OpIn} (h : Keeps o0 o.s) : Keeps o0 (opAnd.effect o) := by
  unfold opAnd
  try dsimp only
  repeat' first
    | with_reducible assumption
    | with_reducible apply intOp_keeps

theorem opOr_keeps {o0 : State} {o : OpIn} (h : Keeps o0 o.s) : Keeps o0 (opOr.effect o) := by
  unfold opOr
  try dsimp only
  repeat' first
    | with_reducible assumption
    | with_reducible apply intOp_keeps

theorem opXor_keeps {o0 : State} {o : OpIn} (h : Keeps o0 o.s) : Keeps o0 (opXor.effect o) := by
  unfold opXor
  try dsimp only
  repeat' first
    | with_reducible assumption
    | with_reducible apply intOp_keeps

theorem opMov_keeps {o0 : State} {o : OpIn} (h : Keeps o0 o.s) : Keeps o0 (opMov.effect o) := by
  unfold opMov
  try dsimp only
  repeat' first
    | with_reducible assumption
    | intro _
    | with_reducible apply intOp_keeps

theorem opBcast_keeps {o0 : State} {o : OpIn} (h : Keeps o0 o.s) : Keeps o0 (opBcast.effect o) := by
  unfold opBcast
  try dsimp only
  repeat' first
    | with_reducible assumption
    | intro _
    | with_reducible apply vectorResult_keeps

theorem opPadd_keeps {o0 : State} {o : OpIn} (h : Keeps o0 o.s) : Keeps o0 (opPadd.effect o) := by
  unfold opPadd
  try dsimp only
  repeat' first
    | with_reducible assumption
    | intro _
    | with_reducible apply Keeps.ite
    | with_reducible apply State.later_keeps
    | with_reducible apply State.noteOp_keeps
    | with_reducible apply Keeps.foldr
    | split

theorem opPhloxExp_keeps {o0 : State} {o : OpIn} (h : Keeps o0 o.s) : Keeps o0 (opPhloxExp.effect o) := by
  unfold opPhloxExp
  try dsimp only
  repeat' first
    | with_reducible assumption
    | intro _
    | with_reducible apply State.later_keeps

theorem opPhloxCvt_keeps {o0 : State} {o : OpIn} (h : Keeps o0 o.s) : Keeps o0 (opPhloxCvt.effect o) := by
  unfold opPhloxCvt
  try dsimp only
  repeat' first
    | with_reducible assumption
    | intro _
    | with_reducible apply State.later_keeps
    | with_reducible apply State.noteOp_keeps
    | with_reducible apply State.occupy_keeps
    | with_reducible apply Keeps.foldl

theorem opPhloxNorm_keeps {o0 : State} {o : OpIn} (h : Keeps o0 o.s) : Keeps o0 (opPhloxNorm.effect o) := by
  unfold opPhloxNorm
  try dsimp only
  repeat' first
    | with_reducible assumption
    | with_reducible apply State.noteSubst_keeps
    | intro _
    | with_reducible apply Keeps.ite
    | with_reducible apply State.later_keeps
    | with_reducible apply State.noteOp_keeps
    | with_reducible apply State.occupy_keeps
    | split

theorem dotEffect_keeps {o0 : State} {o : OpIn} (h : Keeps o0 o.s) (bl : Nat) :
    Keeps o0 (dotEffect bl o) := by
  unfold dotEffect
  try dsimp only
  repeat' first
    | with_reducible assumption
    | intro _
    | with_reducible apply Keeps.ite
    | with_reducible apply State.later_keeps
    | with_reducible apply State.noteOp_keeps
    | with_reducible apply State.occupy_keeps
    | split

theorem dotpEffect_keeps {o0 : State} {o : OpIn} (h : Keeps o0 o.s) (bl : Nat) :
    Keeps o0 (dotpEffect bl o) := by
  unfold dotpEffect
  try dsimp only
  repeat' first
    | with_reducible assumption
    | intro _
    | with_reducible apply Keeps.ite
    | with_reducible apply State.later_keeps
    | with_reducible apply State.drop_keeps
    | with_reducible apply State.noteOp_keeps
    | with_reducible apply State.occupy_keeps
    | with_reducible apply Keeps.foldl
    | with_reducible apply Keeps.foldr
    | split

theorem opDot16_keeps {o0 : State} {o : OpIn} (h : Keeps o0 o.s) : Keeps o0 (opDot16.effect o) := by
  unfold opDot16
  try dsimp only
  repeat' first
    | with_reducible assumption
    | with_reducible apply dotEffect_keeps

theorem opDot32_keeps {o0 : State} {o : OpIn} (h : Keeps o0 o.s) : Keeps o0 (opDot32.effect o) := by
  unfold opDot32
  try dsimp only
  repeat' first
    | with_reducible assumption
    | with_reducible apply dotEffect_keeps

theorem opDotp16_keeps {o0 : State} {o : OpIn} (h : Keeps o0 o.s) : Keeps o0 (opDotp16.effect o) := by
  unfold opDotp16
  try dsimp only
  repeat' first
    | with_reducible assumption
    | with_reducible apply dotpEffect_keeps

theorem opDotp32_keeps {o0 : State} {o : OpIn} (h : Keeps o0 o.s) : Keeps o0 (opDotp32.effect o) := by
  unfold opDotp32
  try dsimp only
  repeat' first
    | with_reducible assumption
    | with_reducible apply dotpEffect_keeps

end Sys2Proof.Machine
end

