-- ==== Sys2Proof/Laws/KeepsIsaScalar.lean ====
section
/-! SUPPORT. Machine/IsaScalar.lean keeps the queue and the canonical form of the stores. -/

namespace Sys2Proof.Machine

theorem loadOp_keeps {o0 : State} {o : OpIn} (h : Keeps o0 o.s) (d : Bytes → Dst) :
    Keeps o0 (loadOp o d) := by
  unfold loadOp
  try dsimp only
  repeat' first
    | with_reducible assumption
    | with_reducible apply State.noteRead_keeps
    | with_reducible apply State.later_keeps
    | with_reducible apply State.injectSpent_keeps
    | with_reducible apply State.bump_keeps
    | with_reducible apply State.report_keeps
    | with_reducible apply State.halting_keeps
    | split

theorem storeOp_keeps {o0 : State} {o : OpIn} (h : Keeps o0 o.s) (bs : Bytes) :
    Keeps o0 (storeOp o bs) := by
  unfold storeOp
  try dsimp only
  repeat' first
    | with_reducible assumption
    | with_reducible apply State.setCore_keeps
    | simp only [Keeps.mk_iff]

theorem opLdV_keeps {o0 : State} {o : OpIn} (h : Keeps o0 o.s) : Keeps o0 (opLdV.effect o) := by
  unfold opLdV
  try dsimp only
  repeat' first
    | with_reducible assumption
    | intro _
    | with_reducible apply loadOp_keeps

theorem opStV_keeps {o0 : State} {o : OpIn} (h : Keeps o0 o.s) : Keeps o0 (opStV.effect o) := by
  unfold opStV
  try dsimp only
  repeat' first
    | with_reducible assumption
    | with_reducible apply storeOp_keeps

theorem opLdS_keeps {o0 : State} {o : OpIn} (h : Keeps o0 o.s) : Keeps o0 (opLdS.effect o) := by
  unfold opLdS
  try dsimp only
  repeat' first
    | with_reducible assumption
    | intro _
    | with_reducible apply loadOp_keeps

theorem opStS_keeps {o0 : State} {o : OpIn} (h : Keeps o0 o.s) : Keeps o0 (opStS.effect o) := by
  unfold opStS
  try dsimp only
  repeat' first
    | with_reducible assumption
    | with_reducible apply storeOp_keeps

theorem scalarOp_keeps {o0 : State} {o : OpIn} (h : Keeps o0 o.s) (w : Nat) (g : Nat → Nat → Nat) :
    Keeps o0 (scalarOp o w g) := by
  unfold scalarOp
  try dsimp only
  repeat' first
    | with_reducible assumption
    | with_reducible apply State.later_keeps

theorem opAddS_keeps {o0 : State} {o : OpIn} (h : Keeps o0 o.s) : Keeps o0 (opAddS.effect o) := by
  unfold opAddS
  try dsimp only
  repeat' first
    | with_reducible assumption
    | with_reducible apply scalarOp_keeps

theorem opSubS_keeps {o0 : State} {o : OpIn} (h : Keeps o0 o.s) : Keeps o0 (opSubS.effect o) := by
  unfold opSubS
  try dsimp only
  repeat' first
    | with_reducible assumption
    | intro _
    | with_reducible apply scalarOp_keeps

theorem opMulS_keeps {o0 : State} {o : OpIn} (h : Keeps o0 o.s) : Keeps o0 (opMulS.effect o) := by
  unfold opMulS
  try dsimp only
  repeat' first
    | with_reducible assumption
    | with_reducible apply scalarOp_keeps

theorem opAndS_keeps {o0 : State} {o : OpIn} (h : Keeps o0 o.s) : Keeps o0 (opAndS.effect o) := by
  unfold opAndS
  try dsimp only
  repeat' first
    | with_reducible assumption
    | with_reducible apply scalarOp_keeps

theorem opOrS_keeps {o0 : State} {o : OpIn} (h : Keeps o0 o.s) : Keeps o0 (opOrS.effect o) := by
  unfold opOrS
  try dsimp only
  repeat' first
    | with_reducible assumption
    | with_reducible apply scalarOp_keeps

theorem opXorS_keeps {o0 : State} {o : OpIn} (h : Keeps o0 o.s) : Keeps o0 (opXorS.effect o) := by
  unfold opXorS
  try dsimp only
  repeat' first
    | with_reducible assumption
    | with_reducible apply scalarOp_keeps

theorem opShl_keeps {o0 : State} {o : OpIn} (h : Keeps o0 o.s) : Keeps o0 (opShl.effect o) := by
  unfold opShl
  try dsimp only
  repeat' first
    | with_reducible assumption
    | intro _
    | with_reducible apply scalarOp_keeps

theorem opShr_keeps {o0 : State} {o : OpIn} (h : Keeps o0 o.s) : Keeps o0 (opShr.effect o) := by
  unfold opShr
  try dsimp only
  repeat' first
    | with_reducible assumption
    | intro _
    | with_reducible apply scalarOp_keeps

theorem opSra_keeps {o0 : State} {o : OpIn} (h : Keeps o0 o.s) : Keeps o0 (opSra.effect o) := by
  unfold opSra
  try dsimp only
  repeat' first
    | with_reducible assumption
    | intro _
    | with_reducible apply scalarOp_keeps

theorem opMovi_keeps {o0 : State} {o : OpIn} (h : Keeps o0 o.s) : Keeps o0 (opMovi.effect o) := by
  unfold opMovi
  try dsimp only
  repeat' first
    | with_reducible assumption
    | with_reducible apply State.later_keeps

theorem opAadd_keeps {o0 : State} {o : OpIn} (h : Keeps o0 o.s) : Keeps o0 (opAadd.effect o) := by
  unfold opAadd
  try dsimp only
  repeat' first
    | with_reducible assumption
    | with_reducible apply State.later_keeps

theorem opMova_keeps {o0 : State} {o : OpIn} (h : Keeps o0 o.s) : Keeps o0 (opMova.effect o) := by
  unfold opMova
  try dsimp only
  repeat' first
    | with_reducible assumption
    | with_reducible apply State.later_keeps

theorem opMovs_keeps {o0 : State} {o : OpIn} (h : Keeps o0 o.s) : Keeps o0 (opMovs.effect o) := by
  unfold opMovs
  try dsimp only
  repeat' first
    | with_reducible assumption
    | with_reducible apply State.later_keeps

theorem opPset_keeps {o0 : State} {o : OpIn} (h : Keeps o0 o.s) : Keeps o0 (opPset.effect o) := by
  unfold opPset
  try dsimp only
  repeat' first
    | with_reducible assumption
    | with_reducible apply State.later_keeps

theorem opBr_keeps {o0 : State} {o : OpIn} (h : Keeps o0 o.s) : Keeps o0 (opBr.effect o) := by
  unfold opBr
  try dsimp only
  repeat' first
    | with_reducible assumption

theorem opLoop_keeps {o0 : State} {o : OpIn} (h : Keeps o0 o.s) : Keeps o0 (opLoop.effect o) := by
  unfold opLoop
  try dsimp only
  repeat' first
    | with_reducible assumption
    | with_reducible apply State.later_keeps

end Sys2Proof.Machine
end

