-- ==== Sys2Proof/Laws/KeepsIsaStream.lean ====
section
/-! SUPPORT. Machine/IsaStream.lean keeps the queue and the canonical form of the stores. -/

namespace Sys2Proof.Machine

theorem State.setEngine_keeps {o s : State} (h : Keeps o s) (n : Nat) (k : Nat) (e : EngineX) :
    Keeps o (State.setEngine s n k e) := by
  unfold State.setEngine
  try dsimp only
  repeat' first
    | with_reducible assumption
    | intro _
    | with_reducible apply State.setCore_keeps
    | simp only [Keeps.mk_iff]
    | refine Keeps.of_pair (by with_reducible assumption) ?_
    | dsimp only

theorem State.seFault_keeps {o s : State} (h : Keeps o s) (n : Nat) (k : Nat) (rsn : Nat) (slot : Nat) (bundle : Nat) :
    Keeps o (State.seFault s n k rsn slot bundle) := by
  unfold State.seFault
  try dsimp only
  repeat' first
    | with_reducible assumption
    | with_reducible apply State.setFld_keeps
    | with_reducible apply State.halting_keeps

theorem sstartRefuse_keeps {o0 s : State} (h : Keeps o0 s) (o : OpIn) :
    Keeps o0 (sstartRefuse o s) := by
  unfold sstartRefuse
  try dsimp only
  repeat' first
    | with_reducible assumption
    | intro _
    | with_reducible apply Keeps.ite
    | with_reducible apply State.setFld_keeps
    | with_reducible apply State.noteRead_keeps
    | split
    | simp only [Keeps.mk_iff]
    | refine Keeps.of_pair (by with_reducible assumption) ?_
    | dsimp only

theorem opSstart_keeps {o0 : State} {o : OpIn} (h : Keeps o0 o.s) : Keeps o0 (opSstart.effect o) := by
  unfold opSstart
  try dsimp only
  repeat' first
    | with_reducible assumption
    | with_reducible apply State.noteRead_keeps
    | with_reducible apply State.setFld_keeps
    | with_reducible apply State.wr_keeps
    | with_reducible apply State.setCore_keeps
    | simp only [Keeps.mk_iff]

theorem opSwait_keeps {o0 : State} {o : OpIn} (h : Keeps o0 o.s) : Keeps o0 (opSwait.effect o) := by
  unfold opSwait
  try dsimp only
  repeat' first
    | with_reducible assumption

theorem opSrel_keeps {o0 : State} {o : OpIn} (h : Keeps o0 o.s) : Keeps o0 (opSrel.effect o) := by
  unfold opSrel
  try dsimp only
  repeat' first
    | with_reducible assumption
    | with_reducible apply Keeps.ite
    | with_reducible apply State.later_keeps
    | with_reducible apply State.release_keeps
    | split

theorem opEnd_keeps {o0 : State} {o : OpIn} (h : Keeps o0 o.s) : Keeps o0 (opEnd.effect o) := by
  unfold opEnd
  try dsimp only
  repeat' first
    | with_reducible assumption

theorem opOf_keeps {o0 : State} {o : OpIn} (h : Keeps o0 o.s) {c : Nat} {d : OpDef} (e : opOf c = some d) :
    Keeps o0 (d.effect o) := by
  unfold opOf at e
  split at e
  all_goals first
    | obtain rfl := Option.some.inj e
    | cases e
  all_goals with_reducible first
      | exact opFadd_keeps h | exact opFsub_keeps h | exact opFmul_keeps h | exact opFmin_keeps h | exact opFmax_keeps h | exact opFdiv_keeps h
      | exact opFsqrt_keeps h | exact opFcvt_keeps h | exact opUnpk_keeps h | exact opIadd_keeps h | exact opIsub_keeps h | exact opImin_keeps h
      | exact opImax_keeps h | exact opAnd_keeps h | exact opOr_keeps h | exact opXor_keeps h | exact opMov_keeps h | exact opBcast_keeps h
      | exact opPadd_keeps h | exact opPhloxExp_keeps h | exact opPhloxCvt_keeps h | exact opPhloxNorm_keeps h | exact opDot16_keeps h | exact opDot32_keeps h
      | exact opDotp16_keeps h | exact opDotp32_keeps h | exact opLdV_keeps h | exact opStV_keeps h | exact opLdS_keeps h | exact opStS_keeps h
      | exact opAddS_keeps h | exact opSubS_keeps h | exact opMulS_keeps h | exact opAndS_keeps h | exact opOrS_keeps h | exact opXorS_keeps h
      | exact opShl_keeps h | exact opShr_keeps h | exact opSra_keeps h | exact opMovi_keeps h | exact opAadd_keeps h | exact opMova_keeps h
      | exact opMovs_keeps h | exact opPset_keeps h | exact opBr_keeps h | exact opLoop_keeps h | exact opSstart_keeps h | exact opSwait_keeps h
      | exact opSrel_keeps h | exact opEnd_keeps h

end Sys2Proof.Machine
end

