-- ==== Sys2Proof/Laws/KeepsSequencer.lean ====
section
/-! SUPPORT. Machine/Sequencer.lean keeps the queue and the canonical form of the stores. -/

namespace Sys2Proof.Machine

theorem State.writeLanes_keeps {o s : State} (h : Keeps o s) (n k c i : Nat) (bs : List (Option Byte)) :
    Keeps o (s.writeLanes n k c i bs) := by
  induction c generalizing s i bs with
  | zero => exact h
  | succ c ih => exact ih (Keeps.ite (wr_keeps h ..) h) ..

theorem State.makeWrite_keeps {o s : State} (h : Keeps o s) (n : Nat) (d : Dst) : Keeps o (s.makeWrite n d) := by
  cases d with
  | vec k bs => exact writeLanes_keeps h ..
  | scalar k v => exact wr_keeps h ..
  | address k v => exact wr_keeps h ..
  | predicate k v => exact wr_keeps h ..
  | release k v => exact setFld_keeps h ..

theorem State.tickCore_keeps {o s : State} (h : Keeps o s) (n : Nat) :
    Keeps o (State.tickCore s n) := by
  unfold State.tickCore
  try dsimp only
  repeat' first
    | with_reducible assumption
    | intro _
    | with_reducible apply Keeps.ite
    | with_reducible apply State.setFld_keeps
    | with_reducible apply State.setCore_keeps
    | with_reducible apply State.writeSram_keeps
    | with_reducible apply State.makeWrite_keeps
    | with_reducible apply State.halting_keeps
    | with_reducible apply Keeps.foldl
    | with_reducible apply Keeps.foldl_pair
    | split
    | simp only [Keeps.mk_iff]
    | refine Keeps.of_pair (by with_reducible assumption) ?_
    | dsimp only

theorem State.runCycles_keeps {o s : State} (h : Keeps o s) (n k : Nat) : Keeps o (s.runCycles n k) := by
  induction k generalizing s with
  | zero => exact h
  | succ k ih => exact ih (tickCore_keeps h n)

theorem State.drainCore_keeps {o s : State} (h : Keeps o s) (n : Nat) :
    Keeps o (State.drainCore s n) := by
  unfold State.drainCore
  try dsimp only
  repeat' first
    | with_reducible assumption
    | intro _
    | with_reducible apply State.runCycles_keeps

theorem State.waitAt_keeps {o0 s : State} (h : Keeps o0 s) (n : Nat) (o : Slotted) (onlyDrain : Bool) :
    Keeps o0 (State.waitAt s n o onlyDrain) := by
  unfold State.waitAt
  try dsimp only
  repeat' first
    | with_reducible assumption
    | with_reducible apply Keeps.ite
    | with_reducible apply State.setFld_keeps
    | split

theorem State.issueFault_keeps {o s : State} (h : Keeps o s) (n : Nat) (b : Bundle) (f : Nat × Nat × Nat) :
    Keeps o (State.issueFault s n b f) := by
  unfold State.issueFault
  try dsimp only
  repeat' first
    | with_reducible assumption
    | intro _
    | with_reducible apply Keeps.ite
    | with_reducible apply State.halting_keeps
    | with_reducible apply sstartRefuse_keeps
    | split

theorem State.clearWait_keeps {o s : State} (h : Keeps o s) (n : Nat) :
    Keeps o (State.clearWait s n) := by
  unfold State.clearWait
  try dsimp only
  repeat' first
    | with_reducible assumption
    | with_reducible apply State.setFld_keeps

theorem State.leaveProgram_keeps {o s : State} (h : Keeps o s) (n : Nat) :
    Keeps o (State.leaveProgram s n) := by
  unfold State.leaveProgram
  try dsimp only
  repeat' first
    | with_reducible assumption
    | intro _
    | with_reducible apply State.run_keeps
    | with_reducible apply State.halting_keeps
    | with_reducible apply State.setCore_keeps
    | with_reducible apply State.setFld_keeps
    | with_reducible apply State.clearWait_keeps
    | simp only [Keeps.mk_iff]
    | refine Keeps.of_pair (by with_reducible assumption) ?_
    | dsimp only

theorem State.endProgram_keeps {o s : State} (h : Keeps o s) (n : Nat) (a : Nat) :
    Keeps o (State.endProgram s n a) := by
  unfold State.endProgram
  try dsimp only
  repeat' first
    | with_reducible assumption
    | intro _
    | with_reducible apply Keeps.ite
    | with_reducible apply State.seFault_keeps
    | with_reducible apply State.setCore_keeps
    | with_reducible apply State.leaveProgram_keeps
    | split
    | simp only [Keeps.mk_iff]

theorem State.tagSlot_keeps {o s : State} (h : Keeps o s) (n : Nat) (i : Nat) (slot : Nat) :
    Keeps o (State.tagSlot s n i slot) := by
  unfold State.tagSlot
  try dsimp only
  repeat' first
    | with_reducible assumption
    | intro _
    | with_reducible apply State.setCore_keeps
    | with_reducible apply State.drop_keeps
    | simp only [Keeps.mk_iff]

theorem State.issueOp_keeps {o0 s : State} (h : Keeps o0 s) (n : Nat) (ext : Nat) (o : Slotted) :
    Keeps o0 (State.issueOp s n ext o) := by
  unfold State.issueOp
  try dsimp only
  repeat' first
    | with_reducible assumption
    | with_reducible apply opOf_keeps
    | with_reducible apply State.tagSlot_keeps
    | split

theorem State.issueOps_keeps {o s : State} (h : Keeps o s) (n : Nat) (b : Bundle) :
    Keeps o (State.issueOps s n b) := by
  unfold State.issueOps
  try dsimp only
  repeat' first
    | with_reducible assumption
    | intro _
    | with_reducible apply Keeps.ite
    | with_reducible apply State.issueOp_keeps
    | with_reducible apply State.setCore_keeps
    | with_reducible apply State.setFld_keeps
    | with_reducible apply State.clearWait_keeps
    | with_reducible apply State.runCycles_keeps
    | with_reducible apply State.endProgram_keeps
    | with_reducible apply Keeps.foldl
    | with_reducible apply Keeps.foldl_pair
    | split
    | simp only [Keeps.mk_iff]
    | refine Keeps.of_pair (by with_reducible assumption) ?_
    | dsimp only

theorem State.issueBundle_keeps {o s : State} (h : Keeps o s) (n : Nat) :
    Keeps o (State.issueBundle s n) := by
  unfold State.issueBundle
  try dsimp only
  repeat' first
    | with_reducible assumption
    | intro _
    | with_reducible apply Keeps.ite
    | with_reducible apply State.noteUpsets_keeps
    | with_reducible apply State.issueFault_keeps
    | with_reducible apply State.waitAt_keeps
    | with_reducible apply State.issueOps_keeps
    | split
    | simp only [Keeps.mk_iff]
    | refine Keeps.of_pair (by with_reducible assumption) ?_
    | dsimp only

theorem State.drainRow_keeps {o s : State} (h : Keeps o s) (n : Nat) (r : RowWait) :
    Keeps o (State.drainRow s n r) := by
  unfold State.drainRow
  try dsimp only
  repeat' first
    | with_reducible assumption
    | intro _
    | with_reducible apply Keeps.ite
    | with_reducible apply State.setCore_keeps
    | with_reducible apply State.waitAt_keeps
    | with_reducible apply State.issueFault_keeps
    | with_reducible apply State.setFld_keeps
    | with_reducible apply State.clearWait_keeps
    | with_reducible apply State.endProgram_keeps
    | split
    | simp only [Keeps.mk_iff]
    | refine Keeps.of_pair (by with_reducible assumption) ?_
    | dsimp only

theorem State.issueNext_keeps {o s : State} (h : Keeps o s) (n : Nat) :
    Keeps o (State.issueNext s n) := by
  unfold State.issueNext
  try dsimp only
  repeat' first
    | with_reducible assumption
    | intro _
    | with_reducible apply State.drainRow_keeps
    | with_reducible apply State.issueBundle_keeps
    | split
    | simp only [Keeps.mk_iff]
    | refine Keeps.of_pair (by with_reducible assumption) ?_
    | dsimp only

theorem State.enterHalt_keeps {o s : State} (h0 : Keeps o s) (n : Nat) (h : HaltRep) :
    Keeps o (State.enterHalt s n h) := by
  unfold State.enterHalt
  try dsimp only
  repeat' first
    | with_reducible assumption
    | with_reducible apply Keeps.ite
    | with_reducible apply State.setCore_keeps
    | with_reducible apply State.halting_keeps
    | with_reducible apply State.wr_keeps
    | with_reducible apply State.setFld_keeps
    | with_reducible apply State.clearWait_keeps
    | with_reducible apply State.report_keeps
    | split
    | simp only [Keeps.mk_iff]

theorem State.completeHalt_keeps {o s : State} (h : Keeps o s) (n : Nat) :
    Keeps o (State.completeHalt s n) := by
  unfold State.completeHalt
  try dsimp only
  repeat' first
    | with_reducible assumption
    | with_reducible apply Keeps.ite
    | with_reducible apply State.halting_keeps
    | with_reducible apply State.drainCore_keeps
    | with_reducible apply State.enterHalt_keeps
    | split

theorem State.settleCore_keeps {o s : State} (h : Keeps o s) (n : Nat) :
    Keeps o (State.settleCore s n) := by
  unfold State.settleCore
  try dsimp only
  repeat' first
    | with_reducible assumption
    | intro _
    | with_reducible apply Keeps.ite
    | with_reducible apply State.drainCore_keeps
    | with_reducible apply State.halting_keeps
    | with_reducible apply State.enterHalt_keeps
    | split
    | simp only [Keeps.mk_iff]
    | refine Keeps.of_pair (by with_reducible assumption) ?_
    | dsimp only

theorem State.sleepHalt_keeps {o s : State} (h : Keeps o s) (n : Nat) (forced : Bool) :
    Keeps o (State.sleepHalt s n forced) := by
  unfold State.sleepHalt
  try dsimp only
  repeat' first
    | with_reducible assumption
    | intro _
    | with_reducible apply Keeps.ite
    | with_reducible apply State.settleCore_keeps
    | with_reducible apply State.setFld_keeps
    | with_reducible apply State.enterHalt_keeps
    | with_reducible apply State.setCore_keeps
    | split
    | simp only [Keeps.mk_iff]
    | refine Keeps.of_pair (by with_reducible assumption) ?_
    | dsimp only

theorem State.haltEngines_keeps {o s : State} (h : Keeps o s) (n : Nat) :
    Keeps o (State.haltEngines s n) := by
  unfold State.haltEngines
  try dsimp only
  repeat' first
    | with_reducible assumption
    | intro _
    | with_reducible apply State.setFld_keeps
    | with_reducible apply Keeps.foldl

theorem State.stopEngines_keeps {o s : State} (h : Keeps o s) (n : Nat) :
    Keeps o (State.stopEngines s n) := by
  unfold State.stopEngines
  try dsimp only
  repeat' first
    | with_reducible assumption
    | intro _
    | with_reducible apply State.wr_keeps
    | with_reducible apply Keeps.foldl

theorem State.clearRegFile_keeps {o s : State} (h : Keeps o s) (n : Nat) :
    Keeps o (State.clearRegFile s n) := by
  unfold State.clearRegFile
  try dsimp only
  repeat' first
    | refine Keeps.regs ?_ storeWf_filter
    | refine Keeps.regs ?_ storeWf_writeKey
    | with_reducible assumption
    | intro _
    | simp only [Keeps.mk_iff]

theorem State.markStarts_keeps {o s : State} (h : Keeps o s) (c : Nat) (tick : Nat) (launch : Nat) :
    Keeps o (State.markStarts s c tick launch) := by
  unfold State.markStarts
  try dsimp only
  repeat' first
    | with_reducible assumption
    | intro _
    | with_reducible apply State.setCore_keeps
    | with_reducible apply State.tick_keeps
    | with_reducible apply State.setFld_keeps
    | with_reducible apply Keeps.foldl
    | simp only [Keeps.mk_iff]

theorem State.takeStart_keeps {o s : State} (h : Keeps o s) (n : Nat) (p : PendStart) :
    Keeps o (State.takeStart s n p) := by
  unfold State.takeStart
  try dsimp only
  repeat' first
    | with_reducible assumption
    | intro _
    | with_reducible apply Keeps.ite
    | with_reducible apply State.tick_keeps
    | with_reducible apply State.clearRegFile_keeps
    | with_reducible apply State.stopEngines_keeps
    | with_reducible apply State.wr_keeps
    | with_reducible apply State.setCore_keeps
    | with_reducible apply State.run_keeps
    | with_reducible apply State.setFld_keeps
    | split

theorem State.abortCore_keeps {o s : State} (h : Keeps o s) (n : Nat) :
    Keeps o (State.abortCore s n) := by
  unfold State.abortCore
  try dsimp only
  repeat' first
    | with_reducible assumption
    | with_reducible apply State.drainCore_keeps
    | with_reducible apply State.haltEngines_keeps
    | with_reducible apply State.leaveProgram_keeps

theorem State.dropStarts_keeps {o s : State} (h : Keeps o s) (n : Nat) (c : Nat) :
    Keeps o (State.dropStarts s n c) := by
  unfold State.dropStarts
  try dsimp only
  repeat' first
    | with_reducible assumption
    | intro _
    | with_reducible apply State.setCore_keeps
    | with_reducible apply State.setFld_keeps
    | with_reducible apply Keeps.foldl
    | simp only [Keeps.mk_iff]

theorem State.abortCores_keeps {o s : State} (h : Keeps o s) (c : Nat) :
    Keeps o (State.abortCores s c) := by
  unfold State.abortCores
  try dsimp only
  repeat' first
    | with_reducible assumption
    | intro _
    | with_reducible apply Keeps.ite
    | with_reducible apply State.dropStarts_keeps
    | with_reducible apply State.haltEngines_keeps
    | with_reducible apply State.setCore_keeps
    | with_reducible apply State.run_keeps
    | with_reducible apply State.abortCore_keeps
    | with_reducible apply Keeps.foldl
    | split
    | simp only [Keeps.mk_iff]

end Sys2Proof.Machine
end

