-- ==== Sys2Proof/Laws/KeepsLaunch.lean ====
section
/-! SUPPORT. Machine/Launch.lean keeps the queue and the canonical form of the stores. -/

namespace Sys2Proof.Machine

theorem State.showStall_keeps {o s : State} (h : Keeps o s) (p : Nat) :
    Keeps o (State.showStall s p) := by
  unfold State.showStall
  try dsimp only
  repeat' first
    | with_reducible assumption
    | intro _
    | with_reducible apply State.setFld_keeps

theorem State.record_keeps {o s : State} (h : Keeps o s) (c : Nat) (status : Nat) :
    Keeps o (State.record s c status) := by
  unfold State.record
  try dsimp only
  repeat' first
    | with_reducible assumption
    | with_reducible apply Keeps.ite
    | with_reducible apply State.setMg_keeps
    | split
    | simp only [Keeps.mk_iff]

theorem State.recordIgnored_keeps {o s : State} (h : Keeps o s) (c : Nat) :
    Keeps o (State.recordIgnored s c) := by
  unfold State.recordIgnored
  try dsimp only
  repeat' first
    | with_reducible assumption
    | intro _
    | with_reducible apply Keeps.ite
    | with_reducible apply State.setMg_keeps
    | split
    | simp only [Keeps.mk_iff]

theorem State.freeMember_keeps {o s : State} (h : Keeps o s) (c : Nat) (e : Nat) (launch : Nat) :
    Keeps o (State.freeMember s c e launch) := by
  unfold State.freeMember
  try dsimp only
  repeat' first
    | with_reducible assumption
    | intro _
    | with_reducible apply State.setCtx_keeps
    | simp only [Keeps.mk_iff]
    | refine Keeps.of_pair (by with_reducible assumption) ?_
    | dsimp only

theorem State.serveMembers_keeps {o s : State} (h : Keeps o s) (c : Nat) :
    Keeps o (State.serveMembers s c) := by
  unfold State.serveMembers
  try dsimp only
  repeat' first
    | with_reducible assumption
    | intro _
    | with_reducible apply Keeps.ite
    | with_reducible apply State.freeMember_keeps
    | with_reducible apply Keeps.foldl
    | with_reducible apply Keeps.foldl_pair
    | split
    | simp only [Keeps.mk_iff]
    | refine Keeps.of_pair (by with_reducible assumption) ?_
    | dsimp only

theorem State.completeLaunch_keeps {o s : State} (h : Keeps o s) (c : Nat) :
    Keeps o (State.completeLaunch s c) := by
  unfold State.completeLaunch
  try dsimp only
  repeat' first
    | with_reducible assumption
    | intro _
    | with_reducible apply Keeps.ite
    | with_reducible apply State.originate_keeps
    | with_reducible apply State.freeWhere_keeps
    | with_reducible apply State.record_keeps
    | with_reducible apply State.setCtx_keeps
    | with_reducible apply State.setFld_keeps
    | with_reducible apply State.showStall_keeps
    | with_reducible apply Keeps.foldl
    | with_reducible apply Keeps.foldl_pair
    | split
    | simp only [Keeps.mk_iff]
    | refine Keeps.of_pair (by with_reducible assumption) ?_
    | dsimp only

theorem State.checkOne_keeps {o s : State} (h : Keeps o s) (c : Nat) :
    Keeps o (State.checkOne s c) := by
  unfold State.checkOne
  try dsimp only
  repeat' first
    | with_reducible assumption
    | intro _
    | with_reducible apply Keeps.ite
    | with_reducible apply State.completeLaunch_keeps
    | split
    | simp only [Keeps.mk_iff]
    | refine Keeps.of_pair (by with_reducible assumption) ?_
    | dsimp only

theorem State.checkDone_keeps {o s : State} (h : Keeps o s) (c : Nat) :
    Keeps o (State.checkDone s c) := by
  unfold State.checkDone
  try dsimp only
  repeat' first
    | with_reducible assumption
    | intro _
    | with_reducible apply Keeps.ite
    | with_reducible apply State.checkOne_keeps
    | with_reducible apply State.serveMembers_keeps
    | split
    | simp only [Keeps.mk_iff]
    | refine Keeps.of_pair (by with_reducible assumption) ?_
    | dsimp only

theorem State.toAborted_keeps {o s : State} (h : Keeps o s) (c : Nat) (rsn : Nat) :
    Keeps o (State.toAborted s c rsn) := by
  unfold State.toAborted
  try dsimp only
  repeat' first
    | with_reducible assumption
    | with_reducible apply State.setFld_keeps

theorem State.sendAborts_keeps {o s : State} (h : Keeps o s) (c : Nat) (rsn : Nat) (except : Option Nat) :
    Keeps o (State.sendAborts s c rsn except) := by
  unfold State.sendAborts
  try dsimp only
  repeat' first
    | with_reducible assumption
    | intro _
    | with_reducible apply Keeps.ite
    | with_reducible apply State.originate_keeps
    | with_reducible apply Keeps.foldl
    | with_reducible apply Keeps.foldl_pair
    | split
    | simp only [Keeps.mk_iff]
    | refine Keeps.of_pair (by with_reducible assumption) ?_
    | dsimp only

theorem State.endWaiting_keeps {o s : State} (h : Keeps o s) (x : Nat) :
    Keeps o (State.endWaiting s x) := by
  unfold State.endWaiting
  try dsimp only
  repeat' first
    | with_reducible assumption
    | intro _
    | with_reducible apply Keeps.ite
    | with_reducible apply State.setPort_keeps
    | with_reducible apply State.setFld_keeps
    | split
    | simp only [Keeps.mk_iff]
    | refine Keeps.of_pair (by with_reducible assumption) ?_
    | dsimp only

theorem State.dropPauses_keeps {o s : State} (h : Keeps o s) (c : Nat) :
    Keeps o (State.dropPauses s c) := by
  unfold State.dropPauses
  try dsimp only
  repeat' first
    | with_reducible assumption
    | intro _
    | with_reducible apply State.endWaiting_keeps
    | with_reducible apply Keeps.foldl
    | with_reducible apply Keeps.foldl_pair
    | split
    | simp only [Keeps.mk_iff]
    | refine Keeps.of_pair (by with_reducible assumption) ?_
    | dsimp only

theorem State.discard_keeps {o s : State} (h : Keeps o s) (c : Nat) :
    Keeps o (State.discard s c) := by
  unfold State.discard
  try dsimp only
  repeat' first
    | with_reducible assumption
    | intro _
    | with_reducible apply State.freeWhere_keeps
    | with_reducible apply State.abortCores_keeps
    | with_reducible apply State.dropPauses_keeps
    | simp only [Keeps.mk_iff]
    | refine Keeps.of_pair (by with_reducible assumption) ?_
    | dsimp only

theorem State.abortCtx_keeps {o s : State} (h : Keeps o s) (c : Nat) (rsn : Nat) (except : Option Nat) :
    Keeps o (State.abortCtx s c rsn except) := by
  unfold State.abortCtx
  try dsimp only
  repeat' first
    | with_reducible assumption
    | intro _
    | with_reducible apply Keeps.ite
    | with_reducible apply State.toAborted_keeps
    | with_reducible apply State.setCtx_keeps
    | with_reducible apply State.discard_keeps
    | with_reducible apply State.showStall_keeps
    | with_reducible apply State.recordIgnored_keeps
    | with_reducible apply State.setFld_keeps
    | split
    | simp only [Keeps.mk_iff]
    | refine Keeps.of_pair (by with_reducible assumption) ?_
    | dsimp only

theorem State.decideAbort_keeps {o s : State} (h : Keeps o s) (a : AbortX) :
    Keeps o (State.decideAbort s a) := by
  unfold State.decideAbort
  try dsimp only
  repeat' first
    | with_reducible assumption
    | intro _
    | with_reducible apply Keeps.ite
    | with_reducible apply State.checkDone_keeps
    | with_reducible apply State.toAborted_keeps
    | with_reducible apply State.record_keeps
    | with_reducible apply State.discard_keeps
    | with_reducible apply State.sendAborts_keeps
    | with_reducible apply State.setCtx_keeps
    | with_reducible apply State.setFld_keeps
    | with_reducible apply State.showStall_keeps
    | with_reducible apply State.recordIgnored_keeps
    | split
    | simp only [Keeps.mk_iff]
    | refine Keeps.of_pair (by with_reducible assumption) ?_
    | dsimp only

theorem State.decideAborts_keeps {o s : State} (h : Keeps o s) :
    Keeps o (State.decideAborts s) := by
  unfold State.decideAborts
  try dsimp only
  repeat' first
    | with_reducible assumption
    | intro _
    | with_reducible apply State.decideAbort_keeps
    | with_reducible apply Keeps.foldl
    | with_reducible apply Keeps.foldl_pair
    | simp only [Keeps.mk_iff]
    | refine Keeps.of_pair (by with_reducible assumption) ?_
    | dsimp only

theorem State.announceEmpty_keeps {o s : State} (h : Keeps o s) (c : Nat) (t : Tree) :
    Keeps o (State.announceEmpty s c t) := by
  unfold State.announceEmpty
  try dsimp only
  repeat' first
    | with_reducible assumption
    | intro _
    | with_reducible apply State.setCtx_keeps
    | with_reducible apply State.originate_keeps
    | with_reducible apply Keeps.foldl
    | with_reducible apply Keeps.foldl_pair
    | simp only [Keeps.mk_iff]
    | refine Keeps.of_pair (by with_reducible assumption) ?_
    | dsimp only

theorem State.beginLaunch_keeps {o s : State} (h : Keeps o s) (c : Nat) :
    Keeps o (State.beginLaunch s c) := by
  unfold State.beginLaunch
  try dsimp only
  repeat' first
    | with_reducible assumption
    | intro _
    | with_reducible apply Keeps.ite
    | with_reducible apply State.setCtx_keeps
    | with_reducible apply State.setFld_keeps
    | with_reducible apply State.markStarts_keeps
    | with_reducible apply State.showStall_keeps
    | with_reducible apply State.announceEmpty_keeps
    | with_reducible apply State.abortCtx_keeps
    | with_reducible apply Keeps.foldl
    | with_reducible apply Keeps.foldl_pair
    | split
    | simp only [Keeps.mk_iff]
    | refine Keeps.of_pair (by with_reducible assumption) ?_
    | dsimp only

end Sys2Proof.Machine
end

