-- ==== Sys2Proof/Laws/KeepsCommit.lean ====
section
/-! SUPPORT. Machine/Commit.lean keeps the queue and the canonical form of the stores. -/

namespace Sys2Proof.Machine

theorem State.releaseTag_keeps {o s : State} (h : Keeps o s) (x : Nat) (f : Frame) :
    Keeps o (State.releaseTag s x f) := by
  unfold State.releaseTag
  try dsimp only
  repeat' first
    | with_reducible assumption
    | with_reducible apply Keeps.ite
    | with_reducible apply State.setPort_keeps
    | with_reducible apply State.setFld_keeps
    | with_reducible apply State.bump_keeps
    | split
    | simp only [Keeps.mk_iff]

theorem State.countCommit_keeps {o s : State} (h : Keeps o s) (k : Copy) :
    Keeps o (State.countCommit s k) := by
  unfold State.countCommit
  try dsimp only
  repeat' first
    | with_reducible assumption
    | intro _
    | with_reducible apply Keeps.ite
    | with_reducible apply State.setCtx_keeps
    | split
    | simp only [Keeps.mk_iff]
    | refine Keeps.of_pair (by with_reducible assumption) ?_
    | dsimp only

theorem State.commitTo_keeps {o s : State} (h : Keeps o s) (k : Copy) (x : Nat) :
    Keeps o (State.commitTo s k x) := by
  unfold State.commitTo
  try dsimp only
  repeat' first
    | with_reducible assumption
    | intro _
    | with_reducible apply Keeps.ite
    | with_reducible apply State.setPort_keeps
    | with_reducible apply State.setCopy_keeps
    | with_reducible apply State.wrap_keeps
    | with_reducible apply State.releaseTag_keeps
    | with_reducible apply State.settle_keeps
    | with_reducible apply State.countCommit_keeps
    | with_reducible apply State.serveMembers_keeps
    | with_reducible apply State.checkDone_keeps
    | with_reducible apply State.freeMember_keeps
    | split
    | simp only [Keeps.mk_iff]
    | refine Keeps.of_pair (by with_reducible assumption) ?_
    | dsimp only

theorem State.seAdvance_keeps {o s : State} (h : Keeps o s) (n : Nat) (k : Nat) (m : Nat) :
    Keeps o (State.seAdvance s n k m) := by
  unfold State.seAdvance
  try dsimp only
  repeat' first
    | with_reducible assumption
    | intro _
    | with_reducible apply Keeps.ite
    | with_reducible apply State.setFld_keeps
    | split
    | simp only [Keeps.mk_iff]
    | refine Keeps.of_pair (by with_reducible assumption) ?_
    | dsimp only

theorem State.seLand_keeps {o s : State} (h : Keeps o s) (n : Nat) (k : Nat) :
    Keeps o (State.seLand s n k) := by
  unfold State.seLand
  try dsimp only
  repeat' first
    | with_reducible assumption
    | intro _
    | with_reducible apply Keeps.ite
    | with_reducible apply State.setEngine_keeps
    | with_reducible apply State.seAdvance_keeps
    | split
    | simp only [Keeps.mk_iff]
    | refine Keeps.of_pair (by with_reducible assumption) ?_
    | dsimp only

theorem State.landCopy_keeps {o s : State} (h : Keeps o s) (k : Copy) :
    Keeps o (State.landCopy s k) := by
  unfold State.landCopy
  try dsimp only
  repeat' first
    | with_reducible assumption
    | intro _
    | with_reducible apply State.seLand_keeps
    | split
    | simp only [Keeps.mk_iff]
    | refine Keeps.of_pair (by with_reducible assumption) ?_
    | dsimp only

theorem State.commitCmd_keeps {o s : State} (h : Keeps o s) (x : Nat) (src : Nat) (b : Bytes) (copy : Option Nat) :
    Keeps o (State.commitCmd s x src b copy) := by
  unfold State.commitCmd
  try dsimp only
  repeat' first
    | with_reducible assumption
    | intro _
    | with_reducible apply State.tick_keeps
    | simp only [Keeps.mk_iff]
    | refine Keeps.of_pair (by with_reducible assumption) ?_
    | dsimp only

theorem State.written_keeps {o s : State} (h : Keeps o s) (k : Copy) :
    Keeps o (State.written s k) := by
  unfold State.written
  try dsimp only
  repeat' first
    | with_reducible assumption
    | intro _
    | with_reducible apply Keeps.ite
    | with_reducible apply State.setCopy_keeps
    | with_reducible apply State.settle_keeps
    | with_reducible apply State.landCopy_keeps
    | with_reducible apply State.checkDone_keeps
    | with_reducible apply State.commitCmd_keeps
    | with_reducible apply State.commitTo_keeps
    | split
    | simp only [Keeps.mk_iff]
    | refine Keeps.of_pair (by with_reducible assumption) ?_
    | dsimp only

end Sys2Proof.Machine
end

