-- ==== Sys2Proof/Laws/KeepsCollect.lean ====
section
/-! SUPPORT. Machine/Collect.lean keeps the queue and the canonical form of the stores. -/

namespace Sys2Proof.Machine

theorem State.noteWord_keeps {o s : State} (h : Keeps o s) (c : Nat) (launch : Nat) (src : Nat) (w : Bytes) (ms : List (Nat × Nat)) :
    Keeps o (State.noteWord s c launch src w ms) := by
  unfold State.noteWord
  try dsimp only
  repeat' first
    | with_reducible assumption
    | intro _
    | with_reducible apply Keeps.ite
    | with_reducible apply State.setCtx_keeps
    | with_reducible apply Keeps.foldl
    | with_reducible apply Keeps.foldl_pair
    | split
    | simp only [Keeps.mk_iff]
    | refine Keeps.of_pair (by with_reducible assumption) ?_
    | dsimp only

theorem State.noteTokens_keeps {o s : State} (h : Keeps o s) (c : Nat) (launch : Nat) (src : Nat) (ts : List (Bytes × Bytes)) :
    Keeps o (State.noteTokens s c launch src ts) := by
  unfold State.noteTokens
  try dsimp only
  repeat' first
    | with_reducible assumption
    | intro _
    | with_reducible apply State.noteWord_keeps
    | with_reducible apply State.setCtx_keeps
    | with_reducible apply Keeps.foldl
    | with_reducible apply Keeps.foldl_pair
    | simp only [Keeps.mk_iff]
    | refine Keeps.of_pair (by with_reducible assumption) ?_
    | dsimp only

theorem State.flushTokens_keeps {o s : State} (h : Keeps o s) (n c owner fuel : Nat) : Keeps o (s.flushTokens n c owner fuel) := by
  induction fuel generalizing s with
  | zero => exact h
  | succ k ih =>
    unfold State.flushTokens
    dsimp only
    repeat' first
      | with_reducible assumption
      | with_reducible apply State.noteClamp_keeps
      | with_reducible apply State.noteNan_keeps
      | with_reducible apply State.noteOvf_keeps
      | with_reducible apply State.drop_keeps
      | with_reducible apply ih
      | with_reducible apply State.setFld_keeps
      | with_reducible apply State.setCtx_keeps
      | with_reducible apply State.ask_keeps
      | with_reducible apply Keeps.ite
      | split

theorem State.takeCombine_keeps {o s : State} (h : Keeps o s) (c : Nat) (launch : Nat) (w : Bytes × Bytes) :
    Keeps o (State.takeCombine s c launch w) := by
  unfold State.takeCombine
  try dsimp only
  repeat' first
    | with_reducible assumption
    | intro _
    | with_reducible apply Keeps.ite
    | with_reducible apply State.setCtx_keeps
    | split
    | simp only [Keeps.mk_iff]
    | refine Keeps.of_pair (by with_reducible assumption) ?_
    | dsimp only

theorem State.combineTiles_keeps {o s : State} (h : Keeps o s) (n : Nat) (x : Nat) (c : Nat) (launch : Nat) (tile : Nat) (ts : List (Bytes × Bytes)) :
    Keeps o (State.combineTiles s n x c launch tile ts).1 := by
  unfold State.combineTiles
  try dsimp only
  repeat' first
    | with_reducible assumption
    | intro _
    | with_reducible apply State.takeCombine_keeps
    | with_reducible apply State.flushTokens_keeps
    | with_reducible apply Keeps.foldl
    | with_reducible apply Keeps.foldl_pair
    | simp only [Keeps.mk_iff]
    | refine Keeps.of_pair (by with_reducible assumption) ?_
    | dsimp only

theorem State.barrier_keeps {o s : State} (h : Keeps o s) (n : Nat) (x : Nat) (c : Nat) (input : Nat) :
    Keeps o (State.barrier s n x c input).1 := by
  unfold State.barrier
  try dsimp only
  repeat' first
    | with_reducible assumption
    | intro _
    | with_reducible apply Keeps.ite
    | with_reducible apply State.setCtx_keeps
    | split
    | simp only [Keeps.mk_iff]
    | refine Keeps.of_pair (by with_reducible assumption) ?_
    | dsimp only

theorem State.noteFrame_keeps {o s : State} (h : Keeps o s) (f : Frame) (launch : Nat) :
    Keeps o (State.noteFrame s f launch) := by
  unfold State.noteFrame
  try dsimp only
  repeat' first
    | with_reducible assumption
    | intro _
    | with_reducible apply Keeps.ite
    | with_reducible apply State.useFree_keeps
    | with_reducible apply State.setCtx_keeps
    | split
    | simp only [Keeps.mk_iff]
    | refine Keeps.of_pair (by with_reducible assumption) ?_
    | dsimp only

theorem State.takeColl_keeps {o s : State} (h : Keeps o s) (n : Nat) (x : Nat) (f : Frame) (launch : Nat) :
    Keeps o (State.takeColl s n x f launch).1 := by
  unfold State.takeColl
  try dsimp only
  repeat' first
    | with_reducible assumption
    | intro _
    | with_reducible apply Keeps.ite
    | with_reducible apply State.barrier_keeps
    | with_reducible apply State.bump_keeps
    | with_reducible apply State.noteTokens_keeps
    | with_reducible apply State.combineTiles_keeps
    | split
    | simp only [Keeps.mk_iff]
    | refine Keeps.of_pair (by with_reducible assumption) ?_
    | dsimp only

theorem State.takeXfer_keeps {o s : State} (h : Keeps o s) (n : Nat) (x : Nat) (f : Frame) (launch : Nat) :
    Keeps o (State.takeXfer s n x f launch).1 := by
  unfold State.takeXfer
  try dsimp only
  repeat' first
    | with_reducible assumption
    | intro _
    | with_reducible apply Keeps.ite
    | with_reducible apply State.bump_keeps
    | with_reducible apply State.setFld_keeps
    | with_reducible apply State.combineTiles_keeps
    | with_reducible apply State.noteWord_keeps
    | with_reducible apply Keeps.foldl
    | with_reducible apply Keeps.foldl_pair
    | split
    | simp only [Keeps.mk_iff]
    | refine Keeps.of_pair (by with_reducible assumption) ?_
    | dsimp only

theorem State.takeTree_keeps {o s : State} (h : Keeps o s) (n : Nat) (x : Nat) (f : Frame) (launch : Nat) :
    Keeps o (State.takeTree s n x f launch).1 := by
  unfold State.takeTree
  try dsimp only
  repeat' first
    | with_reducible assumption
    | intro _
    | with_reducible apply Keeps.ite
    | with_reducible apply State.takeXfer_keeps
    | with_reducible apply State.setCtx_keeps
    | with_reducible apply State.barrier_keeps
    | split
    | simp only [Keeps.mk_iff]
    | refine Keeps.of_pair (by with_reducible assumption) ?_
    | dsimp only

theorem State.takeTiles_keeps {o s : State} (h : Keeps o s) (n : Nat) (x : Nat) (f : Frame) (launch : Nat) :
    Keeps o (State.takeTiles s n x f launch).1 := by
  unfold State.takeTiles
  try dsimp only
  repeat' first
    | with_reducible assumption
    | intro _
    | with_reducible apply Keeps.ite
    | with_reducible apply State.takeColl_keeps
    | with_reducible apply State.takeTree_keeps
    | split
    | simp only [Keeps.mk_iff]
    | refine Keeps.of_pair (by with_reducible assumption) ?_
    | dsimp only

theorem State.takeFrame_keeps {o s : State} (h : Keeps o s) (n : Nat) (x : Nat) (f : Frame) (launch : Nat) :
    Keeps o (State.takeFrame s n x f launch).1 := by
  unfold State.takeFrame
  try dsimp only
  repeat' first
    | with_reducible assumption
    | intro _
    | with_reducible apply Keeps.ite
    | with_reducible apply State.noteFrame_keeps
    | with_reducible apply State.takeTiles_keeps
    | split
    | simp only [Keeps.mk_iff]
    | refine Keeps.of_pair (by with_reducible assumption) ?_
    | dsimp only

theorem State.askCopies_keeps {o s : State} (h : Keeps o s) (n : Nat) (x : Nat) (group : Nat) (launch : Option Nat) (ps : List Placed) :
    Keeps o (State.askCopies s n x group launch ps) := by
  unfold State.askCopies
  try dsimp only
  repeat' first
    | with_reducible assumption
    | intro _
    | with_reducible apply State.request_keeps
    | with_reducible apply State.drop_keeps
    | with_reducible apply Keeps.foldl
    | with_reducible apply Keeps.foldl_pair
    | simp only [Keeps.mk_iff]
    | refine Keeps.of_pair (by with_reducible assumption) ?_
    | dsimp only

theorem State.unparkOne_keeps {o s : State} (h : Keeps o s) (k : Copy) :
    Keeps o (State.unparkOne s k) := by
  unfold State.unparkOne
  try dsimp only
  repeat' first
    | with_reducible assumption
    | intro _
    | with_reducible apply State.takeTiles_keeps
    | with_reducible apply State.askCopies_keeps
    | with_reducible apply State.freeCopy_keeps
    | simp only [Keeps.mk_iff]
    | refine Keeps.of_pair (by with_reducible assumption) ?_
    | dsimp only

theorem State.unpark_keeps {o s : State} (h : Keeps o s) (c : Nat) :
    Keeps o (State.unpark s c) := by
  unfold State.unpark
  try dsimp only
  repeat' first
    | with_reducible assumption
    | intro _
    | with_reducible apply State.unparkOne_keeps
    | with_reducible apply Keeps.foldl
    | with_reducible apply Keeps.foldl_pair
    | split
    | simp only [Keeps.mk_iff]
    | refine Keeps.of_pair (by with_reducible assumption) ?_
    | dsimp only

theorem State.silentSource_keeps {o s : State} (h : Keeps o s) (c : Nat) (m : Nat × Nat) :
    Keeps o (State.silentSource s c m) := by
  unfold State.silentSource
  try dsimp only
  repeat' first
    | with_reducible assumption
    | intro _
    | with_reducible apply Keeps.ite
    | with_reducible apply State.useFree_keeps
    | with_reducible apply State.setCtx_keeps
    | with_reducible apply State.askCopies_keeps
    | split
    | simp only [Keeps.mk_iff]
    | refine Keeps.of_pair (by with_reducible assumption) ?_
    | dsimp only

theorem State.silentSources_keeps {o s : State} (h : Keeps o s) (c : Nat) :
    Keeps o (State.silentSources s c) := by
  unfold State.silentSources
  try dsimp only
  repeat' first
    | with_reducible assumption
    | intro _
    | with_reducible apply Keeps.ite
    | with_reducible apply State.silentSource_keeps
    | with_reducible apply Keeps.foldl
    | with_reducible apply Keeps.foldl_pair
    | split
    | simp only [Keeps.mk_iff]
    | refine Keeps.of_pair (by with_reducible assumption) ?_
    | dsimp only

theorem State.openLaunch_keeps {o s : State} (h : Keeps o s) (c : Nat) :
    Keeps o (State.openLaunch s c) := by
  unfold State.openLaunch
  try dsimp only
  repeat' first
    | with_reducible assumption
    | intro _
    | with_reducible apply State.beginLaunch_keeps
    | with_reducible apply State.unpark_keeps
    | with_reducible apply State.silentSources_keeps
    | with_reducible apply State.checkDone_keeps
    | simp only [Keeps.mk_iff]
    | refine Keeps.of_pair (by with_reducible assumption) ?_
    | dsimp only

end Sys2Proof.Machine
end

