-- ==== Sys2Proof/Laws/KeepsBuffers.lean ====
section
/-! SUPPORT. Machine/Buffers.lean keeps the queue and the canonical form of the stores. -/

namespace Sys2Proof.Machine

theorem execOrigAdmit_keeps {o s : State} (h : Keeps o s) (n : Nat) :
    KeepsOut o (execOrigAdmit n s) := by
  unfold execOrigAdmit
  refine .next ?_
  try dsimp only
  repeat' first
    | with_reducible assumption
    | intro _
    | with_reducible apply State.admitSlice_keeps
    | simp only [Keeps.mk_iff]
    | refine Keeps.of_pair (by with_reducible assumption) ?_
    | dsimp only

theorem execPointerHandover_keeps {o s : State} (h : Keeps o s) (n : Nat) :
    KeepsOut o (execPointerHandover n s) := by
  unfold execPointerHandover
  refine .next ?_
  try dsimp only
  repeat' first
    | with_reducible assumption
    | intro _
    | with_reducible apply State.admitSlice_keeps
    | with_reducible apply State.handOver_keeps
    | simp only [Keeps.mk_iff]
    | refine Keeps.of_pair (by with_reducible assumption) ?_
    | dsimp only

theorem State.writtenThen_keeps {o s : State} (h : Keeps o s) (k : Copy) :
    Keeps o (State.writtenThen s k) := by
  unfold State.writtenThen
  try dsimp only
  repeat' first
    | with_reducible assumption
    | intro _
    | with_reducible apply State.written_keeps
    | with_reducible apply State.unpark_keeps
    | simp only [Keeps.mk_iff]
    | refine Keeps.of_pair (by with_reducible assumption) ?_
    | dsimp only

theorem execCopyCommit_keeps {o s : State} (h : Keeps o s) (n : Nat) (second : Bool) :
    KeepsOut o (execCopyCommit n second s) := by
  unfold execCopyCommit
  refine .next ?_
  try dsimp only
  repeat' first
    | with_reducible assumption
    | intro _
    | with_reducible apply Keeps.ite
    | with_reducible apply State.writtenThen_keeps
    | split
    | simp only [Keeps.mk_iff]
    | refine Keeps.of_pair (by with_reducible assumption) ?_
    | dsimp only

theorem execCacheRefill_keeps {o s : State} (h : Keeps o s) (n : Nat) (i : Nat) :
    KeepsOut o (execCacheRefill n i s) := by
  unfold execCacheRefill
  refine .next ?_
  try dsimp only
  repeat' first
    | with_reducible assumption
    | with_reducible apply State.refillArrives_keeps

theorem execResultReorderRelease_keeps {o s : State} (h : Keeps o s) (x : Nat) :
    KeepsOut o (execResultReorderRelease x s) := by
  unfold execResultReorderRelease
  refine .next ?_
  try dsimp only
  repeat' first
    | with_reducible assumption
    | intro _
    | with_reducible apply State.commitTo_keeps
    | split

theorem execAudit_keeps {o s : State} (h : Keeps o s) (n : Nat) :
    KeepsOut o (execAudit n s) := by
  unfold execAudit
  refine .next ?_
  try dsimp only
  repeat' first
    | with_reducible assumption
    | intro _
    | with_reducible apply Keeps.ite
    | with_reducible apply State.setSlice_keeps
    | split
    | simp only [Keeps.mk_iff]
    | refine Keeps.of_pair (by with_reducible assumption) ?_
    | dsimp only

theorem State.writeDeficit_keeps {o s : State} (h : Keeps o s) (n : Nat) (i : Nat) (d : Int) :
    Keeps o (State.writeDeficit s n i d) := by
  unfold State.writeDeficit
  try dsimp only
  repeat' first
    | with_reducible assumption
    | with_reducible apply Keeps.ite
    | with_reducible apply State.setFld_keeps
    | with_reducible apply State.bump_keeps
    | with_reducible apply State.report_keeps
    | split

theorem execAuditWrite_keeps {o s : State} (h : Keeps o s) (n : Nat) :
    KeepsOut o (execAuditWrite n s) := by
  unfold execAuditWrite
  refine .next ?_
  try dsimp only
  repeat' first
    | with_reducible assumption
    | intro _
    | with_reducible apply Keeps.ite
    | with_reducible apply State.writeDeficit_keeps
    | with_reducible apply State.setSlice_keeps
    | with_reducible apply Keeps.foldl
    | split
    | simp only [Keeps.mk_iff]

theorem State.reclaim_keeps {o s : State} (h : Keeps o s) (n : Nat) (i : Nat) :
    Keeps o (State.reclaim s n i) := by
  unfold State.reclaim
  try dsimp only
  repeat' first
    | with_reducible assumption
    | intro _
    | with_reducible apply Keeps.ite
    | with_reducible apply State.setFld_keeps
    | with_reducible apply State.buildPool_keeps
    | split

theorem execReclaim_keeps {o s : State} (h : Keeps o s) (n : Nat) (i : Nat) :
    KeepsOut o (execReclaim n i s) := by
  unfold execReclaim
  refine .next ?_
  try dsimp only
  repeat' first
    | with_reducible assumption
    | with_reducible apply State.reclaim_keeps

theorem State.raiseRate_keeps {o s : State} (h : Keeps o s) (c : Nat) :
    Keeps o (State.raiseRate s c) := by
  unfold State.raiseRate
  try dsimp only
  repeat' first
    | with_reducible assumption
    | with_reducible apply Keeps.ite
    | with_reducible apply State.setFld_keeps
    | split

theorem execRateRecovery_keeps {o s : State} (h : Keeps o s) :
    KeepsOut o (execRateRecovery s) := by
  unfold execRateRecovery
  refine .next ?_
  try dsimp only
  repeat' first
    | with_reducible assumption
    | intro _
    | with_reducible apply Keeps.ite
    | with_reducible apply State.raiseRate_keeps
    | with_reducible apply Keeps.foldl
    | with_reducible apply Keeps.foldl_pair
    | split
    | simp only [Keeps.mk_iff]
    | refine Keeps.of_pair (by with_reducible assumption) ?_
    | dsimp only

theorem State.clearFlowlets_keeps {o s : State} (h : Keeps o s) :
    Keeps o (State.clearFlowlets s) := by
  unfold State.clearFlowlets
  try dsimp only
  repeat' first
    | with_reducible assumption
    | intro _
    | simp only [Keeps.mk_iff]

theorem State.flushNow_keeps {o s : State} (h : Keeps o s) :
    Keeps o (State.flushNow s) := by
  unfold State.flushNow
  try dsimp only
  repeat' first
    | with_reducible assumption
    | intro _
    | with_reducible apply State.clearFlowlets_keeps
    | simp only [Keeps.mk_iff]
    | refine Keeps.of_pair (by with_reducible assumption) ?_
    | dsimp only

theorem State.writeMask_keeps {o s : State} (h : Keeps o s) (d : Nat) (v : Nat) (mask : Nat) :
    Keeps o (State.writeMask s d v mask) := by
  unfold State.writeMask
  try dsimp only
  repeat' first
    | with_reducible assumption
    | intro _
    | with_reducible apply Keeps.ite
    | with_reducible apply State.setFld_keeps
    | with_reducible apply State.flushNow_keeps
    | with_reducible apply Keeps.foldl
    | with_reducible apply Keeps.foldl_pair
    | split
    | simp only [Keeps.mk_iff]
    | refine Keeps.of_pair (by with_reducible assumption) ?_
    | dsimp only

theorem execNbrMaskWrite_keeps {o s : State} (h : Keeps o s) (d : Nat) (v : Nat) (mask : Nat) :
    KeepsOut o (execNbrMaskWrite d v mask s) := by
  unfold execNbrMaskWrite
  refine .next ?_
  try dsimp only
  repeat' first
    | with_reducible assumption
    | with_reducible apply State.writeMask_keeps

theorem State.flush_keeps {o s : State} (h : Keeps o s) (n : Nat) :
    Keeps o (State.flush s n) := by
  unfold State.flush
  try dsimp only
  repeat' first
    | with_reducible assumption
    | intro _
    | with_reducible apply Keeps.ite
    | with_reducible apply State.setFld_keeps
    | with_reducible apply State.flushNow_keeps
    | with_reducible apply Keeps.foldl
    | with_reducible apply Keeps.foldl_pair
    | split
    | simp only [Keeps.mk_iff]
    | refine Keeps.of_pair (by with_reducible assumption) ?_
    | dsimp only

theorem execFlush_keeps {o s : State} (h : Keeps o s) (n : Nat) :
    KeepsOut o (execFlush n s) := by
  unfold execFlush
  refine .next ?_
  try dsimp only
  repeat' first
    | with_reducible assumption
    | with_reducible apply State.flush_keeps

theorem execFlushDone_keeps {o s : State} (h : Keeps o s) :
    KeepsOut o (execFlushDone s) := by
  unfold execFlushDone
  refine .next ?_
  try dsimp only
  repeat' first
    | with_reducible assumption
    | intro _
    | with_reducible apply Keeps.ite
    | with_reducible apply State.setFld_keeps
    | with_reducible apply Keeps.foldl
    | with_reducible apply Keeps.foldl_pair
    | split
    | simp only [Keeps.mk_iff]
    | refine Keeps.of_pair (by with_reducible assumption) ?_
    | dsimp only

theorem execTagTimeout_keeps {o s : State} (h : Keeps o s) (x : Nat) (tag : Nat) :
    KeepsOut o (execTagTimeout x tag s) := by
  unfold execTagTimeout
  refine .next ?_
  try dsimp only
  repeat' first
    | with_reducible assumption
    | with_reducible apply Keeps.ite
    | with_reducible apply State.setPort_keeps
    | with_reducible apply State.setFld_keeps
    | split
    | simp only [Keeps.mk_iff]

end Sys2Proof.Machine
end

