-- ==== Sys2Proof/Laws/KeepsLoader.lean ====
section
/-! SUPPORT. Machine/Loader.lean keeps the queue and the canonical form of the stores. -/

namespace Sys2Proof.Machine

theorem State.loadRegs_keeps {o s : State} (h : Keeps o s) (old new : List (Nat × BitVec 64)) : Keeps o (s.loadRegs old new) := by
  unfold State.loadRegs
  refine Keeps.foldl h fun a e ha => ?_
  dsimp only
  split
  · refine Keeps.ite ha (Keeps.ite ?_ ?_)
    · exact Keeps.shadow (s := { a with regs := _ }) (Keeps.regs ha storeWf_writeKey) storeWf_writeKey
    · exact Keeps.regs ha storeWf_writeKey
  · exact ha

end Sys2Proof.Machine
end

