-- ==== Sys2Proof/Laws/KeepsHello.lean ====
section
/-! SUPPORT. Machine/Hello.lean keeps the queue and the canonical form of the stores. -/

namespace Sys2Proof.Machine

theorem State.setHello_keeps {o s : State} (h0 : Keeps o s) (x : Nat) (h : HelloX) :
    Keeps o (State.setHello s x h) := by
  unfold State.setHello
  try dsimp only
  repeat' first
    | with_reducible assumption
    | with_reducible apply State.setPort_keeps
    | simp only [Keeps.mk_iff]

theorem State.helloSent_keeps {o s : State} (h : Keeps o s) (n : Nat) (j : Nat) (x : Nat) (now : Nat) :
    Keeps o (State.helloSent s n j x now) := by
  unfold State.helloSent
  try dsimp only
  repeat' first
    | with_reducible assumption
    | with_reducible apply Keeps.ite
    | with_reducible apply State.setHello_keeps
    | split
    | simp only [Keeps.mk_iff]

theorem State.stamp_keeps {o s : State} (h : Keeps o s) (n : Nat) (j : Nat) (x : Nat) (f : Frame) :
    Keeps o (State.stamp s n j x f).1 := by
  unfold State.stamp
  try dsimp only
  repeat' first
    | with_reducible assumption
    | with_reducible apply Keeps.ite
    | with_reducible apply State.helloSent_keeps
    | with_reducible apply State.useFree_keeps
    | split
    | simp only [Keeps.mk_iff]
    | dsimp only
    | with_reducible apply Keeps.foldl_pair

end Sys2Proof.Machine
end

