-- ==== Sys2Proof/Laws/KeepsPcs.lean ====
section
/-! SUPPORT. Machine/Pcs.lean keeps the queue and the canonical form of the stores. -/

namespace Sys2Proof.Machine

theorem State.setPcsLane_keeps {o s : State} (h : Keeps o s) (g : Nat) (p : PcsLane) :
    Keeps o (State.setPcsLane s g p) := by
  unfold State.setPcsLane
  try dsimp only
  repeat' first
    | with_reducible assumption
    | simp only [Keeps.mk_iff]
    | refine Keeps.of_pair (by with_reducible assumption) ?_
    | dsimp only

theorem State.sendFrame_keeps {o s : State} (h : Keeps o s) (x : Nat) (b : Bytes) :
    Keeps o (State.sendFrame s x b) := by
  unfold State.sendFrame
  try dsimp only
  repeat' first
    | with_reducible assumption
    | intro _
    | with_reducible apply State.setPort_keeps
    | with_reducible apply State.emit_keeps
    | simp only [Keeps.mk_iff]
    | refine Keeps.of_pair (by with_reducible assumption) ?_
    | dsimp only

theorem State.sendSymbols_keeps {o s : State} (h : Keeps o s) (g : Nat) (std : Bool) (first : Bool) (syms : List Nat) :
    Keeps o (State.sendSymbols s g std first syms) := by
  unfold State.sendSymbols
  try dsimp only
  repeat' first
    | with_reducible assumption
    | intro _
    | with_reducible apply Keeps.ite
    | with_reducible apply State.emit_keeps
    | with_reducible apply State.codeword_keeps
    | with_reducible apply State.setPcsLane_keeps
    | split
    | simp only [Keeps.mk_iff]
    | refine Keeps.of_pair (by with_reducible assumption) ?_
    | dsimp only

theorem State.sendPayload_keeps {o s : State} (h : Keeps o s) (g : Nat) (std : Bool) (first : Bool) (header : Nat) (payload : List Bool) :
    Keeps o (State.sendPayload s g std first header payload) := by
  unfold State.sendPayload
  try dsimp only
  repeat' first
    | with_reducible assumption
    | intro _
    | with_reducible apply State.setPcsLane_keeps
    | with_reducible apply State.sendSymbols_keeps
    | simp only [Keeps.mk_iff]
    | refine Keeps.of_pair (by with_reducible assumption) ?_
    | dsimp only

theorem State.nextPayload_keeps {o s : State} (h : Keeps o s) (n : Nat) (j : Nat) (x : Nat) :
    Keeps o (State.nextPayload s n j x).1 := by
  unfold State.nextPayload
  try dsimp only
  repeat' first
    | with_reducible assumption
    | intro _
    | with_reducible apply Keeps.ite
    | with_reducible apply State.setPort_keeps
    | with_reducible apply State.drop_keeps
    | split
    | simp only [Keeps.mk_iff]
    | refine Keeps.of_pair (by with_reducible assumption) ?_
    | dsimp only

theorem State.sendLane_keeps {o s : State} (h : Keeps o s) (n : Nat) (j : Nat) (x : Nat) (i : Nat) (am : Bool) (first : Bool) :
    Keeps o (State.sendLane s n j x i am first) := by
  unfold State.sendLane
  try dsimp only
  repeat' first
    | with_reducible assumption
    | intro _
    | with_reducible apply Keeps.ite
    | with_reducible apply State.nextPayload_keeps
    | with_reducible apply State.sendPayload_keeps
    | split
    | simp only [Keeps.mk_iff]
    | refine Keeps.of_pair (by with_reducible assumption) ?_
    | dsimp only

theorem State.sendPeriod_keeps {o s : State} (h : Keeps o s) (x : Nat) (am : Bool) (first : Bool) :
    Keeps o (State.sendPeriod s x am first) := by
  unfold State.sendPeriod
  try dsimp only
  repeat' first
    | with_reducible assumption
    | intro _
    | with_reducible apply State.sendLane_keeps
    | with_reducible apply Keeps.foldl
    | with_reducible apply Keeps.foldl_pair
    | split
    | simp only [Keeps.mk_iff]
    | refine Keeps.of_pair (by with_reducible assumption) ?_
    | dsimp only

theorem State.sendDown_keeps {o s : State} (h : Keeps o s) (n : Nat) (j : Nat) :
    Keeps o (State.sendDown s n j) := by
  unfold State.sendDown
  try dsimp only
  repeat' first
    | with_reducible assumption
    | intro _
    | with_reducible apply Keeps.ite
    | with_reducible apply State.sendPayload_keeps
    | with_reducible apply Keeps.foldl
    | with_reducible apply Keeps.foldl_pair
    | split
    | simp only [Keeps.mk_iff]
    | refine Keeps.of_pair (by with_reducible assumption) ?_
    | dsimp only

theorem State.alignPort_keeps {o s : State} (h : Keeps o s) (n j x fuel : Nat) : Keeps o (s.alignPort n j x fuel) := by
  induction fuel generalizing s with
  | zero => exact h
  | succ k ih =>
    unfold State.alignPort
    dsimp only
    repeat' first
      | with_reducible assumption
      | intro _
      | with_reducible apply ih
      | with_reducible apply State.setPort_keeps
      | with_reducible apply State.setPcsLane_keeps
      | with_reducible apply Keeps.ite
      | with_reducible apply Keeps.foldl
      | split

theorem State.receivePayload_keeps {o s : State} (h : Keeps o s) (n : Nat) (j : Nat) (x : Nat) (l : Nat) (am : Bool) (payload : Bytes) (bad : Bool) :
    Keeps o (State.receivePayload s n j x l am payload bad) := by
  unfold State.receivePayload
  try dsimp only
  repeat' first
    | with_reducible assumption
    | intro _
    | with_reducible apply Keeps.ite
    | with_reducible apply State.setPcsLane_keeps
    | with_reducible apply State.alignPort_keeps
    | split
    | simp only [Keeps.mk_iff]
    | refine Keeps.of_pair (by with_reducible assumption) ?_
    | dsimp only

theorem State.loopCodeword_keeps {o s : State} (h : Keeps o s) (n : Nat) (j : Nat) (x : Nat) (l : Nat) (header : Nat) (am : Bool) (payload : Bytes) :
    Keeps o (State.loopCodeword s n j x l header am payload) := by
  unfold State.loopCodeword
  try dsimp only
  repeat' first
    | with_reducible assumption
    | intro _
    | with_reducible apply Keeps.ite
    | with_reducible apply State.setHello_keeps
    | with_reducible apply State.sendSymbols_keeps
    | split
    | simp only [Keeps.mk_iff]
    | refine Keeps.of_pair (by with_reducible assumption) ?_
    | dsimp only

end Sys2Proof.Machine
end

