-- ==== Sys2Proof/Laws/KeepsTransmit.lean ====
section
/-! SUPPORT. Machine/Transmit.lean keeps the queue and the canonical form of the stores. -/

namespace Sys2Proof.Machine

theorem State.setTokens_keeps {o s : State} (h : Keeps o s) (a : Nat) (t : Int) :
    Keeps o (State.setTokens s a t) := by
  unfold State.setTokens
  try dsimp only
  repeat' first
    | refine Keeps.regs ?_ storeWf_filter
    | refine Keeps.regs ?_ storeWf_writeKey
    | with_reducible assumption
    | simp only [Keeps.mk_iff]

theorem State.chargeShapers_keeps {o s : State} (h : Keeps o s) (n : Nat) (j : Nat) (p : Nat) (c : Nat) (bytes : Nat) :
    Keeps o (State.chargeShapers s n j p c bytes) := by
  unfold State.chargeShapers
  try dsimp only
  repeat' first
    | with_reducible assumption
    | intro _
    | with_reducible apply Keeps.ite
    | with_reducible apply State.setTokens_keeps
    | with_reducible apply Keeps.foldl
    | split

theorem State.wireBytes_keeps {o s : State} (h : Keeps o s) (n : Nat) (j : Nat) (x : Nat) (f : Frame) (lseq : Nat) :
    Keeps o (State.wireBytes s n j x f lseq).1 := by
  unfold State.wireBytes
  try dsimp only
  repeat' first
    | with_reducible assumption
    | with_reducible apply Keeps.ite
    | with_reducible apply State.setPort_keeps
    | split
    | simp only [Keeps.mk_iff]
    | dsimp only
    | with_reducible apply Keeps.foldl_pair

theorem State.sendSpdm_keeps {o s : State} (h : Keeps o s) (x : Nat) (q : Nat) (msg : Bytes) :
    Keeps o (State.sendSpdm s x q msg) := by
  unfold State.sendSpdm
  try dsimp only
  repeat' first
    | with_reducible assumption
    | intro _
    | with_reducible apply State.ask_keeps
    | simp only [Keeps.mk_iff]
    | refine Keeps.of_pair (by with_reducible assumption) ?_
    | dsimp only

theorem State.startRekey_keeps {o s : State} (h : Keeps o s) (x : Nat) (p : Nat) :
    Keeps o (State.startRekey s x p) := by
  unfold State.startRekey
  try dsimp only
  repeat' first
    | with_reducible assumption
    | with_reducible apply State.setFld_keeps
    | with_reducible apply State.sendSpdm_keeps

theorem State.keyUsed_keeps {o s : State} (h : Keeps o s) (n : Nat) (j : Nat) (x : Nat) (f : Frame) :
    Keeps o (State.keyUsed s n j x f) := by
  unfold State.keyUsed
  try dsimp only
  repeat' first
    | with_reducible assumption
    | with_reducible apply Keeps.ite
    | with_reducible apply State.startRekey_keeps
    | with_reducible apply State.setFld_keeps
    | with_reducible apply State.raiseLink_keeps
    | split

theorem State.startCopy_keeps {o s : State} (h : Keeps o s) (n : Nat) (j : Nat) (x : Nat) (k : Copy) (first : Bool) :
    Keeps o (State.startCopy s n j x k first) := by
  unfold State.startCopy
  try dsimp only
  repeat' first
    | with_reducible assumption
    | intro _
    | with_reducible apply Keeps.ite
    | with_reducible apply State.wireBytes_keeps
    | with_reducible apply State.setCopy_keeps
    | with_reducible apply State.sendFrame_keeps
    | with_reducible apply State.setPort_keeps
    | with_reducible apply State.keyUsed_keeps
    | with_reducible apply State.wrap_keeps
    | with_reducible apply State.showCredit_keeps
    | with_reducible apply State.setCtx_keeps
    | with_reducible apply State.chargeShapers_keeps
    | split
    | simp only [Keeps.mk_iff]
    | refine Keeps.of_pair (by with_reducible assumption) ?_
    | dsimp only

theorem State.dropExpired_keeps {o s : State} (h : Keeps o s) (n j x fuel : Nat) : Keeps o (s.dropExpired n j x fuel) := by
  induction fuel generalizing s with
  | zero => exact h
  | succ k ih =>
    unfold State.dropExpired
    split
    · exact h
    · exact ih (freeCopy_keeps (wrap_keeps (drop_keeps h ..) ..) _)

theorem State.hierarchical_keeps {o s : State} (h : Keeps o s) (n : Nat) (j : Nat) (x : Nat) :
    Keeps o (State.hierarchical s n j x) := by
  unfold State.hierarchical
  try dsimp only
  repeat' first
    | with_reducible assumption
    | intro _
    | with_reducible apply State.setPort_keeps
    | with_reducible apply State.startCopy_keeps
    | split
    | simp only [Keeps.mk_iff]

theorem State.wfq_keeps {o s : State} (h : Keeps o s) (n : Nat) (j : Nat) (x : Nat) :
    Keeps o (State.wfq s n j x) := by
  unfold State.wfq
  try dsimp only
  repeat' first
    | with_reducible assumption
    | intro _
    | with_reducible apply State.setPort_keeps
    | with_reducible apply State.startCopy_keeps
    | split
    | simp only [Keeps.mk_iff]

theorem State.endPause_keeps {o s : State} (h : Keeps o s) (x : Nat) :
    Keeps o (State.endPause s x) := by
  unfold State.endPause
  try dsimp only
  repeat' first
    | with_reducible assumption
    | intro _
    | with_reducible apply Keeps.ite
    | with_reducible apply State.setPort_keeps
    | with_reducible apply State.endWaiting_keeps
    | split
    | simp only [Keeps.mk_iff]
    | refine Keeps.of_pair (by with_reducible assumption) ?_
    | dsimp only

theorem State.endPauses_keeps {o s : State} (h : Keeps o s) :
    Keeps o (State.endPauses s) := by
  unfold State.endPauses
  try dsimp only
  repeat' first
    | with_reducible assumption
    | intro _
    | with_reducible apply State.endPause_keeps
    | with_reducible apply Keeps.foldl
    | with_reducible apply Keeps.foldl_pair
    | simp only [Keeps.mk_iff]
    | refine Keeps.of_pair (by with_reducible assumption) ?_
    | dsimp only

theorem State.pauseAt_keeps {o0 s : State} (h : Keeps o0 s) (n : Nat) (x : Nat) (o : OpenSlot) (c : Nat) :
    Keeps o0 (State.pauseAt s n x o c) := by
  unfold State.pauseAt
  try dsimp only
  repeat' first
    | with_reducible assumption
    | with_reducible apply State.setPort_keeps
    | with_reducible apply State.setFld_keeps
    | simp only [Keeps.mk_iff]

theorem State.runSlot_keeps {o s : State} (h : Keeps o s) (n : Nat) (j : Nat) (x : Nat) :
    Keeps o (State.runSlot s n j x) := by
  unfold State.runSlot
  try dsimp only
  repeat' first
    | with_reducible assumption
    | intro _
    | with_reducible apply Keeps.ite
    | with_reducible apply State.setPort_keeps
    | with_reducible apply State.pauseAt_keeps
    | with_reducible apply State.startCopy_keeps
    | split
    | simp only [Keeps.mk_iff]
    | refine Keeps.of_pair (by with_reducible assumption) ?_
    | dsimp only

theorem State.startControl_keeps {o s : State} (h : Keeps o s) (n : Nat) (j : Nat) (x : Nat) (f : Frame) :
    Keeps o (State.startControl s n j x f) := by
  unfold State.startControl
  try dsimp only
  repeat' first
    | with_reducible assumption
    | intro _
    | with_reducible apply State.stamp_keeps
    | with_reducible apply State.wireBytes_keeps
    | with_reducible apply State.setPort_keeps
    | with_reducible apply State.drop_keeps
    | with_reducible apply State.sendFrame_keeps
    | simp only [Keeps.mk_iff]
    | refine Keeps.of_pair (by with_reducible assumption) ?_
    | dsimp only

theorem State.stallTick_keeps {o s : State} (h : Keeps o s) (n : Nat) (j : Nat) (x : Nat) :
    Keeps o (State.stallTick s n j x) := by
  unfold State.stallTick
  try dsimp only
  repeat' first
    | with_reducible assumption
    | intro _
    | with_reducible apply Keeps.ite
    | with_reducible apply State.wrap_keeps
    | split
    | simp only [Keeps.mk_iff]
    | refine Keeps.of_pair (by with_reducible assumption) ?_
    | dsimp only

theorem State.txStart_keeps {o s : State} (h : Keeps o s) (x : Nat) :
    Keeps o (State.txStart s x) := by
  unfold State.txStart
  try dsimp only
  repeat' first
    | with_reducible assumption
    | intro _
    | with_reducible apply Keeps.ite
    | with_reducible apply State.setPort_keeps
    | with_reducible apply State.startControl_keeps
    | with_reducible apply State.stallTick_keeps
    | with_reducible apply State.dropExpired_keeps
    | with_reducible apply State.endPause_keeps
    | with_reducible apply State.startCopy_keeps
    | with_reducible apply State.runSlot_keeps
    | with_reducible apply State.wfq_keeps
    | with_reducible apply State.hierarchical_keeps
    | split
    | simp only [Keeps.mk_iff]
    | refine Keeps.of_pair (by with_reducible assumption) ?_
    | dsimp only

theorem State.txEnd_keeps {o s : State} (h : Keeps o s) (x : Nat) :
    Keeps o (State.txEnd s x) := by
  unfold State.txEnd
  try dsimp only
  repeat' first
    | with_reducible assumption
    | intro _
    | with_reducible apply Keeps.ite
    | with_reducible apply State.setPort_keeps
    | with_reducible apply State.setCopy_keeps
    | with_reducible apply State.wrap_keeps
    | with_reducible apply State.pauseAt_keeps
    | with_reducible apply State.endPause_keeps
    | split
    | simp only [Keeps.mk_iff]
    | refine Keeps.of_pair (by with_reducible assumption) ?_
    | dsimp only

theorem State.commitShaper_keeps {o s : State} (h : Keeps o s) (snap : List (Nat × BitVec 64)) (a : Nat) :
    Keeps o (State.commitShaper snap s a) := by
  unfold State.commitShaper
  try dsimp only
  repeat' first
    | with_reducible assumption
    | refine Keeps.regs ?_ storeWf_writeKey
    | intro _
    | with_reducible apply Keeps.ite
    | with_reducible apply State.setTokens_keeps
    | split
    | simp only [Keeps.mk_iff]
    | refine Keeps.of_pair (by with_reducible assumption) ?_
    | dsimp only

theorem State.shpCommit_keeps {o s : State} (h : Keeps o s) (n : Nat) :
    Keeps o (State.shpCommit s n) := by
  unfold State.shpCommit
  try dsimp only
  repeat' first
    | with_reducible assumption
    | intro _
    | with_reducible apply State.setSlice_keeps
    | simp only [Keeps.mk_iff]
    | refine Keeps.of_pair (by with_reducible assumption) ?_
    | dsimp only

theorem State.refillShaper_keeps {o s : State} (h : Keeps o s) (a : Nat) :
    Keeps o (State.refillShaper s a) := by
  unfold State.refillShaper
  try dsimp only
  repeat' first
    | with_reducible assumption
    | with_reducible apply Keeps.ite
    | with_reducible apply State.setTokens_keeps
    | split

theorem State.refillPolicer_keeps {o s : State} (h : Keeps o s) (n : Nat) (k : Nat) :
    Keeps o (State.refillPolicer s n k) := by
  unfold State.refillPolicer
  try dsimp only
  repeat' first
    | with_reducible assumption
    | with_reducible apply Keeps.ite
    | with_reducible apply State.setFld_keeps
    | split

theorem State.refillSlice_keeps {o s : State} (h : Keeps o s) (n : Nat) :
    Keeps o (State.refillSlice s n) := by
  unfold State.refillSlice
  try dsimp only
  repeat' first
    | with_reducible assumption
    | intro _
    | with_reducible apply Keeps.ite
    | with_reducible apply State.commitShaper_keeps
    | with_reducible apply State.setSlice_keeps
    | with_reducible apply State.refillPolicer_keeps
    | with_reducible apply State.refillShaper_keeps
    | with_reducible apply Keeps.foldl
    | with_reducible apply Keeps.foldl_pair
    | split
    | simp only [Keeps.mk_iff]
    | refine Keeps.of_pair (by with_reducible assumption) ?_
    | dsimp only

theorem State.fillSlice_keeps {o s : State} (h : Keeps o s) (n : Nat) :
    Keeps o (State.fillSlice s n) := by
  unfold State.fillSlice
  try dsimp only
  repeat' first
    | with_reducible assumption
    | intro _
    | with_reducible apply Keeps.ite
    | with_reducible apply State.setTokens_keeps
    | with_reducible apply State.setFld_keeps
    | with_reducible apply Keeps.foldl
    | split

theorem State.clearQueueCounters_keeps {o s : State} (h : Keeps o s) (n : Nat) :
    Keeps o (State.clearQueueCounters s n) := by
  unfold State.clearQueueCounters
  try dsimp only
  repeat' first
    | with_reducible assumption
    | refine Keeps.regs ?_ storeWf_filter
    | intro _
    | simp only [Keeps.mk_iff]
    | refine Keeps.of_pair (by with_reducible assumption) ?_
    | dsimp only

theorem State.meter_keeps {o s : State} (h : Keeps o s) (n : Nat) (j : Nat) (f : Frame) :
    Keeps o (State.meter s n j f).1 := by
  unfold State.meter
  try dsimp only
  repeat' first
    | with_reducible assumption
    | with_reducible apply Keeps.ite
    | with_reducible apply State.wrap_keeps
    | with_reducible apply State.setFld_keeps
    | split
    | dsimp only
    | with_reducible apply Keeps.foldl_pair

theorem State.sampleQueue_keeps {o s : State} (h : Keeps o s) (n : Nat) (j : Nat) (x : Nat) (p : Nat) (c : Nat) :
    Keeps o (State.sampleQueue s n j x p c) := by
  unfold State.sampleQueue
  try dsimp only
  repeat' first
    | with_reducible assumption
    | intro _
    | with_reducible apply State.setFld_keeps
    | split
    | simp only [Keeps.mk_iff]
    | refine Keeps.of_pair (by with_reducible assumption) ?_
    | dsimp only

theorem State.sampleAll_keeps {o s : State} (h : Keeps o s) :
    Keeps o (State.sampleAll s) := by
  unfold State.sampleAll
  try dsimp only
  repeat' first
    | with_reducible assumption
    | refine Keeps.regs ?_ storeWf_filter
    | intro _
    | with_reducible apply State.sampleQueue_keeps
    | with_reducible apply Keeps.foldl
    | with_reducible apply Keeps.foldl_pair
    | split
    | simp only [Keeps.mk_iff]
    | refine Keeps.of_pair (by with_reducible assumption) ?_
    | dsimp only

theorem State.clearMax_keeps {o s : State} (h : Keeps o s) (n : Nat) :
    Keeps o (State.clearMax s n) := by
  unfold State.clearMax
  try dsimp only
  repeat' first
    | refine Keeps.regs ?_ storeWf_filter
    | refine Keeps.regs ?_ storeWf_writeKey
    | with_reducible assumption
    | intro _
    | simp only [Keeps.mk_iff]

theorem State.slotStart_keeps {o s0 : State} (h : Keeps o s0) (x : Nat) (e : Nat) :
    Keeps o (State.slotStart s0 x e) := by
  unfold State.slotStart
  try dsimp only
  repeat' first
    | with_reducible assumption
    | intro _
    | with_reducible apply Keeps.ite
    | with_reducible apply State.dropExpired_keeps
    | with_reducible apply State.setPort_keeps
    | with_reducible apply State.pauseAt_keeps
    | with_reducible apply State.runSlot_keeps
    | split
    | simp only [Keeps.mk_iff]
    | refine Keeps.of_pair (by with_reducible assumption) ?_
    | dsimp only

theorem State.slotSpanEnd_keeps {o s : State} (h : Keeps o s) (n : Nat) :
    Keeps o (State.slotSpanEnd s n) := by
  unfold State.slotSpanEnd
  try dsimp only
  repeat' first
    | with_reducible assumption
    | intro _
    | with_reducible apply Keeps.ite
    | with_reducible apply State.drop_keeps
    | with_reducible apply State.setFld_keeps
    | with_reducible apply State.setSlice_keeps
    | split
    | simp only [Keeps.mk_iff]
    | refine Keeps.of_pair (by with_reducible assumption) ?_
    | dsimp only

theorem State.releasePause_keeps {o s : State} (h : Keeps o s) (n : Nat) :
    Keeps o (State.releasePause s n) := by
  unfold State.releasePause
  try dsimp only
  repeat' first
    | with_reducible assumption
    | intro _
    | with_reducible apply State.setPort_keeps
    | with_reducible apply State.setCtx_keeps
    | with_reducible apply State.setFld_keeps
    | with_reducible apply Keeps.foldl
    | with_reducible apply Keeps.foldl_pair
    | split
    | simp only [Keeps.mk_iff]
    | refine Keeps.of_pair (by with_reducible assumption) ?_
    | dsimp only

theorem State.slip_keeps {o s : State} (h : Keeps o s) (n : Nat) :
    Keeps o (State.slip s n) := by
  unfold State.slip
  try dsimp only
  repeat' first
    | with_reducible assumption
    | intro _
    | with_reducible apply Keeps.ite
    | with_reducible apply State.setSlice_keeps
    | with_reducible apply State.bump_keeps
    | with_reducible apply State.report_keeps
    | with_reducible apply State.setFld_keeps
    | with_reducible apply State.releasePause_keeps
    | with_reducible apply State.abortCtx_keeps
    | with_reducible apply Keeps.foldl
    | with_reducible apply Keeps.foldl_pair
    | split
    | simp only [Keeps.mk_iff]
    | refine Keeps.of_pair (by with_reducible assumption) ?_
    | dsimp only

end Sys2Proof.Machine
end

