-- ==== Sys2Proof/Laws/KeepsLinkKeys.lean ====
section
/-! SUPPORT. Machine/LinkKeys.lean keeps the queue and the canonical form of the stores. -/

namespace Sys2Proof.Machine

theorem State.setSessions_keeps {o s : State} (h : Keeps o s) (l : List SessionX) :
    Keeps o (State.setSessions s l) := by
  unfold State.setSessions
  try dsimp only
  repeat' first
    | with_reducible assumption
    | intro _
    | with_reducible apply State.setFld_keeps
    | with_reducible apply Keeps.foldl
    | simp only [Keeps.mk_iff]

theorem State.showKeyWait_keeps {o s : State} (h : Keeps o s) (n : Nat) (j : Nat) (x : Nat) :
    Keeps o (State.showKeyWait s n j x) := by
  unfold State.showKeyWait
  try dsimp only
  repeat' first
    | with_reducible assumption
    | intro _
    | with_reducible apply State.setFld_keeps
    | split

theorem State.showEpochs_keeps {o s : State} (h : Keeps o s) (x : Nat) (p : Nat) :
    Keeps o (State.showEpochs s x p) := by
  unfold State.showEpochs
  try dsimp only
  repeat' first
    | with_reducible assumption
    | intro _
    | with_reducible apply State.setFld_keeps
    | with_reducible apply Keeps.foldl

theorem State.installEpoch_keeps {o s : State} (h : Keeps o s) (x : Nat) (p : Nat) (gen : Nat) :
    Keeps o (State.installEpoch s x p gen) := by
  unfold State.installEpoch
  try dsimp only
  repeat' first
    | with_reducible assumption
    | with_reducible apply Keeps.ite
    | with_reducible apply State.setPort_keeps
    | with_reducible apply State.showEpochs_keeps
    | split
    | simp only [Keeps.mk_iff]

theorem State.useEpoch_keeps {o s : State} (h : Keeps o s) (x : Nat) (p : Nat) (e : Nat) :
    Keeps o (State.useEpoch s x p e) := by
  unfold State.useEpoch
  try dsimp only
  repeat' first
    | with_reducible assumption
    | intro _
    | with_reducible apply Keeps.ite
    | with_reducible apply State.setPort_keeps
    | with_reducible apply State.showEpochs_keeps
    | with_reducible apply Keeps.foldl
    | split
    | simp only [Keeps.mk_iff]

theorem State.rekeyAcked_keeps {o s : State} (h : Keeps o s) (n : Nat) (j : Nat) (x : Nat) (p : Nat) (gen : Nat) :
    Keeps o (State.rekeyAcked s n j x p gen) := by
  unfold State.rekeyAcked
  try dsimp only
  repeat' first
    | with_reducible assumption
    | with_reducible apply Keeps.ite
    | with_reducible apply State.setPort_keeps
    | with_reducible apply State.setFld_keeps
    | with_reducible apply State.showKeyWait_keeps
    | split
    | simp only [Keeps.mk_iff]

theorem State.firstKeys_keeps {o s : State} (h : Keeps o s) (x : Nat) :
    Keeps o (State.firstKeys s x) := by
  unfold State.firstKeys
  try dsimp only
  repeat' first
    | with_reducible assumption
    | intro _
    | with_reducible apply Keeps.ite
    | with_reducible apply State.startRekey_keeps
    | with_reducible apply Keeps.foldl
    | split

theorem State.sessionUp_keeps {o s : State} (h : Keeps o s) (x : Nat) (ems : Bytes) (requester : Bool) :
    Keeps o (State.sessionUp s x ems requester) := by
  unfold State.sessionUp
  try dsimp only
  repeat' first
    | with_reducible assumption
    | with_reducible apply State.setPort_keeps
    | with_reducible apply State.firstKeys_keeps
    | simp only [Keeps.mk_iff]

theorem State.sessionFailed_keeps {o s : State} (h : Keeps o s) (x : Nat) :
    Keeps o (State.sessionFailed s x) := by
  unfold State.sessionFailed
  try dsimp only
  repeat' first
    | with_reducible assumption
    | with_reducible apply State.raiseLink_keeps

theorem State.linkMove_keeps {o s : State} (h : Keeps o s) (x : Nat) (response : Bytes) :
    Keeps o (State.linkMove s x response) := by
  unfold State.linkMove
  try dsimp only
  repeat' first
    | with_reducible assumption
    | with_reducible apply Keeps.ite
    | with_reducible apply State.spdm_keeps
    | with_reducible apply State.sendSpdm_keeps
    | with_reducible apply State.sessionUp_keeps
    | with_reducible apply State.sessionFailed_keeps
    | split
    | simp only [Keeps.mk_iff]
    | refine Keeps.of_pair (by with_reducible assumption) ?_

theorem State.startSession_keeps {o s : State} (h : Keeps o s) (n : Nat) (j : Nat) (x : Nat) :
    Keeps o (State.startSession s n j x) := by
  unfold State.startSession
  try dsimp only
  repeat' first
    | with_reducible assumption
    | with_reducible apply Keeps.ite
    | with_reducible apply State.linkMove_keeps
    | split

end Sys2Proof.Machine
end

