-- ==== Sys2Proof/Laws/KeepsLinkOps.lean ====
section
/-! SUPPORT. Machine/LinkOps.lean keeps the queue and the canonical form of the stores. -/

namespace Sys2Proof.Machine

theorem State.ackTo_keeps {o s : State} (h : Keeps o s) (x : Nat) (a : Nat) :
    Keeps o (State.ackTo s x a) := by
  unfold State.ackTo
  try dsimp only
  repeat' first
    | with_reducible assumption
    | with_reducible apply Keeps.ite
    | with_reducible apply State.freeWhere_keeps
    | with_reducible apply State.setPort_keeps
    | split
    | simp only [Keeps.mk_iff]

theorem State.retransmit_keeps {o s : State} (h : Keeps o s) (x : Nat) :
    Keeps o (State.retransmit s x) := by
  unfold State.retransmit
  try dsimp only
  repeat' first
    | with_reducible assumption
    | with_reducible apply State.setPort_keeps
    | simp only [Keeps.mk_iff]

theorem State.nackTo_keeps {o s : State} (h : Keeps o s) (x : Nat) (a : Nat) :
    Keeps o (State.nackTo s x a) := by
  unfold State.nackTo
  try dsimp only
  repeat' first
    | with_reducible assumption
    | with_reducible apply Keeps.ite
    | with_reducible apply State.ackTo_keeps
    | with_reducible apply State.setPort_keeps
    | with_reducible apply State.retransmit_keeps
    | split
    | simp only [Keeps.mk_iff]

theorem State.startEpisode_keeps {o s : State} (h : Keeps o s) (n : Nat) (j : Nat) (x : Nat) (cause : Nat) :
    Keeps o (State.startEpisode s n j x cause) := by
  unfold State.startEpisode
  try dsimp only
  repeat' first
    | with_reducible assumption
    | with_reducible apply Keeps.ite
    | with_reducible apply State.setFld_keeps
    | with_reducible apply State.wrap_keeps
    | with_reducible apply State.bump_keeps
    | with_reducible apply State.setPort_keeps
    | with_reducible apply State.sendControl_keeps
    | split
    | simp only [Keeps.mk_iff]

theorem State.endEpisode_keeps {o s : State} (h : Keeps o s) (n : Nat) (j : Nat) (x : Nat) :
    Keeps o (State.endEpisode s n j x) := by
  unfold State.endEpisode
  try dsimp only
  repeat' first
    | with_reducible assumption
    | with_reducible apply Keeps.ite
    | with_reducible apply State.setFld_keeps
    | split

theorem State.grantCredits_keeps {o s : State} (h : Keeps o s) (x : Nat) :
    Keeps o (State.grantCredits s x) := by
  unfold State.grantCredits
  try dsimp only
  repeat' first
    | with_reducible assumption
    | intro _
    | with_reducible apply State.showCredit_keeps
    | with_reducible apply State.setPort_keeps
    | with_reducible apply Keeps.foldl
    | simp only [Keeps.mk_iff]

theorem State.takeCredit_keeps {o s : State} (h : Keeps o s) (x : Nat) (e : Nat × Nat) :
    Keeps o (State.takeCredit s x e) := by
  unfold State.takeCredit
  try dsimp only
  repeat' first
    | with_reducible assumption
    | with_reducible apply Keeps.ite
    | with_reducible apply State.setPort_keeps
    | with_reducible apply State.showCredit_keeps
    | split
    | simp only [Keeps.mk_iff]

theorem State.takeCredits_keeps {o s : State} (h : Keeps o s) (x : Nat) (p : Bytes) :
    Keeps o (State.takeCredits s x p) := by
  unfold State.takeCredits
  try dsimp only
  repeat' first
    | with_reducible assumption
    | intro _
    | with_reducible apply State.setPort_keeps
    | simp only [Keeps.mk_iff]
    | refine Keeps.of_pair (by with_reducible assumption) ?_
    | dsimp only

theorem State.applyCredits_keeps {o s : State} (h : Keeps o s) (x : Nat) :
    Keeps o (State.applyCredits s x) := by
  unfold State.applyCredits
  try dsimp only
  repeat' first
    | with_reducible assumption
    | intro _
    | with_reducible apply State.takeCredit_keeps
    | with_reducible apply State.setPort_keeps
    | with_reducible apply Keeps.foldl
    | with_reducible apply Keeps.foldl_pair
    | simp only [Keeps.mk_iff]
    | refine Keeps.of_pair (by with_reducible assumption) ?_
    | dsimp only

theorem State.sendCredits_keeps {o s : State} (h : Keeps o s) (x : Nat) (all : Bool) :
    Keeps o (State.sendCredits s x all) := by
  unfold State.sendCredits
  try dsimp only
  repeat' first
    | with_reducible assumption
    | intro _
    | with_reducible apply Keeps.ite
    | with_reducible apply State.sendControl_keeps
    | with_reducible apply State.setPort_keeps
    | with_reducible apply Keeps.foldl
    | split
    | simp only [Keeps.mk_iff]

theorem State.endSession_keeps {o s : State} (h : Keeps o s) (n : Nat) (j : Nat) (x : Nat) :
    Keeps o (State.endSession s n j x) := by
  unfold State.endSession
  try dsimp only
  repeat' first
    | with_reducible assumption
    | intro _
    | with_reducible apply Keeps.ite
    | with_reducible apply State.setPort_keeps
    | with_reducible apply State.setFld_keeps
    | with_reducible apply State.wr_keeps
    | with_reducible apply State.setSessions_keeps
    | with_reducible apply Keeps.foldl
    | split
    | simp only [Keeps.mk_iff]

theorem State.dropPort_keeps {o s : State} (h : Keeps o s) (n : Nat) (j : Nat) (x : Nat) :
    Keeps o (State.dropPort s n j x) := by
  unfold State.dropPort
  try dsimp only
  repeat' first
    | with_reducible assumption
    | intro _
    | with_reducible apply Keeps.ite
    | with_reducible apply State.wrap_keeps
    | with_reducible apply State.freeWhere_keeps
    | with_reducible apply State.setPort_keeps
    | with_reducible apply State.showCredit_keeps
    | with_reducible apply State.setFld_keeps
    | with_reducible apply Keeps.foldl
    | with_reducible apply Keeps.foldl_pair
    | split
    | simp only [Keeps.mk_iff]
    | refine Keeps.of_pair (by with_reducible assumption) ?_
    | dsimp only

theorem State.parentLost_keeps {o s : State} (h : Keeps o s) :
    Keeps o (State.parentLost s) := by
  unfold State.parentLost
  try dsimp only
  repeat' first
    | with_reducible assumption
    | with_reducible apply Keeps.ite
    | with_reducible apply State.setFld_keeps
    | with_reducible apply State.report_keeps
    | split
    | simp only [Keeps.mk_iff]

theorem State.showParent_keeps {o s : State} (h : Keeps o s) (old : State) : Keeps o (s.showParent old) := by
  unfold State.showParent
  dsimp only
  repeat' first
    | with_reducible assumption
    | with_reducible apply Keeps.ite
    | with_reducible apply State.setFld_keeps
    | simp only [Keeps.mk_iff]

theorem State.enterState_keeps {o s : State} (h : Keeps o s) (n : Nat) (j : Nat) (x : Nat) (st : Nat) :
    Keeps o (State.enterState s n j x st) := by
  unfold State.enterState
  try dsimp only
  repeat' first
    | with_reducible assumption
    | intro _
    | with_reducible apply Keeps.ite
    | with_reducible apply State.setFld_keeps
    | with_reducible apply State.setHello_keeps
    | with_reducible apply State.setPort_keeps
    | split
    | simp only [Keeps.mk_iff]
    | refine Keeps.of_pair (by with_reducible assumption) ?_
    | dsimp only

theorem State.huntLanes_keeps {o s : State} (h : Keeps o s) (n : Nat) (j : Nat) :
    Keeps o (State.huntLanes s n j) := by
  unfold State.huntLanes
  try dsimp only
  repeat' first
    | with_reducible assumption
    | intro _
    | with_reducible apply Keeps.ite
    | with_reducible apply State.bump_keeps
    | with_reducible apply State.setFld_keeps
    | with_reducible apply State.setRxLane_keeps
    | with_reducible apply Keeps.foldl
    | split

theorem State.enterAlign_keeps {o s : State} (h : Keeps o s) (n : Nat) (j : Nat) (x : Nat) :
    Keeps o (State.enterAlign s n j x) := by
  unfold State.enterAlign
  try dsimp only
  repeat' first
    | with_reducible assumption
    | with_reducible apply State.enterState_keeps
    | with_reducible apply State.huntLanes_keeps
    | with_reducible apply State.setFld_keeps
    | with_reducible apply State.setHello_keeps
    | simp only [Keeps.mk_iff]

theorem State.enterWait_keeps {o s : State} (h : Keeps o s) (n : Nat) (j : Nat) (x : Nat) :
    Keeps o (State.enterWait s n j x) := by
  unfold State.enterWait
  try dsimp only
  repeat' first
    | with_reducible assumption
    | with_reducible apply Keeps.ite
    | with_reducible apply State.enterState_keeps
    | with_reducible apply State.enterAlign_keeps
    | split

theorem State.linkDown_keeps {o s : State} (h : Keeps o s) (n : Nat) (j : Nat) (x : Nat) :
    Keeps o (State.linkDown s n j x) := by
  unfold State.linkDown
  try dsimp only
  repeat' first
    | with_reducible assumption
    | intro _
    | with_reducible apply Keeps.ite
    | with_reducible apply State.dropPort_keeps
    | with_reducible apply State.endSession_keeps
    | with_reducible apply State.raiseLink_keeps
    | with_reducible apply State.parentLost_keeps
    | split
    | simp only [Keeps.mk_iff]
    | refine Keeps.of_pair (by with_reducible assumption) ?_
    | dsimp only

theorem State.portDown_keeps {o s : State} (h : Keeps o s) (n : Nat) (j : Nat) (x : Nat) (st : Nat) :
    Keeps o (State.portDown s n j x st) := by
  unfold State.portDown
  try dsimp only
  repeat' first
    | with_reducible assumption
    | intro _
    | with_reducible apply Keeps.ite
    | with_reducible apply State.endSession_keeps
    | with_reducible apply State.enterState_keeps
    | with_reducible apply State.setFld_keeps
    | with_reducible apply State.bump_keeps
    | with_reducible apply State.linkDown_keeps
    | split
    | simp only [Keeps.mk_iff]
    | refine Keeps.of_pair (by with_reducible assumption) ?_
    | dsimp only

theorem State.enablePort_keeps {o s : State} (h : Keeps o s) (n : Nat) (j : Nat) (x : Nat) :
    Keeps o (State.enablePort s n j x) := by
  unfold State.enablePort
  try dsimp only
  repeat' first
    | with_reducible assumption
    | intro _
    | with_reducible apply Keeps.ite
    | with_reducible apply State.portDown_keeps
    | with_reducible apply State.enterWait_keeps
    | split
    | simp only [Keeps.mk_iff]
    | refine Keeps.of_pair (by with_reducible assumption) ?_
    | dsimp only

theorem State.takeLanes_keeps {o s : State} (h : Keeps o s) (n : Nat) (j : Nat) (x : Nat) :
    Keeps o (State.takeLanes s n j x) := by
  unfold State.takeLanes
  try dsimp only
  repeat' first
    | with_reducible assumption
    | intro _
    | with_reducible apply State.setFld_keeps
    | with_reducible apply State.setPort_keeps
    | simp only [Keeps.mk_iff]
    | refine Keeps.of_pair (by with_reducible assumption) ?_
    | dsimp only

theorem State.enterUp_keeps {o s : State} (h : Keeps o s) (n : Nat) (j : Nat) (x : Nat) :
    Keeps o (State.enterUp s n j x) := by
  unfold State.enterUp
  try dsimp only
  repeat' first
    | with_reducible assumption
    | with_reducible apply State.enterState_keeps
    | with_reducible apply State.setFld_keeps
    | with_reducible apply State.grantCredits_keeps
    | with_reducible apply State.showKeyWait_keeps
    | with_reducible apply State.raiseLink_keeps
    | with_reducible apply State.startSession_keeps

theorem State.endRetrain_keeps {o s : State} (h : Keeps o s) (n : Nat) (j : Nat) (x : Nat) :
    Keeps o (State.endRetrain s n j x) := by
  unfold State.endRetrain
  try dsimp only
  repeat' first
    | with_reducible assumption
    | intro _
    | with_reducible apply State.takeLanes_keeps
    | with_reducible apply State.enterState_keeps
    | with_reducible apply State.setFld_keeps
    | with_reducible apply State.retransmit_keeps
    | simp only [Keeps.mk_iff]
    | refine Keeps.of_pair (by with_reducible assumption) ?_
    | dsimp only

theorem State.tryUp_keeps {o s : State} (h : Keeps o s) (n : Nat) (j : Nat) (x : Nat) :
    Keeps o (State.tryUp s n j x) := by
  unfold State.tryUp
  try dsimp only
  repeat' first
    | with_reducible assumption
    | intro _
    | with_reducible apply Keeps.ite
    | with_reducible apply State.enterUp_keeps
    | with_reducible apply State.endRetrain_keeps
    | split
    | simp only [Keeps.mk_iff]
    | refine Keeps.of_pair (by with_reducible assumption) ?_
    | dsimp only

theorem State.startRetrain_keeps {o s : State} (h : Keeps o s) (n : Nat) (j : Nat) (x : Nat) :
    Keeps o (State.startRetrain s n j x) := by
  unfold State.startRetrain
  try dsimp only
  repeat' first
    | with_reducible assumption
    | with_reducible apply Keeps.ite
    | with_reducible apply State.enterState_keeps
    | with_reducible apply State.huntLanes_keeps
    | with_reducible apply State.setFld_keeps
    | split

theorem State.quarantine_keeps {o s : State} (h : Keeps o s) (n : Nat) (j : Nat) (x : Nat) (rsn : Nat) :
    Keeps o (State.quarantine s n j x rsn) := by
  unfold State.quarantine
  try dsimp only
  repeat' first
    | with_reducible assumption
    | with_reducible apply State.portDown_keeps
    | with_reducible apply State.setFld_keeps
    | with_reducible apply State.raiseLink_keeps

theorem State.propose_keeps {o s : State} (h : Keeps o s) (n : Nat) (j : Nat) (x : Nat) :
    Keeps o (State.propose s n j x) := by
  unfold State.propose
  try dsimp only
  repeat' first
    | with_reducible assumption
    | with_reducible apply Keeps.ite
    | with_reducible apply State.setHello_keeps
    | split
    | simp only [Keeps.mk_iff]

theorem State.narrow_keeps {o s : State} (h : Keeps o s) (n : Nat) (j : Nat) (x : Nat) (mask : Nat) :
    Keeps o (State.narrow s n j x mask) := by
  unfold State.narrow
  try dsimp only
  repeat' first
    | with_reducible assumption
    | with_reducible apply Keeps.ite
    | with_reducible apply State.setFld_keeps
    | with_reducible apply State.raiseLink_keeps
    | split

theorem State.amSent_keeps {o s : State} (h : Keeps o s) (n : Nat) (j : Nat) (x : Nat) :
    Keeps o (State.amSent s n j x) := by
  unfold State.amSent
  try dsimp only
  repeat' first
    | with_reducible assumption
    | with_reducible apply Keeps.ite
    | with_reducible apply State.setHello_keeps
    | with_reducible apply State.narrow_keeps
    | with_reducible apply State.setFld_keeps
    | with_reducible apply State.tryUp_keeps
    | split
    | simp only [Keeps.mk_iff]

theorem State.amSeen_keeps {o s : State} (h : Keeps o s) (n : Nat) (j : Nat) (x : Nat) :
    Keeps o (State.amSeen s n j x) := by
  unfold State.amSeen
  try dsimp only
  repeat' first
    | with_reducible assumption
    | intro _
    | with_reducible apply Keeps.ite
    | with_reducible apply State.setHello_keeps
    | with_reducible apply State.setPort_keeps
    | with_reducible apply State.tryUp_keeps
    | split
    | simp only [Keeps.mk_iff]
    | refine Keeps.of_pair (by with_reducible assumption) ?_
    | dsimp only

theorem State.lanesChanged_keeps {o s : State} (h : Keeps o s) (n : Nat) (j : Nat) (x : Nat) :
    Keeps o (State.lanesChanged s n j x) := by
  unfold State.lanesChanged
  try dsimp only
  repeat' first
    | with_reducible assumption
    | intro _
    | with_reducible apply Keeps.ite
    | with_reducible apply State.enterAlign_keeps
    | with_reducible apply State.takeLanes_keeps
    | with_reducible apply State.enterState_keeps
    | with_reducible apply State.portDown_keeps
    | with_reducible apply State.propose_keeps
    | with_reducible apply State.tryUp_keeps
    | split
    | simp only [Keeps.mk_iff]
    | refine Keeps.of_pair (by with_reducible assumption) ?_
    | dsimp only

theorem State.onPort_keeps {o s : State} (h : Keeps o s) (x : Nat) (f : Nat → Nat → State) (hf : ∀ n j, Keeps o (f n j)) :
    Keeps o (s.onPort x f) := by
  unfold State.onPort
  split
  · exact hf ..
  · exact h

end Sys2Proof.Machine
end

