-- ==== Sys2Proof/Laws/KeepsCmd.lean ====
section
/-! SUPPORT. Machine/Cmd.lean keeps the queue and the canonical form of the stores. -/

namespace Sys2Proof.Machine

theorem State.setQueue_keeps {o s : State} (h : Keeps o s) (q : Nat) (x : QueueX) :
    Keeps o (State.setQueue s q x) := by
  unfold State.setQueue
  try dsimp only
  repeat' first
    | with_reducible assumption
    | simp only [Keeps.mk_iff]

theorem State.deliverHost_keeps {o s : State} (h : Keeps o s) (q : Nat) (gen : Nat) (b : Bytes) :
    Keeps o (State.deliverHost s q gen b) := by
  unfold State.deliverHost
  try dsimp only
  repeat' first
    | with_reducible assumption
    | with_reducible apply Keeps.ite
    | with_reducible apply State.bump_keeps
    | with_reducible apply State.setQueue_keeps
    | with_reducible apply State.setFld_keeps
    | with_reducible apply State.emit_keeps
    | with_reducible apply State.drop_keeps
    | split
    | simp only [Keeps.mk_iff]

theorem State.deliverFrame_keeps {o s : State} (h : Keeps o s) (x : Nat) (src : Nat) (part : Nat) (b : Bytes) :
    Keeps o (State.deliverFrame s x src part b) := by
  unfold State.deliverFrame
  try dsimp only
  repeat' first
    | with_reducible assumption
    | intro _
    | with_reducible apply Keeps.ite
    | with_reducible apply State.originate_keeps
    | split
    | simp only [Keeps.mk_iff]
    | refine Keeps.of_pair (by with_reducible assumption) ?_
    | dsimp only

theorem State.deliver_keeps {o s : State} (h : Keeps o s) (c : TakenX) (b : Bytes) :
    Keeps o (State.deliver s c b) := by
  unfold State.deliver
  try dsimp only
  repeat' first
    | with_reducible assumption
    | with_reducible apply State.deliverHost_keeps
    | with_reducible apply State.deliverFrame_keeps
    | split

theorem State.respond_keeps {o s : State} (h : Keeps o s) (c : TakenX) (status : Nat) (arg : Nat) (payload : Bytes) :
    Keeps o (State.respond s c status arg payload) := by
  unfold State.respond
  try dsimp only
  repeat' first
    | with_reducible assumption
    | with_reducible apply Keeps.ite
    | with_reducible apply State.report_keeps
    | with_reducible apply State.deliver_keeps
    | split

theorem State.noteSeq_keeps {o s : State} (h : Keeps o s) (c : TakenX) :
    Keeps o (State.noteSeq s c) := by
  unfold State.noteSeq
  try dsimp only
  repeat' first
    | with_reducible assumption
    | intro _
    | with_reducible apply Keeps.ite
    | split
    | simp only [Keeps.mk_iff]

theorem State.takeCommand_keeps {o s : State} (h : Keeps o s) (path : CmdPath) (b : Bytes) :
    Keeps o (State.takeCommand s path b) := by
  unfold State.takeCommand
  try dsimp only
  repeat' first
    | with_reducible assumption
    | with_reducible apply Keeps.ite
    | with_reducible apply State.respond_keeps
    | with_reducible apply State.noteSeq_keeps
    | split
    | simp only [Keeps.mk_iff]

theorem State.takeHost_keeps {o s : State} (h : Keeps o s) (q : Nat) :
    Keeps o (State.takeHost s q) := by
  unfold State.takeHost
  try dsimp only
  repeat' first
    | with_reducible assumption
    | with_reducible apply Keeps.ite
    | with_reducible apply State.setQueue_keeps
    | with_reducible apply State.drop_keeps
    | with_reducible apply State.setFld_keeps
    | with_reducible apply State.wrap_keeps
    | with_reducible apply State.takeCommand_keeps
    | with_reducible apply State.respond_keeps
    | split
    | simp only [Keeps.mk_iff]

theorem State.takeInband_keeps {o s : State} (h : Keeps o s) (i : InbandX) (rest : List InbandX) :
    Keeps o (State.takeInband s i rest) := by
  unfold State.takeInband
  try dsimp only
  repeat' first
    | with_reducible assumption
    | intro _
    | with_reducible apply Keeps.ite
    | with_reducible apply State.freeCopy_keeps
    | with_reducible apply State.takeCommand_keeps
    | with_reducible apply State.respond_keeps
    | split
    | simp only [Keeps.mk_iff]
    | refine Keeps.of_pair (by with_reducible assumption) ?_
    | dsimp only

theorem State.takeNext_keeps {o s : State} (h : Keeps o s) :
    Keeps o (State.takeNext s) := by
  unfold State.takeNext
  try dsimp only
  repeat' first
    | with_reducible assumption
    | intro _
    | with_reducible apply Keeps.ite
    | with_reducible apply State.tick_keeps
    | with_reducible apply State.takeHost_keeps
    | with_reducible apply State.takeInband_keeps
    | split
    | simp only [Keeps.mk_iff]
    | refine Keeps.of_pair (by with_reducible assumption) ?_
    | dsimp only

theorem State.run_keeps {o s : State} (h : Keeps o s) (op : Nat) (f : State → TakenX → State)
    (hf : ∀ a c, Keeps o a → Keeps o (f a c)) : Keeps o (s.run op f) := by
  unfold State.run
  split
  · exact Keeps.ite (hf _ _ (Keeps.mk_iff.2 h)) h
  · exact h

end Sys2Proof.Machine
end

