-- ==== Sys2Proof/Laws/KeepsContexts.lean ====
section
/-! SUPPORT. Machine/Contexts.lean keeps the queue and the canonical form of the stores. -/

namespace Sys2Proof.Machine

theorem State.cmdIgnored_keeps {o s : State} (h : Keeps o s) (c : Nat) :
    Keeps o (State.cmdIgnored s c) := by
  unfold State.cmdIgnored
  try dsimp only
  repeat' first
    | with_reducible assumption
    | with_reducible apply State.setFld_keeps

theorem State.arm_keeps {o s : State} (h : Keeps o s) (c : Nat) (launches : Nat) :
    Keeps o (State.arm s c launches) := by
  unfold State.arm
  try dsimp only
  repeat' first
    | with_reducible assumption
    | intro _
    | with_reducible apply State.setFld_keeps
    | with_reducible apply State.setCtx_keeps
    | with_reducible apply State.showStall_keeps
    | simp only [Keeps.mk_iff]
    | refine Keeps.of_pair (by with_reducible assumption) ?_
    | dsimp only

theorem State.bindCtx_keeps {o s : State} (h : Keeps o s) (c : Nat) :
    Keeps o (State.bindCtx s c) := by
  unfold State.bindCtx
  try dsimp only
  repeat' first
    | with_reducible assumption
    | intro _
    | with_reducible apply Keeps.ite
    | with_reducible apply State.setFld_keeps
    | with_reducible apply State.commitShadow_keeps
    | with_reducible apply State.wr_keeps
    | with_reducible apply State.setCtx_keeps
    | split
    | simp only [Keeps.mk_iff]
    | refine Keeps.of_pair (by with_reducible assumption) ?_
    | dsimp only

theorem State.unbindCtx_keeps {o s : State} (h : Keeps o s) (c : Nat) :
    Keeps o (State.unbindCtx s c) := by
  unfold State.unbindCtx
  try dsimp only
  repeat' first
    | with_reducible assumption
    | intro _
    | with_reducible apply Keeps.ite
    | with_reducible apply State.setFld_keeps
    | with_reducible apply State.setCtx_keeps
    | with_reducible apply State.showStall_keeps
    | split
    | simp only [Keeps.mk_iff]
    | refine Keeps.of_pair (by with_reducible assumption) ?_
    | dsimp only

theorem State.freeUnbound_keeps {o s : State} (h : Keeps o s) :
    Keeps o (State.freeUnbound s) := by
  unfold State.freeUnbound
  try dsimp only
  repeat' first
    | with_reducible assumption
    | intro _
    | with_reducible apply State.freeWhere_keeps
    | with_reducible apply State.abortCores_keeps
    | with_reducible apply Keeps.foldl
    | with_reducible apply Keeps.foldl_pair
    | simp only [Keeps.mk_iff]
    | refine Keeps.of_pair (by with_reducible assumption) ?_
    | dsimp only

theorem State.closeTick_keeps {o s : State} (h : Keeps o s) :
    Keeps o (State.closeTick s) := by
  unfold State.closeTick
  try dsimp only
  repeat' first
    | with_reducible assumption
    | intro _
    | with_reducible apply State.admitAll_keeps
    | with_reducible apply State.decideAborts_keeps
    | with_reducible apply State.freeUnbound_keeps
    | simp only [Keeps.mk_iff]
    | refine Keeps.of_pair (by with_reducible assumption) ?_
    | dsimp only

theorem State.applyCtx_keeps {o s : State} (h : Keeps o s) (c : Nat) (w : CtxBits) :
    Keeps o (State.applyCtx s c w) := by
  unfold State.applyCtx
  try dsimp only
  repeat' first
    | with_reducible assumption
    | intro _
    | with_reducible apply Keeps.ite
    | with_reducible apply State.arm_keeps
    | with_reducible apply State.cmdIgnored_keeps
    | with_reducible apply State.bindCtx_keeps
    | with_reducible apply State.unbindCtx_keeps
    | with_reducible apply State.toAborted_keeps
    | with_reducible apply State.abortCtx_keeps
    | split
    | simp only [Keeps.mk_iff]
    | refine Keeps.of_pair (by with_reducible assumption) ?_
    | dsimp only

theorem State.setCmdView_keeps {o s : State} (h : Keeps o s) (c : Nat) (v : CtxView) : Keeps o (s.setCmdView c v) := by
  refine setCtx_keeps ?_ c v.run
  have put (l m : List (Nat × BitVec 64)) (i : storeWf 0#64 m = true) := storeWf_foldl_writeKey (l := l)
    (storeWf_filter (p := fun e => !inBlock c e.1) i)
  exact ⟨h.1, fun i => ⟨put _ _ (h.2 i).1, put _ _ (h.2 i).2.1, (h.2 i).2.2⟩⟩

theorem State.writeCtx_keeps {o s : State} (h : Keeps o s) (c : Nat) (w : CtxBits) :
    Keeps o (State.writeCtx s c w) := by
  unfold State.writeCtx
  try dsimp only
  repeat' first
    | with_reducible assumption
    | intro _
    | with_reducible apply Keeps.ite
    | with_reducible apply State.setCmdView_keeps
    | with_reducible apply State.applyCtx_keeps
    | split
    | simp only [Keeps.mk_iff]
    | refine Keeps.of_pair (by with_reducible assumption) ?_
    | dsimp only

theorem State.launchStart_keeps {o s : State} (h : Keeps o s) (c : Nat) :
    Keeps o (State.launchStart s c) := by
  unfold State.launchStart
  try dsimp only
  repeat' first
    | with_reducible assumption
    | intro _
    | with_reducible apply Keeps.ite
    | with_reducible apply State.setCtx_keeps
    | with_reducible apply State.openLaunch_keeps
    | with_reducible apply State.showStall_keeps
    | split
    | simp only [Keeps.mk_iff]
    | refine Keeps.of_pair (by with_reducible assumption) ?_
    | dsimp only

theorem State.abortFrame_keeps {o s : State} (h : Keeps o s) (c : Nat) (part : Nat) (epoch : Nat) (src : Nat) :
    Keeps o (State.abortFrame s c part epoch src) := by
  unfold State.abortFrame
  try dsimp only
  repeat' first
    | with_reducible assumption
    | with_reducible apply Keeps.ite
    | with_reducible apply State.abortCtx_keeps
    | split

theorem State.ctxTimeout_keeps {o s : State} (h : Keeps o s) (c : Nat) :
    Keeps o (State.ctxTimeout s c) := by
  unfold State.ctxTimeout
  try dsimp only
  repeat' first
    | with_reducible assumption
    | with_reducible apply Keeps.ite
    | with_reducible apply State.setCtx_keeps
    | with_reducible apply State.report_keeps
    | with_reducible apply State.abortCtx_keeps
    | split
    | simp only [Keeps.mk_iff]

theorem State.addGroup_keeps {o s : State} (h : Keeps o s) (p : Nat) (g : Nat) :
    Keeps o (State.addGroup s p g) := by
  unfold State.addGroup
  try dsimp only
  repeat' first
    | with_reducible assumption
    | simp only [Keeps.mk_iff]

theorem State.abortAll_keeps {o s : State} (h : Keeps o s) (cs : List Nat) :
    Keeps o (State.abortAll s cs) := by
  unfold State.abortAll
  try dsimp only
  repeat' first
    | with_reducible assumption
    | intro _
    | with_reducible apply State.abortCtx_keeps
    | with_reducible apply Keeps.foldl
    | with_reducible apply Keeps.foldl_pair
    | simp only [Keeps.mk_iff]
    | refine Keeps.of_pair (by with_reducible assumption) ?_
    | dsimp only

theorem State.offCore_keeps {o s : State} (h : Keeps o s) (n : Nat) :
    Keeps o (State.offCore s n) := by
  unfold State.offCore
  try dsimp only
  repeat' first
    | with_reducible assumption
    | refine Keeps.regs ?_ storeWf_filter
    | intro _
    | with_reducible apply State.abortAll_keeps
    | with_reducible apply State.setCore_keeps
    | simp only [Keeps.mk_iff]
    | refine Keeps.of_pair (by with_reducible assumption) ?_
    | dsimp only

theorem execCtxAlloc_keeps {o s : State} (h : Keeps o s) :
    KeepsOut o (execCtxAlloc s) := by
  unfold execCtxAlloc
  refine .next ?_
  try dsimp only
  repeat' first
    | with_reducible assumption
    | intro _
    | with_reducible apply Keeps.ite
    | with_reducible apply State.run_keeps
    | with_reducible apply State.respond_keeps
    | with_reducible apply State.setFld_keeps
    | split

theorem execGroupAlloc_keeps {o s : State} (h : Keeps o s) :
    KeepsOut o (execGroupAlloc s) := by
  unfold execGroupAlloc
  refine .next ?_
  try dsimp only
  repeat' first
    | with_reducible assumption
    | intro _
    | with_reducible apply Keeps.ite
    | with_reducible apply State.run_keeps
    | with_reducible apply State.respond_keeps
    | with_reducible apply State.addGroup_keeps
    | split

theorem execGroupFree_keeps {o s : State} (h : Keeps o s) :
    KeepsOut o (execGroupFree s) := by
  unfold execGroupFree
  refine .next ?_
  try dsimp only
  repeat' first
    | with_reducible assumption
    | intro _
    | with_reducible apply Keeps.ite
    | with_reducible apply State.run_keeps
    | with_reducible apply State.respond_keeps
    | split
    | simp only [Keeps.mk_iff]

theorem execCtxCommitGo_keeps {o s : State} (h : Keeps o s) (c : Nat) (w : CtxBits) :
    KeepsOut o (execCtxCommitGo c w s) := by
  unfold execCtxCommitGo
  refine .next ?_
  try dsimp only
  repeat' first
    | with_reducible assumption
    | intro _
    | with_reducible apply State.writeCtx_keeps
    | simp only [Keeps.mk_iff]
    | refine Keeps.of_pair (by with_reducible assumption) ?_
    | dsimp only

theorem execCtxArm_keeps {o s : State} (h : Keeps o s) (c : Nat) (w : CtxBits) :
    KeepsOut o (execCtxArm c w s) := by
  unfold execCtxArm
  refine .next ?_
  try dsimp only
  repeat' first
    | with_reducible assumption
    | intro _
    | with_reducible apply State.writeCtx_keeps
    | with_reducible apply State.arm_keeps
    | simp only [Keeps.mk_iff]
    | refine Keeps.of_pair (by with_reducible assumption) ?_
    | dsimp only

theorem execCtxCancel_keeps {o s : State} (h : Keeps o s) (c : Nat) (w : CtxBits) :
    KeepsOut o (execCtxCancel c w s) := by
  unfold execCtxCancel
  refine .next ?_
  try dsimp only
  repeat' first
    | with_reducible assumption
    | intro _
    | with_reducible apply State.writeCtx_keeps
    | simp only [Keeps.mk_iff]
    | refine Keeps.of_pair (by with_reducible assumption) ?_
    | dsimp only

theorem execCtxAbort_keeps {o s : State} (h : Keeps o s) (c : Nat) (w : CtxBits) :
    KeepsOut o (execCtxAbort c w s) := by
  unfold execCtxAbort
  refine .next ?_
  try dsimp only
  repeat' first
    | with_reducible assumption
    | intro _
    | with_reducible apply State.writeCtx_keeps
    | simp only [Keeps.mk_iff]
    | refine Keeps.of_pair (by with_reducible assumption) ?_
    | dsimp only

theorem execCtxUnbind_keeps {o s : State} (h : Keeps o s) (c : Nat) (w : CtxBits) :
    KeepsOut o (execCtxUnbind c w s) := by
  unfold execCtxUnbind
  refine .next ?_
  try dsimp only
  repeat' first
    | with_reducible assumption
    | intro _
    | with_reducible apply State.writeCtx_keeps
    | simp only [Keeps.mk_iff]
    | refine Keeps.of_pair (by with_reducible assumption) ?_
    | dsimp only

theorem execLaunchStart_keeps {o s : State} (h : Keeps o s) (c : Nat) :
    KeepsOut o (execLaunchStart c s) := by
  unfold execLaunchStart
  refine .next ?_
  try dsimp only
  repeat' first
    | with_reducible assumption
    | with_reducible apply State.launchStart_keeps

theorem execAbortFrameRx_keeps {o s : State} (h : Keeps o s) (c : Nat) (part : Nat) (epoch : Nat) (src : Nat) :
    KeepsOut o (execAbortFrameRx c part epoch src s) := by
  unfold execAbortFrameRx
  refine .next ?_
  try dsimp only
  repeat' first
    | with_reducible assumption
    | with_reducible apply State.abortFrame_keeps

theorem execCtxTimeout_keeps {o s : State} (h : Keeps o s) (c : Nat) :
    KeepsOut o (execCtxTimeout c s) := by
  unfold execCtxTimeout
  refine .next ?_
  try dsimp only
  repeat' first
    | with_reducible assumption
    | with_reducible apply State.ctxTimeout_keeps

end Sys2Proof.Machine
end

