-- ==== Sys2Proof/Laws/KeepsMarigold.lean ====
section
/-! SUPPORT. Machine/Marigold.lean keeps the queue and the canonical form of the stores. -/

namespace Sys2Proof.Machine

theorem State.setDigest_keeps {o s : State} (h : Keeps o s) (r : RegName) (p : Nat) (d : Bytes) :
    Keeps o (State.setDigest s r p d) := by
  unfold State.setDigest
  try dsimp only
  repeat' first
    | with_reducible assumption
    | intro _
    | with_reducible apply State.wr_keeps
    | with_reducible apply Keeps.foldl

theorem State.noteTerms_keeps {o s : State} (h : Keeps o s) :
    Keeps o (State.noteTerms s) := by
  unfold State.noteTerms
  try dsimp only
  repeat' first
    | with_reducible assumption
    | intro _
    | with_reducible apply Keeps.ite
    | with_reducible apply State.setDigest_keeps
    | with_reducible apply State.setMg_keeps
    | with_reducible apply Keeps.foldl
    | split
    | simp only [Keeps.mk_iff]

theorem State.startChain_keeps {o s : State} (h : Keeps o s) (p : Nat) :
    Keeps o (State.startChain s p) := by
  unfold State.startChain
  try dsimp only
  repeat' first
    | with_reducible assumption
    | intro _
    | with_reducible apply Keeps.ite
    | with_reducible apply State.setDigest_keeps
    | with_reducible apply State.setFld_keeps
    | with_reducible apply State.setMg_keeps
    | split
    | simp only [Keeps.mk_iff]
    | refine Keeps.of_pair (by with_reducible assumption) ?_
    | dsimp only

theorem State.stopChain_keeps {o s : State} (h : Keeps o s) (p : Nat) :
    Keeps o (State.stopChain s p) := by
  unfold State.stopChain
  try dsimp only
  repeat' first
    | with_reducible assumption
    | intro _
    | with_reducible apply Keeps.ite
    | with_reducible apply State.setMg_keeps
    | split
    | simp only [Keeps.mk_iff]
    | refine Keeps.of_pair (by with_reducible assumption) ?_
    | dsimp only

theorem State.showQueue_keeps {o s : State} (h : Keeps o s) (p : Nat) :
    Keeps o (State.showQueue s p) := by
  unfold State.showQueue
  try dsimp only
  repeat' first
    | with_reducible assumption
    | with_reducible apply State.setFld_keeps
    | with_reducible apply State.setDigest_keeps
    | split

theorem State.overwrite_keeps {o s : State} (h : Keeps o s) (p : Nat) :
    Keeps o (State.overwrite s p) := by
  unfold State.overwrite
  try dsimp only
  repeat' first
    | with_reducible assumption
    | with_reducible apply Keeps.ite
    | with_reducible apply State.setMg_keeps
    | with_reducible apply State.drop_keeps
    | with_reducible apply State.bump_keeps
    | split
    | simp only [Keeps.mk_iff]

theorem State.append_keeps {o s : State} (h : Keeps o s) (p : Nat) (seq : Nat) (e : Bytes) :
    Keeps o (State.append s p seq e) := by
  unfold State.append
  try dsimp only
  repeat' first
    | with_reducible assumption
    | intro _
    | with_reducible apply Keeps.ite
    | with_reducible apply State.overwrite_keeps
    | with_reducible apply State.setMg_keeps
    | with_reducible apply State.setDigest_keeps
    | split
    | simp only [Keeps.mk_iff]
    | refine Keeps.of_pair (by with_reducible assumption) ?_
    | dsimp only

theorem State.refuseChecks_keeps {o s : State} (h : Keeps o s) (p : Nat) (all : Bool) :
    Keeps o (State.refuseChecks s p all) := by
  unfold State.refuseChecks
  try dsimp only
  repeat' first
    | with_reducible assumption
    | intro _
    | with_reducible apply Keeps.ite
    | with_reducible apply State.respond_keeps
    | with_reducible apply State.setMg_keeps
    | with_reducible apply Keeps.foldl
    | with_reducible apply Keeps.foldl_pair
    | split
    | simp only [Keeps.mk_iff]
    | refine Keeps.of_pair (by with_reducible assumption) ?_
    | dsimp only

theorem State.windowEnd_keeps {o s0 : State} (h : Keeps o s0) (p : Nat) :
    Keeps o (State.windowEnd s0 p) := by
  unfold State.windowEnd
  try dsimp only
  repeat' first
    | with_reducible assumption
    | intro _
    | with_reducible apply Keeps.ite
    | with_reducible apply State.refuseChecks_keeps
    | with_reducible apply State.setMg_keeps
    | with_reducible apply State.showStall_keeps
    | with_reducible apply State.append_keeps
    | with_reducible apply State.drop_keeps
    | with_reducible apply State.setFld_keeps
    | with_reducible apply State.showQueue_keeps
    | with_reducible apply State.report_keeps
    | with_reducible apply Keeps.foldl
    | with_reducible apply Keeps.foldl_pair
    | split
    | simp only [Keeps.mk_iff]
    | refine Keeps.of_pair (by with_reducible assumption) ?_
    | dsimp only

theorem State.readQueue_keeps {o s : State} (h : Keeps o s) (p : Nat) :
    Keeps o (State.readQueue s p) := by
  unfold State.readQueue
  try dsimp only
  repeat' first
    | with_reducible assumption
    | with_reducible apply State.injectSpent_keeps
    | with_reducible apply State.bump_keeps
    | with_reducible apply State.report_keeps
    | split

theorem State.newDrain_keeps {o s : State} (h : Keeps o s) (p : Nat) (n : Nat) :
    Keeps o (State.newDrain s p n).1 := by
  unfold State.newDrain
  try dsimp only
  repeat' first
    | with_reducible assumption
    | with_reducible apply State.readQueue_keeps
    | with_reducible apply State.setMg_keeps
    | split
    | simp only [Keeps.mk_iff]
    | dsimp only
    | with_reducible apply Keeps.foldl_pair

theorem State.sendDrain_keeps {o s : State} (h : Keeps o s) (p : Nat) (d : DrainX) :
    Keeps o (State.sendDrain s p d) := by
  unfold State.sendDrain
  try dsimp only
  repeat' first
    | with_reducible assumption
    | intro _
    | with_reducible apply State.originate_keeps
    | simp only [Keeps.mk_iff]
    | refine Keeps.of_pair (by with_reducible assumption) ?_
    | dsimp only

theorem State.noteSent_keeps {o s : State} (h : Keeps o s) (p : Nat) (serial : Nat) :
    Keeps o (State.noteSent s p serial) := by
  unfold State.noteSent
  try dsimp only
  repeat' first
    | with_reducible assumption
    | intro _
    | with_reducible apply Keeps.ite
    | with_reducible apply State.setMg_keeps
    | split
    | simp only [Keeps.mk_iff]

theorem State.ackDrain_keeps {o s : State} (h : Keeps o s) (p : Nat) (serial : Nat) :
    Keeps o (State.ackDrain s p serial) := by
  unfold State.ackDrain
  try dsimp only
  repeat' first
    | with_reducible assumption
    | intro _
    | with_reducible apply State.setMg_keeps
    | with_reducible apply State.drop_keeps
    | with_reducible apply State.showQueue_keeps
    | with_reducible apply State.showStall_keeps
    | with_reducible apply Keeps.foldl
    | split
    | simp only [Keeps.mk_iff]

theorem State.mgAckFrame_keeps {o s : State} (h : Keeps o s) (src : Nat) (b : Bytes) :
    Keeps o (State.mgAckFrame s src b) := by
  unfold State.mgAckFrame
  try dsimp only
  repeat' first
    | with_reducible assumption
    | with_reducible apply Keeps.ite
    | with_reducible apply State.ackDrain_keeps
    | split

theorem execMgWindowEnd_keeps {o s : State} (h : Keeps o s) :
    KeepsOut o (execMgWindowEnd s) := by
  unfold execMgWindowEnd
  refine .next ?_
  try dsimp only
  repeat' first
    | with_reducible assumption
    | intro _
    | with_reducible apply Keeps.ite
    | with_reducible apply State.windowEnd_keeps
    | with_reducible apply State.closeTick_keeps
    | with_reducible apply Keeps.foldl
    | with_reducible apply Keeps.foldl_pair
    | split
    | simp only [Keeps.mk_iff]
    | refine Keeps.of_pair (by with_reducible assumption) ?_
    | dsimp only

theorem execMgDrain_keeps {o s : State} (h : Keeps o s) (p : Nat) :
    KeepsOut o (execMgDrain p s) := by
  unfold execMgDrain
  refine .next ?_
  try dsimp only
  repeat' first
    | with_reducible assumption
    | with_reducible apply Keeps.ite
    | with_reducible apply State.newDrain_keeps
    | with_reducible apply State.sendDrain_keeps
    | split
    | refine Keeps.of_pair (by with_reducible assumption) ?_

theorem execMgDrainResend_keeps {o s : State} (h : Keeps o s) (p : Nat) (serial : Nat) :
    KeepsOut o (execMgDrainResend p serial s) := by
  unfold execMgDrainResend
  refine .next ?_
  try dsimp only
  repeat' first
    | with_reducible assumption
    | intro _
    | with_reducible apply Keeps.ite
    | with_reducible apply State.noteSent_keeps
    | with_reducible apply State.sendDrain_keeps
    | split

theorem execMgAckRx_keeps {o s : State} (h : Keeps o s) (src : Nat) (payload : List (BitVec 8)) :
    KeepsOut o (execMgAckRx src payload s) := by
  unfold execMgAckRx
  refine .next ?_
  try dsimp only
  repeat' first
    | with_reducible assumption
    | with_reducible apply State.mgAckFrame_keeps

theorem execMgRead_keeps {o s : State} (h : Keeps o s) :
    KeepsOut o (execMgRead s) := by
  unfold execMgRead
  refine .next ?_
  try dsimp only
  repeat' first
    | with_reducible assumption
    | intro _
    | with_reducible apply Keeps.ite
    | with_reducible apply State.run_keeps
    | with_reducible apply State.respond_keeps
    | with_reducible apply State.readQueue_keeps
    | with_reducible apply State.newDrain_keeps
    | split
    | refine Keeps.of_pair (by with_reducible assumption) ?_

theorem execMgAck_keeps {o s : State} (h : Keeps o s) :
    KeepsOut o (execMgAck s) := by
  unfold execMgAck
  refine .next ?_
  try dsimp only
  repeat' first
    | with_reducible assumption
    | intro _
    | with_reducible apply Keeps.ite
    | with_reducible apply State.run_keeps
    | with_reducible apply State.respond_keeps
    | with_reducible apply State.ackDrain_keeps
    | split

theorem execMgCheckpoint_keeps {o s : State} (h : Keeps o s) :
    KeepsOut o (execMgCheckpoint s) := by
  unfold execMgCheckpoint
  refine .next ?_
  try dsimp only
  repeat' first
    | with_reducible assumption
    | intro _
    | with_reducible apply Keeps.ite
    | with_reducible apply State.run_keeps
    | with_reducible apply State.respond_keeps
    | with_reducible apply State.setMg_keeps
    | split
    | simp only [Keeps.mk_iff]

theorem execCheckpointSigned_keeps {o s : State} (h : Keeps o s) (p : Nat) :
    KeepsOut o (execCheckpointSigned p s) := by
  unfold execCheckpointSigned
  refine .next ?_
  try dsimp only
  repeat' first
    | with_reducible assumption
    | intro _
    | with_reducible apply Keeps.ite
    | with_reducible apply State.setMg_keeps
    | with_reducible apply State.respond_keeps
    | split
    | simp only [Keeps.mk_iff]
    | refine Keeps.of_pair (by with_reducible assumption) ?_
    | dsimp only

end Sys2Proof.Machine
end

