-- ==== Sys2Proof/Laws/KeepsOpRows.lean ====
section
/-! SUPPORT. Machine/OpRows.lean keeps the queue and the canonical form of the stores. -/

namespace Sys2Proof.Machine

theorem State.issueOne_keeps {o s : State} (h : Keeps o s) (at_ : IssueAt) (opcode : Nat) (w : Nat) :
    Keeps o (State.issueOne s at_ opcode w) := by
  unfold State.issueOne
  try dsimp only
  repeat' first
    | with_reducible assumption
    | intro _
    | with_reducible apply Keeps.ite
    | with_reducible apply State.halting_keeps
    | with_reducible apply State.issueFault_keeps
    | with_reducible apply State.issueOp_keeps
    | split
    | simp only [Keeps.mk_iff]
    | refine Keeps.of_pair (by with_reducible assumption) ?_
    | dsimp only

theorem State.drainOne_keeps {o s : State} (h : Keeps o s) (at_ : IssueAt) (opcode : Nat) (w : Nat) :
    Keeps o (State.drainOne s at_ opcode w) := by
  unfold State.drainOne
  try dsimp only
  repeat' first
    | with_reducible assumption
    | intro _
    | with_reducible apply Keeps.ite
    | with_reducible apply State.halting_keeps
    | with_reducible apply State.drainRow_keeps
    | split
    | simp only [Keeps.mk_iff]
    | refine Keeps.of_pair (by with_reducible assumption) ?_
    | dsimp only

theorem State.branchOne_keeps {o s : State} (h : Keeps o s) (at_ : IssueAt) (opcode : Nat) (w : Nat) :
    Keeps o (State.branchOne s at_ opcode w) := by
  unfold State.branchOne
  try dsimp only
  repeat' first
    | with_reducible assumption
    | intro _
    | with_reducible apply Keeps.ite
    | with_reducible apply State.issueOne_keeps
    | with_reducible apply State.halting_keeps
    | with_reducible apply State.setCore_keeps
    | with_reducible apply State.setFld_keeps
    | with_reducible apply State.runCycles_keeps
    | split
    | simp only [Keeps.mk_iff]
    | refine Keeps.of_pair (by with_reducible assumption) ?_
    | dsimp only

theorem State.containCore_keeps {o s : State} (h : Keeps o s) (n : Nat) :
    Keeps o (State.containCore s n) := by
  unfold State.containCore
  try dsimp only
  repeat' first
    | with_reducible assumption
    | intro _
    | with_reducible apply Keeps.ite
    | with_reducible apply State.settleCore_keeps
    | with_reducible apply State.enterHalt_keeps
    | split
    | simp only [Keeps.mk_iff]
    | refine Keeps.of_pair (by with_reducible assumption) ?_
    | dsimp only

theorem State.coreOn_keeps {o s : State} (h : Keeps o s) (n : Nat) :
    Keeps o (State.coreOn s n) := by
  unfold State.coreOn
  try dsimp only
  repeat' first
    | with_reducible assumption
    | intro _
    | with_reducible apply Keeps.ite
    | with_reducible apply State.setFld_keeps
    | with_reducible apply State.containCore_keeps
    | split
    | simp only [Keeps.mk_iff]
    | refine Keeps.of_pair (by with_reducible assumption) ?_
    | dsimp only

theorem State.dropStale_keeps {o s : State} (h : Keeps o s) (n : Nat) (p : PendStart) :
    Keeps o (State.dropStale s n p) := by
  unfold State.dropStale
  try dsimp only
  repeat' first
    | with_reducible assumption
    | intro _
    | with_reducible apply Keeps.ite
    | with_reducible apply State.run_keeps
    | with_reducible apply State.freeWhere_keeps
    | split

theorem execCoreStart_keeps {o s : State} (h : Keeps o s) (n : Nat) :
    KeepsOut o (execCoreStart n s) := by
  unfold execCoreStart
  refine .next ?_
  try dsimp only
  repeat' first
    | with_reducible assumption
    | intro _
    | with_reducible apply Keeps.ite
    | with_reducible apply State.dropStale_keeps
    | with_reducible apply State.takeStart_keeps
    | split

theorem execBundleIssue_keeps {o s : State} (h : Keeps o s) (n : Nat) :
    KeepsOut o (execBundleIssue n s) := by
  unfold execBundleIssue
  refine .next ?_
  try dsimp only
  repeat' first
    | with_reducible assumption
    | intro _
    | with_reducible apply Keeps.ite
    | with_reducible apply State.halting_keeps
    | with_reducible apply State.setFld_keeps
    | with_reducible apply State.issueNext_keeps
    | split
    | simp only [Keeps.mk_iff]
    | refine Keeps.of_pair (by with_reducible assumption) ?_
    | dsimp only

theorem execDrainPointIssue_keeps {o s : State} (h : Keeps o s) (n : Nat) :
    KeepsOut o (execDrainPointIssue n s) := by
  unfold execDrainPointIssue
  refine .next ?_
  try dsimp only
  repeat' first
    | with_reducible assumption
    | intro _
    | with_reducible apply Keeps.ite
    | with_reducible apply State.halting_keeps
    | with_reducible apply State.drainCore_keeps
    | with_reducible apply State.issueNext_keeps
    | with_reducible apply State.completeHalt_keeps
    | split
    | simp only [Keeps.mk_iff]
    | refine Keeps.of_pair (by with_reducible assumption) ?_
    | dsimp only

theorem State.haltReq_keeps {o s : State} (h : Keeps o s) (n : Nat) :
    Keeps o (State.haltReq s n) := by
  unfold State.haltReq
  try dsimp only
  repeat' first
    | with_reducible assumption
    | with_reducible apply Keeps.ite
    | with_reducible apply State.halting_keeps
    | with_reducible apply State.setFld_keeps
    | split

theorem execHaltReq_keeps {o s : State} (h : Keeps o s) (n : Nat) :
    KeepsOut o (execHaltReq n s) := by
  unfold execHaltReq
  refine .next ?_
  try dsimp only
  repeat' first
    | with_reducible assumption
    | with_reducible apply State.haltReq_keeps

theorem execCoreHalt_keeps {o s : State} (h : Keeps o s) (n : Nat) :
    KeepsOut o (execCoreHalt n s) := by
  unfold execCoreHalt
  refine .next ?_
  try dsimp only
  repeat' first
    | with_reducible assumption
    | intro _
    | with_reducible apply Keeps.ite
    | with_reducible apply State.halting_keeps
    | with_reducible apply State.completeHalt_keeps
    | with_reducible apply State.sleepHalt_keeps
    | split
    | simp only [Keeps.mk_iff]
    | refine Keeps.of_pair (by with_reducible assumption) ?_
    | dsimp only

theorem State.resume_keeps {o s : State} (h : Keeps o s) (n : Nat) :
    Keeps o (State.resume s n) := by
  unfold State.resume
  try dsimp only
  repeat' first
    | with_reducible assumption
    | intro _
    | with_reducible apply Keeps.ite
    | with_reducible apply State.setCore_keeps
    | with_reducible apply State.leaveProgram_keeps
    | with_reducible apply State.setFld_keeps
    | split
    | simp only [Keeps.mk_iff]
    | refine Keeps.of_pair (by with_reducible assumption) ?_
    | dsimp only

theorem State.stepCore_keeps {o s : State} (h : Keeps o s) (n : Nat) :
    Keeps o (State.stepCore s n) := by
  unfold State.stepCore
  try dsimp only
  repeat' first
    | with_reducible assumption
    | intro _
    | with_reducible apply Keeps.ite
    | with_reducible apply State.setCore_keeps
    | with_reducible apply State.leaveProgram_keeps
    | with_reducible apply State.setFld_keeps
    | with_reducible apply State.issueNext_keeps
    | with_reducible apply State.halting_keeps
    | with_reducible apply State.completeHalt_keeps
    | split
    | simp only [Keeps.mk_iff]
    | refine Keeps.of_pair (by with_reducible assumption) ?_
    | dsimp only

theorem execResume_keeps {o s : State} (h : Keeps o s) (n : Nat) :
    KeepsOut o (execResume n s) := by
  unfold execResume
  refine .next ?_
  try dsimp only
  repeat' first
    | with_reducible assumption
    | with_reducible apply State.resume_keeps

theorem execStepCore_keeps {o s : State} (h : Keeps o s) (n : Nat) :
    KeepsOut o (execStepCore n s) := by
  unfold execStepCore
  refine .next ?_
  try dsimp only
  repeat' first
    | with_reducible assumption
    | with_reducible apply State.stepCore_keeps

theorem execFadd_keeps {o s : State} (h : Keeps o s) (at_ : IssueAt) (f : VForm) :
    KeepsOut o (execFadd at_ f s) := by
  unfold execFadd
  refine .next ?_
  try dsimp only
  repeat' first
    | with_reducible assumption
    | with_reducible apply State.issueOne_keeps

theorem execFsub_keeps {o s : State} (h : Keeps o s) (at_ : IssueAt) (f : VForm) :
    KeepsOut o (execFsub at_ f s) := by
  unfold execFsub
  refine .next ?_
  try dsimp only
  repeat' first
    | with_reducible assumption
    | with_reducible apply State.issueOne_keeps

theorem execFmul_keeps {o s : State} (h : Keeps o s) (at_ : IssueAt) (f : VForm) :
    KeepsOut o (execFmul at_ f s) := by
  unfold execFmul
  refine .next ?_
  try dsimp only
  repeat' first
    | with_reducible assumption
    | with_reducible apply State.issueOne_keeps

theorem execFmin_keeps {o s : State} (h : Keeps o s) (at_ : IssueAt) (f : VForm) :
    KeepsOut o (execFmin at_ f s) := by
  unfold execFmin
  refine .next ?_
  try dsimp only
  repeat' first
    | with_reducible assumption
    | with_reducible apply State.issueOne_keeps

theorem execFmax_keeps {o s : State} (h : Keeps o s) (at_ : IssueAt) (f : VForm) :
    KeepsOut o (execFmax at_ f s) := by
  unfold execFmax
  refine .next ?_
  try dsimp only
  repeat' first
    | with_reducible assumption
    | with_reducible apply State.issueOne_keeps

theorem execFdiv_keeps {o s : State} (h : Keeps o s) (at_ : IssueAt) (f : VForm) :
    KeepsOut o (execFdiv at_ f s) := by
  unfold execFdiv
  refine .next ?_
  try dsimp only
  repeat' first
    | with_reducible assumption
    | with_reducible apply State.issueOne_keeps

theorem execFsqrt_keeps {o s : State} (h : Keeps o s) (at_ : IssueAt) (f : VForm) :
    KeepsOut o (execFsqrt at_ f s) := by
  unfold execFsqrt
  refine .next ?_
  try dsimp only
  repeat' first
    | with_reducible assumption
    | with_reducible apply State.issueOne_keeps

theorem execFcvt_keeps {o s : State} (h : Keeps o s) (at_ : IssueAt) (f : VForm) :
    KeepsOut o (execFcvt at_ f s) := by
  unfold execFcvt
  refine .next ?_
  try dsimp only
  repeat' first
    | with_reducible assumption
    | with_reducible apply State.issueOne_keeps

theorem execUnpk_keeps {o s : State} (h : Keeps o s) (at_ : IssueAt) (f : VForm) :
    KeepsOut o (execUnpk at_ f s) := by
  unfold execUnpk
  refine .next ?_
  try dsimp only
  repeat' first
    | with_reducible assumption
    | with_reducible apply State.issueOne_keeps

theorem execIadd_keeps {o s : State} (h : Keeps o s) (at_ : IssueAt) (f : VForm) :
    KeepsOut o (execIadd at_ f s) := by
  unfold execIadd
  refine .next ?_
  try dsimp only
  repeat' first
    | with_reducible assumption
    | with_reducible apply State.issueOne_keeps

theorem execIsub_keeps {o s : State} (h : Keeps o s) (at_ : IssueAt) (f : VForm) :
    KeepsOut o (execIsub at_ f s) := by
  unfold execIsub
  refine .next ?_
  try dsimp only
  repeat' first
    | with_reducible assumption
    | with_reducible apply State.issueOne_keeps

theorem execImin_keeps {o s : State} (h : Keeps o s) (at_ : IssueAt) (f : VForm) :
    KeepsOut o (execImin at_ f s) := by
  unfold execImin
  refine .next ?_
  try dsimp only
  repeat' first
    | with_reducible assumption
    | with_reducible apply State.issueOne_keeps

theorem execImax_keeps {o s : State} (h : Keeps o s) (at_ : IssueAt) (f : VForm) :
    KeepsOut o (execImax at_ f s) := by
  unfold execImax
  refine .next ?_
  try dsimp only
  repeat' first
    | with_reducible assumption
    | with_reducible apply State.issueOne_keeps

theorem execVand_keeps {o s : State} (h : Keeps o s) (at_ : IssueAt) (f : VForm) :
    KeepsOut o (execVand at_ f s) := by
  unfold execVand
  refine .next ?_
  try dsimp only
  repeat' first
    | with_reducible assumption
    | with_reducible apply State.issueOne_keeps

theorem execVor_keeps {o s : State} (h : Keeps o s) (at_ : IssueAt) (f : VForm) :
    KeepsOut o (execVor at_ f s) := by
  unfold execVor
  refine .next ?_
  try dsimp only
  repeat' first
    | with_reducible assumption
    | with_reducible apply State.issueOne_keeps

theorem execVxor_keeps {o s : State} (h : Keeps o s) (at_ : IssueAt) (f : VForm) :
    KeepsOut o (execVxor at_ f s) := by
  unfold execVxor
  refine .next ?_
  try dsimp only
  repeat' first
    | with_reducible assumption
    | with_reducible apply State.issueOne_keeps

theorem execMov_keeps {o s : State} (h : Keeps o s) (at_ : IssueAt) (f : VForm) :
    KeepsOut o (execMov at_ f s) := by
  unfold execMov
  refine .next ?_
  try dsimp only
  repeat' first
    | with_reducible assumption
    | with_reducible apply State.issueOne_keeps

theorem execBcast_keeps {o s : State} (h : Keeps o s) (at_ : IssueAt) (f : VForm) :
    KeepsOut o (execBcast at_ f s) := by
  unfold execBcast
  refine .next ?_
  try dsimp only
  repeat' first
    | with_reducible assumption
    | with_reducible apply State.issueOne_keeps

theorem execPadd_keeps {o s : State} (h : Keeps o s) (at_ : IssueAt) (f : VForm) :
    KeepsOut o (execPadd at_ f s) := by
  unfold execPadd
  refine .next ?_
  try dsimp only
  repeat' first
    | with_reducible assumption
    | with_reducible apply State.issueOne_keeps

theorem execPhloxExp_keeps {o s : State} (h : Keeps o s) (at_ : IssueAt) (f : VForm) :
    KeepsOut o (execPhloxExp at_ f s) := by
  unfold execPhloxExp
  refine .next ?_
  try dsimp only
  repeat' first
    | with_reducible assumption
    | with_reducible apply State.issueOne_keeps

theorem execPhloxCvt_keeps {o s : State} (h : Keeps o s) (at_ : IssueAt) (f : VForm) :
    KeepsOut o (execPhloxCvt at_ f s) := by
  unfold execPhloxCvt
  refine .next ?_
  try dsimp only
  repeat' first
    | with_reducible assumption
    | with_reducible apply State.issueOne_keeps

theorem execPhloxNorm_keeps {o s : State} (h : Keeps o s) (at_ : IssueAt) (f : VForm) :
    KeepsOut o (execPhloxNorm at_ f s) := by
  unfold execPhloxNorm
  refine .next ?_
  try dsimp only
  repeat' first
    | with_reducible assumption
    | with_reducible apply State.issueOne_keeps

theorem execDotBlk16_keeps {o s : State} (h : Keeps o s) (at_ : IssueAt) (f : DForm) :
    KeepsOut o (execDotBlk16 at_ f s) := by
  unfold execDotBlk16
  refine .next ?_
  try dsimp only
  repeat' first
    | with_reducible assumption
    | with_reducible apply State.issueOne_keeps

theorem execDotBlk32_keeps {o s : State} (h : Keeps o s) (at_ : IssueAt) (f : DForm) :
    KeepsOut o (execDotBlk32 at_ f s) := by
  unfold execDotBlk32
  refine .next ?_
  try dsimp only
  repeat' first
    | with_reducible assumption
    | with_reducible apply State.issueOne_keeps

theorem execDotpBlk16_keeps {o s : State} (h : Keeps o s) (at_ : IssueAt) (f : DForm) :
    KeepsOut o (execDotpBlk16 at_ f s) := by
  unfold execDotpBlk16
  refine .next ?_
  try dsimp only
  repeat' first
    | with_reducible assumption
    | with_reducible apply State.issueOne_keeps

theorem execDotpBlk32_keeps {o s : State} (h : Keeps o s) (at_ : IssueAt) (f : DForm) :
    KeepsOut o (execDotpBlk32 at_ f s) := by
  unfold execDotpBlk32
  refine .next ?_
  try dsimp only
  repeat' first
    | with_reducible assumption
    | with_reducible apply State.issueOne_keeps

theorem execLdV_keeps {o s : State} (h : Keeps o s) (at_ : IssueAt) (f : MForm) :
    KeepsOut o (execLdV at_ f s) := by
  unfold execLdV
  refine .next ?_
  try dsimp only
  repeat' first
    | with_reducible assumption
    | with_reducible apply State.issueOne_keeps

theorem execStV_keeps {o s : State} (h : Keeps o s) (at_ : IssueAt) (f : MForm) :
    KeepsOut o (execStV at_ f s) := by
  unfold execStV
  refine .next ?_
  try dsimp only
  repeat' first
    | with_reducible assumption
    | with_reducible apply State.issueOne_keeps

theorem execLdS_keeps {o s : State} (h : Keeps o s) (at_ : IssueAt) (f : MForm) :
    KeepsOut o (execLdS at_ f s) := by
  unfold execLdS
  refine .next ?_
  try dsimp only
  repeat' first
    | with_reducible assumption
    | with_reducible apply State.issueOne_keeps

theorem execStS_keeps {o s : State} (h : Keeps o s) (at_ : IssueAt) (f : MForm) :
    KeepsOut o (execStS at_ f s) := by
  unfold execStS
  refine .next ?_
  try dsimp only
  repeat' first
    | with_reducible assumption
    | with_reducible apply State.issueOne_keeps

theorem execSstart_keeps {o s : State} (h : Keeps o s) (at_ : IssueAt) (f : StartForm) :
    KeepsOut o (execSstart at_ f s) := by
  unfold execSstart
  refine .next ?_
  try dsimp only
  repeat' first
    | with_reducible assumption
    | with_reducible apply State.issueOne_keeps

theorem execSwait_keeps {o s : State} (h : Keeps o s) (at_ : IssueAt) (f : WaitForm) :
    KeepsOut o (execSwait at_ f s) := by
  unfold execSwait
  refine .next ?_
  try dsimp only
  repeat' first
    | with_reducible assumption
    | with_reducible apply State.drainOne_keeps

theorem execSrel_keeps {o s : State} (h : Keeps o s) (at_ : IssueAt) (f : WaitForm) :
    KeepsOut o (execSrel at_ f s) := by
  unfold execSrel
  refine .next ?_
  try dsimp only
  repeat' first
    | with_reducible assumption
    | with_reducible apply State.issueOne_keeps

theorem execEndOp_keeps {o s : State} (h : Keeps o s) (at_ : IssueAt) (f : ZForm) :
    KeepsOut o (execEndOp at_ f s) := by
  unfold execEndOp
  refine .next ?_
  try dsimp only
  repeat' first
    | with_reducible assumption
    | with_reducible apply State.drainOne_keeps

theorem execSadd_keeps {o s : State} (h : Keeps o s) (at_ : IssueAt) (f : RForm) :
    KeepsOut o (execSadd at_ f s) := by
  unfold execSadd
  refine .next ?_
  try dsimp only
  repeat' first
    | with_reducible assumption
    | with_reducible apply State.issueOne_keeps

theorem execSsub_keeps {o s : State} (h : Keeps o s) (at_ : IssueAt) (f : RForm) :
    KeepsOut o (execSsub at_ f s) := by
  unfold execSsub
  refine .next ?_
  try dsimp only
  repeat' first
    | with_reducible assumption
    | with_reducible apply State.issueOne_keeps

theorem execSmul_keeps {o s : State} (h : Keeps o s) (at_ : IssueAt) (f : RForm) :
    KeepsOut o (execSmul at_ f s) := by
  unfold execSmul
  refine .next ?_
  try dsimp only
  repeat' first
    | with_reducible assumption
    | with_reducible apply State.issueOne_keeps

theorem execSand_keeps {o s : State} (h : Keeps o s) (at_ : IssueAt) (f : RForm) :
    KeepsOut o (execSand at_ f s) := by
  unfold execSand
  refine .next ?_
  try dsimp only
  repeat' first
    | with_reducible assumption
    | with_reducible apply State.issueOne_keeps

theorem execSor_keeps {o s : State} (h : Keeps o s) (at_ : IssueAt) (f : RForm) :
    KeepsOut o (execSor at_ f s) := by
  unfold execSor
  refine .next ?_
  try dsimp only
  repeat' first
    | with_reducible assumption
    | with_reducible apply State.issueOne_keeps

theorem execSxor_keeps {o s : State} (h : Keeps o s) (at_ : IssueAt) (f : RForm) :
    KeepsOut o (execSxor at_ f s) := by
  unfold execSxor
  refine .next ?_
  try dsimp only
  repeat' first
    | with_reducible assumption
    | with_reducible apply State.issueOne_keeps

theorem execShl_keeps {o s : State} (h : Keeps o s) (at_ : IssueAt) (f : RForm) :
    KeepsOut o (execShl at_ f s) := by
  unfold execShl
  refine .next ?_
  try dsimp only
  repeat' first
    | with_reducible assumption
    | with_reducible apply State.issueOne_keeps

theorem execShr_keeps {o s : State} (h : Keeps o s) (at_ : IssueAt) (f : RForm) :
    KeepsOut o (execShr at_ f s) := by
  unfold execShr
  refine .next ?_
  try dsimp only
  repeat' first
    | with_reducible assumption
    | with_reducible apply State.issueOne_keeps

theorem execSra_keeps {o s : State} (h : Keeps o s) (at_ : IssueAt) (f : RForm) :
    KeepsOut o (execSra at_ f s) := by
  unfold execSra
  refine .next ?_
  try dsimp only
  repeat' first
    | with_reducible assumption
    | with_reducible apply State.issueOne_keeps

theorem execMovi_keeps {o s : State} (h : Keeps o s) (at_ : IssueAt) (f : JForm) :
    KeepsOut o (execMovi at_ f s) := by
  unfold execMovi
  refine .next ?_
  try dsimp only
  repeat' first
    | with_reducible assumption
    | with_reducible apply State.issueOne_keeps

theorem execAadd_keeps {o s : State} (h : Keeps o s) (at_ : IssueAt) (f : RForm) :
    KeepsOut o (execAadd at_ f s) := by
  unfold execAadd
  refine .next ?_
  try dsimp only
  repeat' first
    | with_reducible assumption
    | with_reducible apply State.issueOne_keeps

theorem execMova_keeps {o s : State} (h : Keeps o s) (at_ : IssueAt) (f : RForm) :
    KeepsOut o (execMova at_ f s) := by
  unfold execMova
  refine .next ?_
  try dsimp only
  repeat' first
    | with_reducible assumption
    | with_reducible apply State.issueOne_keeps

theorem execMovs_keeps {o s : State} (h : Keeps o s) (at_ : IssueAt) (f : RForm) :
    KeepsOut o (execMovs at_ f s) := by
  unfold execMovs
  refine .next ?_
  try dsimp only
  repeat' first
    | with_reducible assumption
    | with_reducible apply State.issueOne_keeps

theorem execPset_keeps {o s : State} (h : Keeps o s) (at_ : IssueAt) (f : RForm) :
    KeepsOut o (execPset at_ f s) := by
  unfold execPset
  refine .next ?_
  try dsimp only
  repeat' first
    | with_reducible assumption
    | with_reducible apply State.issueOne_keeps

theorem execBr_keeps {o s : State} (h : Keeps o s) (at_ : IssueAt) (f : BForm) :
    KeepsOut o (execBr at_ f s) := by
  unfold execBr
  refine .next ?_
  try dsimp only
  repeat' first
    | with_reducible assumption
    | with_reducible apply State.branchOne_keeps

theorem execLoop_keeps {o s : State} (h : Keeps o s) (at_ : IssueAt) (f : BForm) :
    KeepsOut o (execLoop at_ f s) := by
  unfold execLoop
  refine .next ?_
  try dsimp only
  repeat' first
    | with_reducible assumption
    | with_reducible apply State.branchOne_keeps

end Sys2Proof.Machine
end

