-- ==== Sys2Proof/Laws/KeepsImage.lean ====
section
/-! SUPPORT. Machine/Image.lean keeps the queue and the canonical form of the stores. -/

namespace Sys2Proof.Machine

theorem State.setStage_keeps {o s : State} (h : Keeps o s) (v : Nat) :
    Keeps o (State.setStage s v) := by
  unfold State.setStage
  try dsimp only
  repeat' first
    | with_reducible assumption
    | with_reducible apply State.setFld_keeps

theorem State.beginImage_keeps {o s : State} (h : Keeps o s) (c : TakenX) :
    Keeps o (State.beginImage s c) := by
  unfold State.beginImage
  try dsimp only
  repeat' first
    | with_reducible assumption
    | with_reducible apply Keeps.ite
    | with_reducible apply State.respond_keeps
    | with_reducible apply State.wr_keeps
    | split
    | simp only [Keeps.mk_iff]

theorem State.chunkImage_keeps {o s : State} (h : Keeps o s) (c : TakenX) :
    Keeps o (State.chunkImage s c) := by
  unfold State.chunkImage
  try dsimp only
  repeat' first
    | with_reducible assumption
    | with_reducible apply Keeps.ite
    | with_reducible apply State.respond_keeps
    | with_reducible apply State.setFld_keeps
    | split
    | simp only [Keeps.mk_iff]

theorem State.withImage_keeps {o s : State} (h : Keeps o s) (i : Image) :
    Keeps o (State.withImage s i) := by
  unfold State.withImage
  try dsimp only
  repeat' first
    | with_reducible assumption
    | with_reducible apply State.loadRegs_keeps
    | simp only [Keeps.mk_iff]

theorem State.endValidation_keeps {o s : State} (h : Keeps o s) :
    Keeps o (State.endValidation s) := by
  unfold State.endValidation
  try dsimp only
  repeat' first
    | with_reducible assumption
    | intro _
    | with_reducible apply Keeps.ite
    | with_reducible apply State.setFld_keeps
    | with_reducible apply State.wr_keeps
    | with_reducible apply State.setStage_keeps
    | with_reducible apply Keeps.foldl
    | split

theorem State.lastStatus_keeps {o s : State} (h : Keeps o s) (v : Nat) :
    Keeps o (State.lastStatus s v) := by
  unfold State.lastStatus
  try dsimp only
  repeat' first
    | with_reducible assumption
    | with_reducible apply State.setFld_keeps

theorem State.lastPackage_keeps {o s : State} (h : Keeps o s) (b : Bytes) :
    Keeps o (State.lastPackage s b) := by
  unfold State.lastPackage
  try dsimp only
  repeat' first
    | with_reducible assumption
    | with_reducible apply State.setFld_keeps

theorem State.armCommit_keeps {o s : State} (h : Keeps o s) (now : Bool) :
    Keeps o (State.armCommit s now) := by
  unfold State.armCommit
  try dsimp only
  repeat' first
    | with_reducible assumption
    | intro _
    | with_reducible apply Keeps.ite
    | with_reducible apply State.tick_keeps
    | with_reducible apply State.setStage_keeps
    | with_reducible apply State.lastStatus_keeps
    | with_reducible apply State.lastPackage_keeps
    | split
    | simp only [Keeps.mk_iff]
    | refine Keeps.of_pair (by with_reducible assumption) ?_
    | dsimp only

theorem State.writeCommitCtrl_keeps {o s : State} (h : Keeps o s) (v : Nat) :
    Keeps o (State.writeCommitCtrl s v) := by
  unfold State.writeCommitCtrl
  try dsimp only
  repeat' first
    | with_reducible assumption
    | with_reducible apply Keeps.ite
    | with_reducible apply State.lastStatus_keeps
    | with_reducible apply State.armCommit_keeps
    | with_reducible apply State.setStage_keeps
    | split

theorem State.discardStage_keeps {o s : State} (h : Keeps o s) :
    Keeps o (State.discardStage s) := by
  unfold State.discardStage
  try dsimp only
  repeat' first
    | with_reducible assumption
    | with_reducible apply Keeps.ite
    | with_reducible apply State.setStage_keeps
    | split
    | simp only [Keeps.mk_iff]

theorem State.dropChanged_keeps {o s : State} (h : Keeps o s) (t : State) : Keeps o (s.dropChanged t) :=
  Keeps.foldl h fun _ _ ha => portDown_keeps ha ..

theorem State.startChanged_keeps {o s : State} (h : Keeps o s) (old : State) : Keeps o (s.startChanged old) :=
  Keeps.foldl h fun _ _ ha => Keeps.ite (enterState_keeps ha ..) (enterState_keeps ha ..)

theorem State.regrant_keeps {o s : State} (h : Keeps o s) (x : Nat) :
    Keeps o (State.regrant s x) := by
  unfold State.regrant
  try dsimp only
  repeat' first
    | with_reducible assumption
    | intro _
    | with_reducible apply Keeps.ite
    | with_reducible apply State.setPort_keeps
    | with_reducible apply State.showCredit_keeps
    | with_reducible apply State.sendCredits_keeps
    | with_reducible apply Keeps.foldl
    | with_reducible apply Keeps.foldl_pair
    | split
    | simp only [Keeps.mk_iff]
    | refine Keeps.of_pair (by with_reducible assumption) ?_
    | dsimp only

theorem State.clearCtx_keeps {o s : State} (h : Keeps o s) (c : Nat) :
    Keeps o (State.clearCtx s c) := by
  unfold State.clearCtx
  try dsimp only
  repeat' first
    | with_reducible assumption
    | intro _
    | with_reducible apply State.wr_keeps
    | with_reducible apply State.wrShadow_keeps
    | with_reducible apply State.setCtx_keeps
    | with_reducible apply Keeps.foldl

theorem State.loadCode_keeps {o s : State} (h : Keeps o s) (n : Nat) :
    Keeps o (State.loadCode s n) := by
  unfold State.loadCode
  try dsimp only
  repeat' first
    | with_reducible assumption
    | intro _
    | with_reducible apply State.writeSram_keeps
    | with_reducible apply State.zeroSram_keeps
    | with_reducible apply Keeps.foldl
    | with_reducible apply Keeps.foldl_pair
    | simp only [Keeps.mk_iff]
    | refine Keeps.of_pair (by with_reducible assumption) ?_
    | dsimp only

theorem State.showDisabled_keeps {o s : State} (h : Keeps o s) :
    Keeps o (State.showDisabled s) := by
  unfold State.showDisabled
  try dsimp only
  repeat' first
    | with_reducible assumption
    | intro _
    | with_reducible apply Keeps.ite
    | with_reducible apply State.wr_keeps
    | with_reducible apply Keeps.foldl
    | split

theorem State.showCore_keeps {o s : State} (h : Keeps o s) (n : Nat) :
    Keeps o (State.showCore s n) := by
  unfold State.showCore
  try dsimp only
  repeat' first
    | with_reducible assumption
    | with_reducible apply State.setFld_keeps

theorem State.showDigests_keeps {o s : State} (h : Keeps o s) :
    Keeps o (State.showDigests s) := by
  unfold State.showDigests
  try dsimp only
  repeat' first
    | with_reducible assumption
    | intro _
    | with_reducible apply Keeps.ite
    | with_reducible apply State.wr_keeps
    | with_reducible apply State.setFld_keeps
    | with_reducible apply State.setDigest_keeps
    | with_reducible apply Keeps.foldl
    | split

theorem State.showRecords_keeps {o s : State} (h : Keeps o s) :
    Keeps o (State.showRecords s) := by
  unfold State.showRecords
  try dsimp only
  repeat' first
    | with_reducible assumption
    | intro _
    | with_reducible apply Keeps.ite
    | with_reducible apply State.startChain_keeps
    | with_reducible apply State.showQueue_keeps
    | with_reducible apply State.stopChain_keeps
    | with_reducible apply Keeps.foldl
    | with_reducible apply Keeps.foldl_pair
    | split
    | simp only [Keeps.mk_iff]
    | refine Keeps.of_pair (by with_reducible assumption) ?_
    | dsimp only

theorem State.showGrants_keeps {o s : State} (h : Keeps o s) :
    Keeps o (State.showGrants s) := by
  unfold State.showGrants
  try dsimp only
  repeat' first
    | with_reducible assumption
    | intro _
    | with_reducible apply State.setFld_keeps
    | with_reducible apply Keeps.foldl

theorem State.switchCores_keeps {o s : State} (h : Keeps o s) (old : State) (cores : List Nat) : Keeps o (s.switchCores old cores) := by
  unfold State.switchCores
  repeat' first
    | with_reducible assumption
    | intro _
    | with_reducible apply Keeps.ite
    | with_reducible apply State.coreOn_keeps
    | with_reducible apply State.loadCode_keeps
    | with_reducible apply State.offCore_keeps
    | with_reducible apply Keeps.foldl

theorem State.dropCommit_keeps {o s : State} (h : Keeps o s) (k : Nat) :
    Keeps o (State.dropCommit s k) := by
  unfold State.dropCommit
  try dsimp only
  repeat' first
    | with_reducible assumption
    | intro _
    | with_reducible apply Keeps.ite
    | with_reducible apply State.setSlice_keeps
    | with_reducible apply Keeps.foldl
    | with_reducible apply Keeps.foldl_pair
    | split
    | simp only [Keeps.mk_iff]
    | refine Keeps.of_pair (by with_reducible assumption) ?_
    | dsimp only

theorem State.clearSchedulers_keeps {o s : State} (h : Keeps o s) :
    Keeps o (State.clearSchedulers s) := by
  unfold State.clearSchedulers
  try dsimp only
  repeat' first
    | with_reducible assumption
    | intro _
    | with_reducible apply State.setPort_keeps
    | with_reducible apply Keeps.foldl
    | with_reducible apply Keeps.foldl_pair
    | simp only [Keeps.mk_iff]
    | refine Keeps.of_pair (by with_reducible assumption) ?_
    | dsimp only

theorem State.applyImage_keeps {o s : State} (h : Keeps o s) (i : Image) :
    Keeps o (State.applyImage s i) := by
  unfold State.applyImage
  try dsimp only
  repeat' first
    | with_reducible assumption
    | with_reducible apply State.showParent_keeps
    | intro _
    | with_reducible apply Keeps.ite
    | with_reducible apply State.withImage_keeps
    | with_reducible apply State.dropChanged_keeps
    | with_reducible apply State.loadRegs_keeps
    | with_reducible apply State.startChanged_keeps
    | with_reducible apply State.clearFlowlets_keeps
    | with_reducible apply State.buildPool_keeps
    | with_reducible apply State.setTokens_keeps
    | with_reducible apply State.dropCommit_keeps
    | with_reducible apply State.clearSchedulers_keeps
    | with_reducible apply State.setFld_keeps
    | with_reducible apply State.clearCtx_keeps
    | with_reducible apply State.loadCode_keeps
    | with_reducible apply State.showCore_keeps
    | with_reducible apply State.showDisabled_keeps
    | with_reducible apply State.switchCores_keeps
    | with_reducible apply State.setSlice_keeps
    | with_reducible apply State.showGrants_keeps
    | with_reducible apply State.showDigests_keeps
    | with_reducible apply State.showRecords_keeps
    | with_reducible apply State.noteTerms_keeps
    | with_reducible apply State.regrant_keeps
    | with_reducible apply State.onPort_keeps
    | with_reducible apply State.showKeyWait_keeps
    | with_reducible apply State.startSession_keeps
    | with_reducible apply State.firstKeys_keeps
    | with_reducible apply Keeps.foldl
    | with_reducible apply Keeps.foldl_pair
    | split
    | simp only [Keeps.mk_iff]
    | refine Keeps.of_pair (by with_reducible assumption) ?_
    | dsimp only

theorem State.commitPackage_keeps {o s : State} (h : Keeps o s) (b : Bytes) :
    Keeps o (State.commitPackage s b) := by
  unfold State.commitPackage
  try dsimp only
  repeat' first
    | with_reducible assumption
    | with_reducible apply Keeps.ite
    | with_reducible apply State.lastPackage_keeps
    | with_reducible apply State.lastStatus_keeps
    | with_reducible apply State.wr_keeps
    | with_reducible apply State.applyImage_keeps
    | with_reducible apply State.setFld_keeps
    | with_reducible apply State.bump_keeps
    | split

theorem State.commitDue_keeps {o s : State} (h : Keeps o s) :
    Keeps o (State.commitDue s) := by
  unfold State.commitDue
  try dsimp only
  repeat' first
    | with_reducible assumption
    | intro _
    | with_reducible apply Keeps.ite
    | with_reducible apply State.tick_keeps
    | with_reducible apply State.lastPackage_keeps
    | with_reducible apply State.lastStatus_keeps
    | with_reducible apply State.setStage_keeps
    | with_reducible apply State.commitPackage_keeps
    | split
    | simp only [Keeps.mk_iff]
    | refine Keeps.of_pair (by with_reducible assumption) ?_
    | dsimp only

theorem execImgBegin_keeps {o s : State} (h : Keeps o s) :
    KeepsOut o (execImgBegin s) := by
  unfold execImgBegin
  refine .next ?_
  try dsimp only
  repeat' first
    | with_reducible assumption
    | intro _
    | with_reducible apply State.run_keeps
    | with_reducible apply State.beginImage_keeps

theorem execImgChunk_keeps {o s : State} (h : Keeps o s) :
    KeepsOut o (execImgChunk s) := by
  unfold execImgChunk
  refine .next ?_
  try dsimp only
  repeat' first
    | with_reducible assumption
    | intro _
    | with_reducible apply State.run_keeps
    | with_reducible apply State.chunkImage_keeps

theorem execImgValidate_keeps {o s : State} (h : Keeps o s) :
    KeepsOut o (execImgValidate s) := by
  unfold execImgValidate
  refine .next ?_
  try dsimp only
  repeat' first
    | with_reducible assumption
    | intro _
    | with_reducible apply Keeps.ite
    | with_reducible apply State.run_keeps
    | with_reducible apply State.setStage_keeps
    | with_reducible apply State.respond_keeps
    | split

theorem execValidationDone_keeps {o s : State} (h : Keeps o s) :
    KeepsOut o (execValidationDone s) := by
  unfold execValidationDone
  refine .next ?_
  try dsimp only
  repeat' first
    | with_reducible assumption
    | with_reducible apply State.endValidation_keeps

theorem execImgStore_keeps {o s : State} (h : Keeps o s) :
    KeepsOut o (execImgStore s) := by
  unfold execImgStore
  refine .next ?_
  try dsimp only
  repeat' first
    | with_reducible assumption
    | intro _
    | with_reducible apply Keeps.ite
    | with_reducible apply State.run_keeps
    | with_reducible apply State.respond_keeps
    | with_reducible apply Keeps.foldl
    | split
    | simp only [Keeps.mk_iff]

theorem execDiscard_keeps {o s : State} (h : Keeps o s) :
    KeepsOut o (execDiscard s) := by
  unfold execDiscard
  refine .next ?_
  try dsimp only
  repeat' first
    | with_reducible assumption
    | with_reducible apply State.discardStage_keeps

theorem execCommitArm_keeps {o s : State} (h : Keeps o s) (value : BitVec 32) :
    KeepsOut o (execCommitArm value s) := by
  unfold execCommitArm
  refine .next ?_
  try dsimp only
  repeat' first
    | with_reducible assumption
    | with_reducible apply State.writeCommitCtrl_keeps

theorem execCommitNow_keeps {o s : State} (h : Keeps o s) (value : BitVec 32) :
    KeepsOut o (execCommitNow value s) := by
  unfold execCommitNow
  refine .next ?_
  try dsimp only
  repeat' first
    | with_reducible assumption
    | with_reducible apply State.writeCommitCtrl_keeps

theorem execCommitCancel_keeps {o s : State} (h : Keeps o s) (value : BitVec 32) :
    KeepsOut o (execCommitCancel value s) := by
  unfold execCommitCancel
  refine .next ?_
  try dsimp only
  repeat' first
    | with_reducible assumption
    | with_reducible apply State.writeCommitCtrl_keeps

theorem execImageCommit_keeps {o s : State} (h : Keeps o s) :
    KeepsOut o (execImageCommit s) := by
  unfold execImageCommit
  refine .next ?_
  try dsimp only
  repeat' first
    | with_reducible assumption
    | with_reducible apply State.commitDue_keeps

end Sys2Proof.Machine
end

