-- ==== Sys2Proof/Laws/KeepsFaults.lean ====
section
/-! SUPPORT. Machine/Faults.lean keeps the queue and the canonical form of the stores. -/

namespace Sys2Proof.Machine

theorem State.showErr_keeps {o s : State} (h : Keeps o s) :
    Keeps o (State.showErr s) := by
  unfold State.showErr
  try dsimp only
  repeat' first
    | with_reducible assumption
    | with_reducible apply State.setFld_keeps

theorem State.errPulse_keeps {o s : State} (h : Keeps o s) (sev : Nat) :
    Keeps o (State.errPulse s sev) := by
  unfold State.errPulse
  try dsimp only
  repeat' first
    | with_reducible assumption
    | with_reducible apply Keeps.ite
    | with_reducible apply State.setFld_keeps
    | with_reducible apply State.showErr_keeps
    | split
    | simp only [Keeps.mk_iff]

theorem State.holdPort_keeps {o s : State} (h : Keeps o s) (x : Nat) :
    Keeps o (State.holdPort s x) := by
  unfold State.holdPort
  try dsimp only
  repeat' first
    | with_reducible assumption
    | intro _
    | with_reducible apply Keeps.ite
    | with_reducible apply State.onPort_keeps
    | with_reducible apply State.portDown_keeps
    | with_reducible apply State.linkDown_keeps
    | split
    | simp only [Keeps.mk_iff]
    | refine Keeps.of_pair (by with_reducible assumption) ?_
    | dsimp only

theorem State.containPorts_keeps {o s : State} (h : Keeps o s) (xs : List Nat) :
    Keeps o (State.containPorts s xs) := by
  unfold State.containPorts
  try dsimp only
  repeat' first
    | with_reducible assumption
    | intro _
    | with_reducible apply State.holdPort_keeps
    | with_reducible apply State.abortAll_keeps
    | with_reducible apply Keeps.foldl

theorem State.contain_keeps {o s : State} (h : Keeps o s) (i : Nat) (inst : Nat) :
    Keeps o (State.contain s i inst) := by
  unfold State.contain
  try dsimp only
  repeat' first
    | with_reducible assumption
    | intro _
    | with_reducible apply Keeps.ite
    | with_reducible apply State.containPorts_keeps
    | with_reducible apply State.abortAll_keeps
    | with_reducible apply State.run_keeps
    | with_reducible apply State.containCore_keeps
    | with_reducible apply State.abortCtx_keeps
    | split
    | simp only [Keeps.mk_iff]
    | refine Keeps.of_pair (by with_reducible assumption) ?_
    | dsimp only

theorem State.freeCore_keeps {o s : State} (h : Keeps o s) (n : Nat) :
    Keeps o (State.freeCore s n) := by
  unfold State.freeCore
  try dsimp only
  repeat' first
    | with_reducible assumption
    | with_reducible apply Keeps.ite
    | with_reducible apply State.leaveProgram_keeps
    | split

theorem State.freeSlice_keeps {o s : State} (h : Keeps o s) (n : Nat) :
    Keeps o (State.freeSlice s n) := by
  unfold State.freeSlice
  try dsimp only
  repeat' first
    | with_reducible assumption
    | with_reducible apply Keeps.ite
    | with_reducible apply State.setFld_keeps
    | split

theorem State.runHold_keeps {o s : State} (h : Keeps o s) (xs : List Nat) :
    Keeps o (State.runHold s xs) := by
  unfold State.runHold
  try dsimp only
  repeat' first
    | with_reducible assumption
    | intro _
    | with_reducible apply State.setHello_keeps
    | with_reducible apply Keeps.foldl
    | with_reducible apply Keeps.foldl_pair
    | simp only [Keeps.mk_iff]
    | refine Keeps.of_pair (by with_reducible assumption) ?_
    | dsimp only

theorem State.release_keeps {o s : State} (h : Keeps o s) (i : Nat) :
    Keeps o (State.release s i) := by
  unfold State.release
  try dsimp only
  repeat' first
    | with_reducible assumption
    | intro _
    | with_reducible apply Keeps.ite
    | with_reducible apply State.freeCore_keeps
    | with_reducible apply State.freeSlice_keeps
    | with_reducible apply State.runHold_keeps
    | with_reducible apply Keeps.foldl
    | with_reducible apply Keeps.foldl_pair
    | split
    | simp only [Keeps.mk_iff]
    | refine Keeps.of_pair (by with_reducible assumption) ?_
    | dsimp only

theorem State.enterSafe_keeps {o s : State} (h : Keeps o s) (i : Nat) :
    Keeps o (State.enterSafe s i) := by
  unfold State.enterSafe
  try dsimp only
  repeat' first
    | with_reducible assumption
    | intro _
    | with_reducible apply Keeps.ite
    | with_reducible apply State.setFld_keeps
    | with_reducible apply State.holdPort_keeps
    | with_reducible apply State.containCore_keeps
    | with_reducible apply State.abortAll_keeps
    | with_reducible apply State.showErr_keeps
    | with_reducible apply Keeps.foldl
    | split

theorem State.exitSafe_keeps {o s : State} (h : Keeps o s) :
    Keeps o (State.exitSafe s) := by
  unfold State.exitSafe
  try dsimp only
  repeat' first
    | with_reducible assumption
    | intro _
    | with_reducible apply Keeps.ite
    | with_reducible apply State.setFld_keeps
    | with_reducible apply State.showErr_keeps
    | with_reducible apply State.freeCore_keeps
    | with_reducible apply State.runHold_keeps
    | with_reducible apply Keeps.foldl
    | with_reducible apply Keeps.foldl_pair
    | split
    | simp only [Keeps.mk_iff]
    | refine Keeps.of_pair (by with_reducible assumption) ?_
    | dsimp only

theorem State.showFill_keeps {o s : State} (h : Keeps o s) :
    Keeps o (State.showFill s) := by
  unfold State.showFill
  try dsimp only
  repeat' first
    | with_reducible assumption
    | with_reducible apply State.setFld_keeps
    | split

theorem State.vector8_keeps {o s : State} (h : Keeps o s) :
    Keeps o (State.vector8 s) := by
  unfold State.vector8
  try dsimp only
  repeat' first
    | with_reducible assumption
    | with_reducible apply Keeps.ite
    | with_reducible apply State.emit_keeps
    | split

theorem State.createEntry_keeps {o s : State} (h : Keeps o s) (e : Event) :
    Keeps o (State.createEntry s e) := by
  unfold State.createEntry
  try dsimp only
  repeat' first
    | with_reducible assumption
    | with_reducible apply Keeps.ite
    | with_reducible apply State.drop_keeps
    | with_reducible apply State.bump_keeps
    | with_reducible apply State.wrap_keeps
    | with_reducible apply State.showFill_keeps
    | with_reducible apply State.vector8_keeps
    | split
    | simp only [Keeps.mk_iff]

theorem State.queueEvent_keeps {o s : State} (h : Keeps o s) (e : Event) :
    Keeps o (State.queueEvent s e) := by
  unfold State.queueEvent
  try dsimp only
  repeat' first
    | with_reducible assumption
    | with_reducible apply Keeps.ite
    | with_reducible apply State.createEntry_keeps
    | with_reducible apply State.bump_keeps
    | split
    | simp only [Keeps.mk_iff]

theorem State.eventTick_keeps {o s : State} (h : Keeps o s) :
    Keeps o (State.eventTick s) := by
  unfold State.eventTick
  try dsimp only
  repeat' first
    | with_reducible assumption
    | intro _
    | with_reducible apply State.drop_keeps
    | with_reducible apply State.createEntry_keeps
    | with_reducible apply Keeps.foldl
    | simp only [Keeps.mk_iff]

theorem State.arrive_keeps {o s : State} (h : Keeps o s) (r : Report) (reraise : Bool) :
    Keeps o (State.arrive s r reraise) := by
  unfold State.arrive
  try dsimp only
  repeat' first
    | with_reducible assumption
    | with_reducible apply Keeps.ite
    | with_reducible apply State.setFld_keeps
    | with_reducible apply State.bump_keeps
    | with_reducible apply State.tick_keeps
    | with_reducible apply State.errPulse_keeps
    | with_reducible apply State.enterSafe_keeps
    | with_reducible apply State.contain_keeps
    | with_reducible apply State.queueEvent_keeps
    | split
    | simp only [Keeps.mk_iff]

theorem State.deliverRaise_keeps {o s : State} (h : Keeps o s) :
    Keeps o (State.deliverRaise s) := by
  unfold State.deliverRaise
  try dsimp only
  repeat' first
    | with_reducible assumption
    | with_reducible apply State.arrive_keeps
    | split
    | simp only [Keeps.mk_iff]

theorem State.clearSource_keeps {o s : State} (h : Keeps o s) (i : Nat) :
    Keeps o (State.clearSource s i) := by
  unfold State.clearSource
  try dsimp only
  repeat' first
    | with_reducible assumption
    | with_reducible apply Keeps.ite
    | with_reducible apply State.setFld_keeps
    | with_reducible apply State.release_keeps
    | with_reducible apply State.arrive_keeps
    | split

theorem State.clearSources_keeps {o s : State} (h : Keeps o s) (mask : Nat) :
    Keeps o (State.clearSources s mask) := by
  unfold State.clearSources
  try dsimp only
  repeat' first
    | with_reducible assumption
    | intro _
    | with_reducible apply State.clearSource_keeps
    | with_reducible apply Keeps.foldl

theorem State.rewrote_keeps {o s : State} (h : Keeps o s) (k : Nat) :
    Keeps o (State.rewrote s k) := by
  unfold State.rewrote
  try dsimp only
  repeat' first
    | with_reducible assumption
    | with_reducible apply Keeps.ite
    | split
    | simp only [Keeps.mk_iff]

theorem State.writeSev_keeps {o s : State} (h : Keeps o s) (k : Nat) (v : Nat) :
    Keeps o (State.writeSev s k v) := by
  unfold State.writeSev
  try dsimp only
  repeat' first
    | with_reducible assumption
    | intro _
    | with_reducible apply Keeps.ite
    | with_reducible apply State.wr_keeps
    | with_reducible apply State.rewrote_keeps
    | split
    | simp only [Keeps.mk_iff]

theorem State.writeErr_keeps {o s : State} (h : Keeps o s) (v : Nat) :
    Keeps o (State.writeErr s v) := by
  unfold State.writeErr
  try dsimp only
  repeat' first
    | with_reducible assumption
    | with_reducible apply State.setFld_keeps
    | with_reducible apply State.showErr_keeps
    | with_reducible apply State.rewrote_keeps

theorem State.writeInj_keeps {o s : State} (h : Keeps o s) (v : Nat) :
    Keeps o (State.writeInj s v) := by
  unfold State.writeInj
  try dsimp only
  repeat' first
    | with_reducible assumption
    | with_reducible apply Keeps.ite
    | with_reducible apply State.setFld_keeps
    | split
    | simp only [Keeps.mk_iff]

theorem State.checkSelf_keeps {o s : State} (h : Keeps o s) :
    Keeps o (State.checkSelf s) := by
  unfold State.checkSelf
  try dsimp only
  repeat' first
    | with_reducible assumption
    | with_reducible apply Keeps.ite
    | with_reducible apply State.injectSpent_keeps
    | with_reducible apply State.report_keeps
    | split

theorem State.readFifo_keeps {o s : State} (h : Keeps o s) :
    Keeps o (State.readFifo s) := by
  unfold State.readFifo
  try dsimp only
  repeat' first
    | with_reducible assumption
    | with_reducible apply State.injectSpent_keeps
    | with_reducible apply State.bump_keeps
    | with_reducible apply State.report_keeps
    | split

theorem State.evtRead_keeps {o s : State} (h : Keeps o s) (c : TakenX) :
    Keeps o (State.evtRead s c) := by
  unfold State.evtRead
  try dsimp only
  repeat' first
    | with_reducible assumption
    | intro _
    | with_reducible apply Keeps.ite
    | with_reducible apply State.respond_keeps
    | with_reducible apply State.readFifo_keeps
    | split

theorem State.evtAck_keeps {o s : State} (h : Keeps o s) (c : TakenX) :
    Keeps o (State.evtAck s c) := by
  unfold State.evtAck
  try dsimp only
  repeat' first
    | with_reducible assumption
    | intro _
    | with_reducible apply Keeps.ite
    | with_reducible apply State.respond_keeps
    | with_reducible apply State.showFill_keeps
    | with_reducible apply State.vector8_keeps
    | split
    | simp only [Keeps.mk_iff]

theorem execFaultRaise_keeps {o s0 : State} (h : Keeps o s0) (fault : FaultOp) :
    KeepsOut o (execFaultRaise fault s0) := by
  unfold execFaultRaise
  refine .next ?_
  try dsimp only
  repeat' first
    | with_reducible assumption
    | intro _
    | with_reducible apply Keeps.ite
    | with_reducible apply State.upsetWord_keeps
    | with_reducible apply State.deliverRaise_keeps
    | with_reducible apply State.bump_keeps
    | with_reducible apply State.arrive_keeps
    | split
    | simp only [Keeps.mk_iff]
    | refine Keeps.of_pair (by with_reducible assumption) ?_
    | dsimp only

theorem execFcStatClear_keeps {o s : State} (h : Keeps o s) (mask : BitVec 64) :
    KeepsOut o (execFcStatClear mask s) := by
  unfold execFcStatClear
  refine .next ?_
  try dsimp only
  repeat' first
    | with_reducible assumption
    | with_reducible apply State.clearSources_keeps

theorem execSafeExit_keeps {o s : State} (h : Keeps o s) :
    KeepsOut o (execSafeExit s) := by
  unfold execSafeExit
  refine .next ?_
  try dsimp only
  repeat' first
    | with_reducible assumption
    | with_reducible apply State.exitSafe_keeps

theorem execSevWrite_keeps {o s : State} (h : Keeps o s) (k : Nat) (value : BitVec 32) :
    KeepsOut o (execSevWrite k value s) := by
  unfold execSevWrite
  refine .next ?_
  try dsimp only
  repeat' first
    | with_reducible assumption
    | with_reducible apply State.writeSev_keeps

theorem execFcErrWrite_keeps {o s : State} (h : Keeps o s) (value : BitVec 32) :
    KeepsOut o (execFcErrWrite value s) := by
  unfold execFcErrWrite
  refine .next ?_
  try dsimp only
  repeat' first
    | with_reducible assumption
    | with_reducible apply State.writeErr_keeps

theorem execErrPulseEnd_keeps {o s : State} (h : Keeps o s) :
    KeepsOut o (execErrPulseEnd s) := by
  unfold execErrPulseEnd
  refine .next ?_
  try dsimp only
  repeat' first
    | with_reducible assumption
    | with_reducible apply Keeps.ite
    | with_reducible apply State.setFld_keeps
    | with_reducible apply State.showErr_keeps
    | split

theorem execFcInjGo_keeps {o s : State} (h : Keeps o s) (value : BitVec 32) :
    KeepsOut o (execFcInjGo value s) := by
  unfold execFcInjGo
  refine .next ?_
  try dsimp only
  repeat' first
    | with_reducible assumption
    | with_reducible apply State.writeInj_keeps

theorem execEvtRead_keeps {o s : State} (h : Keeps o s) :
    KeepsOut o (execEvtRead s) := by
  unfold execEvtRead
  refine .next ?_
  try dsimp only
  repeat' first
    | with_reducible assumption
    | intro _
    | with_reducible apply State.run_keeps
    | with_reducible apply State.evtRead_keeps

theorem execEvtAck_keeps {o s : State} (h : Keeps o s) :
    KeepsOut o (execEvtAck s) := by
  unfold execEvtAck
  refine .next ?_
  try dsimp only
  repeat' first
    | with_reducible assumption
    | intro _
    | with_reducible apply State.run_keeps
    | with_reducible apply State.evtAck_keeps

end Sys2Proof.Machine
end

