-- ==== Sys2Proof/Laws/KeepsRegs.lean ====
section
/-! SUPPORT. Machine/Regs.lean keeps the queue and the canonical form of the stores. -/

namespace Sys2Proof.Machine

theorem State.plainWrite_keeps {o s : State} (h : Keeps o s) (r : RegName) (v : Nat) (i : Nat) (j : Nat) (k : Nat) :
    Keeps o (State.plainWrite s r v i j k) := by
  unfold State.plainWrite
  try dsimp only
  repeat' first
    | with_reducible assumption
    | with_reducible apply Keeps.ite
    | with_reducible apply State.wr_keeps
    | with_reducible apply State.wrShadow_keeps
    | split

end Sys2Proof.Machine
end

