-- ==== Sys2Proof/Laws/KeepsPower.lean ====
section
/-! SUPPORT. Machine/Power.lean keeps the queue and the canonical form of the stores. -/

namespace Sys2Proof.Machine

theorem State.setSliceState_keeps {o s : State} (h : Keeps o s) (n : Nat) (v : Nat) :
    Keeps o (State.setSliceState s n v) := by
  unfold State.setSliceState
  try dsimp only
  repeat' first
    | with_reducible assumption
    | with_reducible apply State.setFld_keeps

theorem State.setRail_keeps {o s : State} (h : Keeps o s) (r : Nat) (v : Nat) :
    Keeps o (State.setRail s r v) := by
  unfold State.setRail
  try dsimp only
  repeat' first
    | with_reducible assumption
    | with_reducible apply State.setFld_keeps

theorem State.retarget_keeps {o s : State} (h : Keeps o s) (n : Nat) (at_ : Nat) :
    Keeps o (State.retarget s n at_) := by
  unfold State.retarget
  try dsimp only
  repeat' first
    | with_reducible assumption
    | with_reducible apply Keeps.ite
    | split
    | simp only [Keeps.mk_iff]

theorem State.switchLevel_keeps {o s : State} (h : Keeps o s) (n : Nat) (settled : Nat) :
    Keeps o (State.switchLevel s n settled) := by
  unfold State.switchLevel
  try dsimp only
  repeat' first
    | with_reducible assumption
    | with_reducible apply Keeps.ite
    | with_reducible apply State.setFld_keeps
    | with_reducible apply State.bump_keeps
    | with_reducible apply State.retarget_keeps
    | split
    | simp only [Keeps.mk_iff]

theorem State.startDrain_keeps {o s : State} (h : Keeps o s) (n : Nat) (target : Nat) :
    Keeps o (State.startDrain s n target) := by
  unfold State.startDrain
  try dsimp only
  repeat' first
    | with_reducible assumption
    | intro _
    | with_reducible apply State.setSlice_keeps
    | with_reducible apply State.setFld_keeps
    | with_reducible apply State.setSliceState_keeps
    | simp only [Keeps.mk_iff]
    | refine Keeps.of_pair (by with_reducible assumption) ?_
    | dsimp only

theorem State.dropSlice_keeps {o s : State} (h : Keeps o s) (n : Nat) (counted : Bool) :
    Keeps o (State.dropSlice s n counted).1 := by
  unfold State.dropSlice
  try dsimp only
  repeat' first
    | with_reducible assumption
    | intro _
    | with_reducible apply Keeps.ite
    | with_reducible apply State.wrap_keeps
    | with_reducible apply State.freeWhere_keeps
    | with_reducible apply State.showStaging_keeps
    | with_reducible apply State.bump_keeps
    | with_reducible apply Keeps.foldl
    | with_reducible apply Keeps.foldl_pair
    | split
    | simp only [Keeps.mk_iff]
    | refine Keeps.of_pair (by with_reducible assumption) ?_
    | dsimp only

theorem State.sleepCore_keeps {o s : State} (h : Keeps o s) (n : Nat) :
    Keeps o (State.sleepCore s n) := by
  unfold State.sleepCore
  try dsimp only
  repeat' first
    | with_reducible assumption
    | intro _
    | with_reducible apply Keeps.ite
    | with_reducible apply State.run_keeps
    | with_reducible apply State.sleepHalt_keeps
    | with_reducible apply State.abortCtx_keeps
    | split
    | simp only [Keeps.mk_iff]
    | refine Keeps.of_pair (by with_reducible assumption) ?_
    | dsimp only

theorem State.goDown_keeps {o s : State} (h : Keeps o s) (n : Nat) (target : Nat) (early : Bool) :
    Keeps o (State.goDown s n target early) := by
  unfold State.goDown
  try dsimp only
  repeat' first
    | with_reducible assumption
    | intro _
    | with_reducible apply Keeps.ite
    | with_reducible apply State.sleepCore_keeps
    | with_reducible apply State.setFld_keeps
    | with_reducible apply State.setSliceState_keeps
    | with_reducible apply State.offCore_keeps
    | with_reducible apply State.sendDown_keeps
    | with_reducible apply State.portDown_keeps
    | with_reducible apply State.setRail_keeps
    | with_reducible apply Keeps.foldl
    | with_reducible apply Keeps.foldl_pair
    | split
    | simp only [Keeps.mk_iff]
    | refine Keeps.of_pair (by with_reducible assumption) ?_
    | dsimp only

theorem State.deadline_keeps {o s : State} (h : Keeps o s) (n : Nat) :
    Keeps o (State.deadline s n) := by
  unfold State.deadline
  try dsimp only
  repeat' first
    | with_reducible assumption
    | intro _
    | with_reducible apply Keeps.ite
    | with_reducible apply State.goDown_keeps
    | with_reducible apply State.dropSlice_keeps
    | with_reducible apply State.setFld_keeps
    | split
    | simp only [Keeps.mk_iff]
    | refine Keeps.of_pair (by with_reducible assumption) ?_
    | dsimp only

theorem State.beginSleep_keeps {o s : State} (h : Keeps o s) (n : Nat) (target : Nat) :
    Keeps o (State.beginSleep s n target) := by
  unfold State.beginSleep
  try dsimp only
  repeat' first
    | with_reducible assumption
    | with_reducible apply Keeps.ite
    | with_reducible apply State.startDrain_keeps
    | with_reducible apply State.dropSlice_keeps
    | with_reducible apply State.goDown_keeps
    | with_reducible apply State.setRail_keeps
    | with_reducible apply State.setFld_keeps
    | with_reducible apply State.setSliceState_keeps
    | split
    | refine Keeps.of_pair (by with_reducible assumption) ?_

theorem State.startWake_keeps {o s : State} (h : Keeps o s) (n : Nat) :
    Keeps o (State.startWake s n) := by
  unfold State.startWake
  try dsimp only
  repeat' first
    | with_reducible assumption
    | intro _
    | with_reducible apply Keeps.ite
    | with_reducible apply State.setSliceState_keeps
    | with_reducible apply State.setRail_keeps
    | split
    | simp only [Keeps.mk_iff]
    | refine Keeps.of_pair (by with_reducible assumption) ?_
    | dsimp only

theorem State.unsleep_keeps {o s : State} (h : Keeps o s) (n : Nat) :
    Keeps o (State.unsleep s n) := by
  unfold State.unsleep
  try dsimp only
  repeat' first
    | with_reducible assumption
    | intro _
    | with_reducible apply Keeps.ite
    | with_reducible apply State.run_keeps
    | with_reducible apply State.setCore_keeps
    | with_reducible apply State.setFld_keeps
    | with_reducible apply State.leaveProgram_keeps
    | split
    | simp only [Keeps.mk_iff]
    | refine Keeps.of_pair (by with_reducible assumption) ?_
    | dsimp only

theorem State.returnWithheld_keeps {o s : State} (h : Keeps o s) (x : Nat) :
    Keeps o (State.returnWithheld s x) := by
  unfold State.returnWithheld
  try dsimp only
  repeat' first
    | with_reducible assumption
    | intro _
    | with_reducible apply State.returnCredit_keeps
    | with_reducible apply Keeps.foldl

theorem State.startPorts_keeps {o s : State} (h : Keeps o s) (n : Nat) :
    Keeps o (State.startPorts s n) := by
  unfold State.startPorts
  try dsimp only
  repeat' first
    | with_reducible assumption
    | intro _
    | with_reducible apply State.enablePort_keeps
    | with_reducible apply Keeps.foldl

theorem State.buildPools_keeps {o s : State} (h : Keeps o s) (n : Nat) :
    Keeps o (State.buildPools s n) := by
  unfold State.buildPools
  try dsimp only
  repeat' first
    | with_reducible assumption
    | intro _
    | with_reducible apply State.buildPool_keeps
    | with_reducible apply Keeps.foldl

theorem State.wakeDone_keeps {o s : State} (h : Keeps o s) (n : Nat) :
    Keeps o (State.wakeDone s n) := by
  unfold State.wakeDone
  try dsimp only
  repeat' first
    | with_reducible assumption
    | intro _
    | with_reducible apply Keeps.ite
    | with_reducible apply State.setFld_keeps
    | with_reducible apply State.setSliceState_keeps
    | with_reducible apply State.returnWithheld_keeps
    | with_reducible apply State.unsleep_keeps
    | with_reducible apply State.buildPools_keeps
    | with_reducible apply State.coreOn_keeps
    | with_reducible apply State.zeroSram_keeps
    | with_reducible apply State.clearQueueCounters_keeps
    | with_reducible apply State.fillSlice_keeps
    | with_reducible apply State.startPorts_keeps
    | with_reducible apply State.retarget_keeps
    | with_reducible apply Keeps.foldl
    | with_reducible apply Keeps.foldl_pair
    | split
    | simp only [Keeps.mk_iff]
    | refine Keeps.of_pair (by with_reducible assumption) ?_
    | dsimp only

theorem State.showCap_keeps {o s : State} (h : Keeps o s) :
    Keeps o (State.showCap s) := by
  unfold State.showCap
  try dsimp only
  repeat' first
    | with_reducible assumption
    | intro _
    | with_reducible apply Keeps.ite
    | with_reducible apply State.setFld_keeps
    | with_reducible apply State.report_keeps
    | split

theorem State.commitSlice_keeps {o s : State} (h : Keeps o s) (n : Nat) :
    Keeps o (State.commitSlice s n) := by
  unfold State.commitSlice
  try dsimp only
  repeat' first
    | with_reducible assumption
    | intro _
    | with_reducible apply Keeps.ite
    | with_reducible apply State.setFld_keeps
    | with_reducible apply State.bump_keeps
    | with_reducible apply State.commitShadow_keeps
    | with_reducible apply State.retarget_keeps
    | with_reducible apply State.beginSleep_keeps
    | split
    | simp only [Keeps.mk_iff]

theorem State.commitPower_keeps {o s : State} (h : Keeps o s) (go : Nat) :
    Keeps o (State.commitPower s go) := by
  unfold State.commitPower
  try dsimp only
  repeat' first
    | with_reducible assumption
    | intro _
    | with_reducible apply State.commitSlice_keeps
    | with_reducible apply State.showCap_keeps
    | with_reducible apply Keeps.foldl

theorem State.showVin_keeps {o s : State} (h : Keeps o s) (v : VinOp) :
    Keeps o (State.showVin s v) := by
  unfold State.showVin
  try dsimp only
  repeat' first
    | with_reducible assumption
    | with_reducible apply State.setFld_keeps

theorem State.setCap_keeps {o s : State} (h : Keeps o s) (n : Nat) (level : Nat) :
    Keeps o (State.setCap s n level) := by
  unfold State.setCap
  try dsimp only
  repeat' first
    | with_reducible assumption
    | with_reducible apply Keeps.ite
    | with_reducible apply State.setFld_keeps
    | with_reducible apply State.bump_keeps
    | with_reducible apply State.retarget_keeps
    | split

theorem State.lowerCap_keeps {o s : State} (h : Keeps o s) :
    Keeps o (State.lowerCap s) := by
  unfold State.lowerCap
  try dsimp only
  repeat' first
    | with_reducible assumption
    | with_reducible apply Keeps.ite
    | with_reducible apply State.setFld_keeps
    | with_reducible apply State.report_keeps
    | with_reducible apply State.setCap_keeps
    | with_reducible apply State.showCap_keeps
    | split

theorem State.raiseCap_keeps {o s : State} (h : Keeps o s) :
    Keeps o (State.raiseCap s) := by
  unfold State.raiseCap
  try dsimp only
  repeat' first
    | with_reducible assumption
    | with_reducible apply Keeps.ite
    | with_reducible apply State.setCap_keeps
    | with_reducible apply State.setFld_keeps
    | with_reducible apply State.showCap_keeps
    | split

theorem State.fastTrip_keeps {o s : State} (h : Keeps o s) (v : VinOp) :
    Keeps o (State.fastTrip s v) := by
  unfold State.fastTrip
  try dsimp only
  repeat' first
    | with_reducible assumption
    | intro _
    | with_reducible apply Keeps.ite
    | with_reducible apply State.setCap_keeps
    | with_reducible apply State.setFld_keeps
    | with_reducible apply State.showCap_keeps
    | with_reducible apply Keeps.foldl
    | split

theorem State.thermLimit_keeps {o s : State} (h : Keeps o s) (n : Nat) (t : Nat) :
    Keeps o (State.thermLimit s n t) := by
  unfold State.thermLimit
  try dsimp only
  repeat' first
    | with_reducible assumption
    | with_reducible apply Keeps.ite
    | with_reducible apply State.setFld_keeps
    | with_reducible apply State.retarget_keeps
    | split
    | simp only [Keeps.mk_iff]

theorem State.sampleTemp_keeps {o s : State} (h : Keeps o s) (n : Nat) (t : Nat) :
    Keeps o (State.sampleTemp s n t) := by
  unfold State.sampleTemp
  try dsimp only
  repeat' first
    | with_reducible assumption
    | with_reducible apply Keeps.ite
    | with_reducible apply State.setFld_keeps
    | with_reducible apply State.report_keeps
    | with_reducible apply State.thermLimit_keeps
    | split

theorem execSliceDrainStart_keeps {o s : State} (h : Keeps o s) (n : Nat) :
    KeepsOut o (execSliceDrainStart n s) := by
  unfold execSliceDrainStart
  refine .next ?_
  try dsimp only
  repeat' first
    | with_reducible assumption
    | with_reducible apply Keeps.ite
    | with_reducible apply State.beginSleep_keeps
    | split
    | simp only [Keeps.mk_iff]

theorem execSliceEmpty_keeps {o s : State} (h : Keeps o s) (n : Nat) :
    KeepsOut o (execSliceEmpty n s) := by
  unfold execSliceEmpty
  refine .next ?_
  try dsimp only
  repeat' first
    | with_reducible assumption
    | with_reducible apply Keeps.ite
    | with_reducible apply State.goDown_keeps
    | split

theorem execDrainDeadline_keeps {o s : State} (h : Keeps o s) (n : Nat) :
    KeepsOut o (execDrainDeadline n s) := by
  unfold execDrainDeadline
  refine .next ?_
  try dsimp only
  repeat' first
    | with_reducible assumption
    | with_reducible apply State.deadline_keeps

theorem execPwrCommit_keeps {o s : State} (h : Keeps o s) (go : BitVec 16) :
    KeepsOut o (execPwrCommit go s) := by
  unfold execPwrCommit
  refine .next ?_
  try dsimp only
  repeat' first
    | with_reducible assumption
    | with_reducible apply State.commitPower_keeps

theorem execPlevelSwitch_keeps {o s : State} (h : Keeps o s) (n : Nat) (settled : BitVec 64) :
    KeepsOut o (execPlevelSwitch n settled s) := by
  unfold execPlevelSwitch
  refine .next ?_
  try dsimp only
  repeat' first
    | with_reducible assumption
    | with_reducible apply State.switchLevel_keeps

theorem execCapLower_keeps {o s : State} (h : Keeps o s) (vin : VinOp) :
    KeepsOut o (execCapLower vin s) := by
  unfold execCapLower
  refine .next ?_
  try dsimp only
  repeat' first
    | with_reducible assumption
    | with_reducible apply State.showVin_keeps
    | with_reducible apply State.lowerCap_keeps

theorem execFastTrip_keeps {o s : State} (h : Keeps o s) (vin : VinOp) :
    KeepsOut o (execFastTrip vin s) := by
  unfold execFastTrip
  refine .next ?_
  try dsimp only
  repeat' first
    | with_reducible assumption
    | with_reducible apply State.showVin_keeps
    | with_reducible apply State.fastTrip_keeps

theorem execCapRaise_keeps {o s : State} (h : Keeps o s) (vin : VinOp) :
    KeepsOut o (execCapRaise vin s) := by
  unfold execCapRaise
  refine .next ?_
  try dsimp only
  repeat' first
    | with_reducible assumption
    | with_reducible apply State.showVin_keeps
    | with_reducible apply State.raiseCap_keeps

theorem execSliceWake_keeps {o s : State} (h : Keeps o s) (n : Nat) :
    KeepsOut o (execSliceWake n s) := by
  unfold execSliceWake
  refine .next ?_
  try dsimp only
  repeat' first
    | with_reducible assumption
    | with_reducible apply State.startWake_keeps

theorem execWakeComplete_keeps {o s : State} (h : Keeps o s) (n : Nat) :
    KeepsOut o (execWakeComplete n s) := by
  unfold execWakeComplete
  refine .next ?_
  try dsimp only
  repeat' first
    | with_reducible assumption
    | with_reducible apply State.wakeDone_keeps

theorem execCodeRegionReload_keeps {o s : State} (h : Keeps o s) (n : Nat) :
    KeepsOut o (execCodeRegionReload n s) := by
  unfold execCodeRegionReload
  refine .next ?_
  try dsimp only
  repeat' first
    | with_reducible assumption
    | intro _
    | with_reducible apply Keeps.ite
    | with_reducible apply State.loadCode_keeps
    | with_reducible apply State.coreOn_keeps
    | with_reducible apply Keeps.foldl
    | split

end Sys2Proof.Machine
end

