-- ==== Sys2Proof/Laws/KeepsTelemetry.lean ====
section
/-! SUPPORT. Machine/Telemetry.lean keeps the queue and the canonical form of the stores. -/

namespace Sys2Proof.Machine

theorem State.askSnapshot_keeps {o s : State} (h : Keeps o s) (c : TakenX) :
    Keeps o (State.askSnapshot s c) := by
  unfold State.askSnapshot
  try dsimp only
  repeat' first
    | with_reducible assumption
    | with_reducible apply Keeps.ite
    | with_reducible apply State.respond_keeps
    | with_reducible apply State.setFld_keeps
    | split
    | simp only [Keeps.mk_iff]

theorem State.capture_keeps {o s : State} (h : Keeps o s) :
    Keeps o (State.capture s) := by
  unfold State.capture
  try dsimp only
  repeat' first
    | with_reducible assumption
    | intro _
    | with_reducible apply Keeps.ite
    | with_reducible apply State.setFld_keeps
    | with_reducible apply State.wrap_keeps
    | with_reducible apply State.respond_keeps
    | split
    | simp only [Keeps.mk_iff]
    | refine Keeps.of_pair (by with_reducible assumption) ?_
    | dsimp only

theorem State.readSnapshot_keeps {o s : State} (h : Keeps o s) (c : TakenX) :
    Keeps o (State.readSnapshot s c) := by
  unfold State.readSnapshot
  try dsimp only
  repeat' first
    | with_reducible assumption
    | with_reducible apply Keeps.ite
    | with_reducible apply State.respond_keeps
    | split

theorem execTelSnapshot_keeps {o s : State} (h : Keeps o s) :
    KeepsOut o (execTelSnapshot s) := by
  unfold execTelSnapshot
  refine .next ?_
  try dsimp only
  repeat' first
    | with_reducible assumption
    | intro _
    | with_reducible apply State.run_keeps
    | with_reducible apply State.askSnapshot_keeps

theorem execSnapshotCapture_keeps {o s : State} (h : Keeps o s) :
    KeepsOut o (execSnapshotCapture s) := by
  unfold execSnapshotCapture
  refine .next ?_
  try dsimp only
  repeat' first
    | with_reducible assumption
    | with_reducible apply State.capture_keeps

theorem execTelRead_keeps {o s : State} (h : Keeps o s) :
    KeepsOut o (execTelRead s) := by
  unfold execTelRead
  refine .next ?_
  try dsimp only
  repeat' first
    | with_reducible assumption
    | intro _
    | with_reducible apply State.run_keeps
    | with_reducible apply State.readSnapshot_keeps

end Sys2Proof.Machine
end

