-- ==== Sys2Proof/Laws/KeepsResets.lean ====
section
/-! SUPPORT. Machine/Resets.lean keeps the queue and the canonical form of the stores. -/

namespace Sys2Proof.Machine

theorem State.afterReset_keeps {o s : State} (h : Keeps o s) (kept : Nat → Bool) : Keeps o (s.afterReset kept) := by
  unfold State.afterReset
  dsimp only
  apply setFld_keeps
  refine ⟨h.1, fun i => ⟨storeWf_append (hi := 0x400000) (storeWf_filter (h.2 i).1) State.reset_inv.1 (by decide) ?_, rfl, rfl⟩⟩
  intro e he
  have := (List.mem_filter.1 he).2
  simp only [Bool.and_eq_true, decide_eq_true_eq] at this
  exact this.2

theorem State.railOff_keeps {o s : State} (h : Keeps o s) (r : Nat) :
    Keeps o (State.railOff s r) := by
  unfold State.railOff
  try dsimp only
  repeat' first
    | with_reducible assumption
    | with_reducible apply State.wr_keeps

theorem State.railsOff_keeps {o s : State} (h : Keeps o s) (rs : List Nat) :
    Keeps o (State.railsOff s rs) := by
  unfold State.railsOff
  try dsimp only
  repeat' first
    | with_reducible assumption
    | intro _
    | with_reducible apply Keeps.ite
    | with_reducible apply State.railOff_keeps
    | with_reducible apply Keeps.foldl
    | split

theorem State.showRailFaults_keeps {o s : State} (h : Keeps o s) :
    Keeps o (State.showRailFaults s) := by
  unfold State.showRailFaults
  try dsimp only
  repeat' first
    | with_reducible assumption
    | intro _
    | with_reducible apply Keeps.ite
    | with_reducible apply State.setSliceState_keeps
    | with_reducible apply Keeps.foldl
    | split

theorem State.setSeq_keeps {o s : State} (h : Keeps o s) (v : Nat) :
    Keeps o (State.setSeq s v) := by
  unfold State.setSeq
  try dsimp only
  repeat' first
    | with_reducible assumption
    | with_reducible apply State.setFld_keeps

theorem State.noteCause_keeps {o s : State} (h : Keeps o s) (bit : Nat) :
    Keeps o (State.noteCause s bit) := by
  unfold State.noteCause
  try dsimp only
  repeat' first
    | with_reducible assumption
    | with_reducible apply State.wr_keeps

theorem State.logicOff_keeps {o s : State} (h : Keeps o s) (seq : Nat) :
    Keeps o (State.logicOff s seq) := by
  unfold State.logicOff
  try dsimp only
  repeat' first
    | with_reducible assumption
    | with_reducible apply State.afterReset_keeps
    | with_reducible apply State.railsOff_keeps
    | with_reducible apply State.setSeq_keeps

theorem State.powerOnReset_keeps {o s : State} (h : Keeps o s) (cause : Nat) (clearAll : Bool) :
    Keeps o (State.powerOnReset s cause clearAll) := by
  unfold State.powerOnReset
  try dsimp only
  repeat' first
    | with_reducible assumption
    | intro _
    | with_reducible apply Keeps.ite
    | with_reducible apply State.afterReset_keeps
    | with_reducible apply State.emit_keeps
    | with_reducible apply State.railOff_keeps
    | with_reducible apply State.noteCause_keeps
    | with_reducible apply State.setFld_keeps
    | with_reducible apply State.setSeq_keeps
    | with_reducible apply State.showRailFaults_keeps
    | with_reducible apply State.setRail_keeps
    | with_reducible apply Keeps.foldl
    | with_reducible apply Keeps.foldl_pair
    | split
    | simp only [Keeps.mk_iff]
    | refine Keeps.of_pair (by with_reducible assumption) ?_
    | dsimp only

theorem State.warmReset_keeps {o s : State} (h : Keeps o s) (cause : Nat) :
    Keeps o (State.warmReset s cause) := by
  unfold State.warmReset
  try dsimp only
  repeat' first
    | with_reducible assumption
    | intro _
    | with_reducible apply Keeps.ite
    | with_reducible apply State.afterReset_keeps
    | with_reducible apply State.emit_keeps
    | with_reducible apply State.railsOff_keeps
    | with_reducible apply State.setRail_keeps
    | with_reducible apply State.setFld_keeps
    | with_reducible apply State.noteCause_keeps
    | with_reducible apply State.setSeq_keeps
    | with_reducible apply State.showRailFaults_keeps
    | with_reducible apply Keeps.foldl
    | with_reducible apply Keeps.foldl_pair
    | split
    | simp only [Keeps.mk_iff]
    | refine Keeps.of_pair (by with_reducible assumption) ?_
    | dsimp only

theorem State.dropValidation_keeps {o s : State} (h : Keeps o s) :
    Keeps o (State.dropValidation s) := by
  unfold State.dropValidation
  try dsimp only
  repeat' first
    | with_reducible assumption
    | intro _
    | with_reducible apply Keeps.ite
    | with_reducible apply State.setFld_keeps
    | split
    | simp only [Keeps.mk_iff]
    | refine Keeps.of_pair (by with_reducible assumption) ?_
    | dsimp only

theorem State.mpReset_keeps {o s : State} (h : Keeps o s) (cause : Nat) :
    Keeps o (State.mpReset s cause) := by
  unfold State.mpReset
  try dsimp only
  repeat' first
    | with_reducible assumption
    | intro _
    | with_reducible apply State.respond_keeps
    | with_reducible apply State.dropValidation_keeps
    | with_reducible apply State.setFld_keeps
    | with_reducible apply State.noteCause_keeps
    | with_reducible apply Keeps.foldl
    | with_reducible apply Keeps.foldl_pair
    | simp only [Keeps.mk_iff]
    | refine Keeps.of_pair (by with_reducible assumption) ?_
    | dsimp only

theorem State.resetSliceRegs_keeps {o s : State} (h : Keeps o s) (n : Nat) : Keeps o (s.resetSliceRegs n) := by
  have key : ∀ (l : List (Nat × BitVec 64)), storeWf 0#64 l = true → ∀ (g : Nat × BitVec 64 → Option (Nat × BitVec 64)),
      (∀ e, g e = none ∨ g e = some e ∨ ∃ v, v ≠ 0#64 ∧ g e = some (e.1, v)) → storeWf 0#64 (l.filterMap g) = true := by
    intro l hl g hg
    refine storeWf_filterMap (fun e x he => ?_) hl
    rcases hg e with h1 | h1 | ⟨v, hv, h1⟩
    · rw [h1] at he; cases he
    · rw [h1] at he; cases he; exact ⟨rfl, id⟩
    · rw [h1] at he; cases he; exact ⟨rfl, fun _ => hv⟩
  refine ⟨h.1, fun i => ⟨key _ (h.2 i).1 _ fun e => ?_, key _ (h.2 i).2.1 _ fun e => ?_, (h.2 i).2.2⟩⟩
  all_goals
    split
    · dsimp only
      split <;> split
      all_goals first
        | exact .inl rfl
        | exact .inr (.inr ⟨_, ‹_›, rfl⟩)
    · exact .inr (.inl rfl)

theorem State.restoreShared_keeps {o s : State} (h : Keeps o s) (n : Nat) :
    Keeps o (State.restoreShared s n) := by
  unfold State.restoreShared
  try dsimp only
  repeat' first
    | with_reducible assumption
    | intro _
    | with_reducible apply State.setFld_keeps
    | with_reducible apply Keeps.foldl
    | with_reducible apply Keeps.foldl_pair
    | simp only [Keeps.mk_iff]
    | refine Keeps.of_pair (by with_reducible assumption) ?_
    | dsimp only

theorem State.resetSlice_keeps {o s : State} (h : Keeps o s) (n : Nat) :
    Keeps o (State.resetSlice s n) := by
  unfold State.resetSlice
  try dsimp only
  repeat' first
    | with_reducible assumption
    | intro _
    | with_reducible apply Keeps.ite
    | with_reducible apply State.abortAll_keeps
    | with_reducible apply State.dropSlice_keeps
    | with_reducible apply State.portDown_keeps
    | with_reducible apply State.offCore_keeps
    | with_reducible apply State.setPort_keeps
    | with_reducible apply State.resetSliceRegs_keeps
    | with_reducible apply State.restoreShared_keeps
    | with_reducible apply State.setRxLane_keeps
    | with_reducible apply State.setPcsLane_keeps
    | with_reducible apply State.setSlice_keeps
    | with_reducible apply State.setFld_keeps
    | with_reducible apply State.fillSlice_keeps
    | with_reducible apply State.buildPools_keeps
    | with_reducible apply Keeps.foldl
    | with_reducible apply Keeps.foldl_pair
    | split
    | simp only [Keeps.mk_iff]
    | refine Keeps.of_pair (by with_reducible assumption) ?_
    | dsimp only

theorem State.toS3_keeps {o s : State} (h : Keeps o s) (n : Nat) :
    Keeps o (State.toS3 s n) := by
  unfold State.toS3
  try dsimp only
  repeat' first
    | with_reducible assumption
    | intro _
    | with_reducible apply Keeps.ite
    | with_reducible apply State.railsOff_keeps
    | with_reducible apply State.setSliceState_keeps
    | split
    | simp only [Keeps.mk_iff]
    | refine Keeps.of_pair (by with_reducible assumption) ?_
    | dsimp only

theorem State.sliceReset_keeps {o s : State} (h : Keeps o s) (n : Nat) :
    Keeps o (State.sliceReset s n) := by
  unfold State.sliceReset
  try dsimp only
  repeat' first
    | with_reducible assumption
    | with_reducible apply State.resetSlice_keeps
    | with_reducible apply State.toS3_keeps
    | with_reducible apply State.noteCause_keeps
    | with_reducible apply State.setSliceState_keeps
    | with_reducible apply State.startPorts_keeps
    | split
    | simp only [Keeps.mk_iff]

theorem State.writeRst_keeps {o s : State} (h : Keeps o s) (v : Nat) :
    Keeps o (State.writeRst s v) := by
  unfold State.writeRst
  try dsimp only
  repeat' first
    | with_reducible assumption
    | intro _
    | with_reducible apply Keeps.ite
    | with_reducible apply Keeps.foldl
    | with_reducible apply Keeps.foldl_pair
    | split
    | simp only [Keeps.mk_iff]
    | refine Keeps.of_pair (by with_reducible assumption) ?_
    | dsimp only

theorem State.maskPort_keeps {o s : State} (h : Keeps o s) (x : Nat) :
    Keeps o (State.maskPort s x) := by
  unfold State.maskPort
  try dsimp only
  repeat' first
    | with_reducible assumption
    | intro _
    | with_reducible apply Keeps.ite
    | with_reducible apply State.onPort_keeps
    | with_reducible apply State.portDown_keeps
    | with_reducible apply State.linkDown_keeps
    | split
    | simp only [Keeps.mk_iff]
    | refine Keeps.of_pair (by with_reducible assumption) ?_
    | dsimp only

theorem State.maskCore_keeps {o s : State} (h : Keeps o s) (n : Nat) :
    Keeps o (State.maskCore s n) := by
  unfold State.maskCore
  try dsimp only
  repeat' first
    | with_reducible assumption
    | intro _
    | with_reducible apply State.abortCtx_keeps
    | with_reducible apply State.drainCore_keeps
    | with_reducible apply State.leaveProgram_keeps
    | with_reducible apply State.stopEngines_keeps
    | with_reducible apply State.setFld_keeps
    | split

theorem State.maskSlice_keeps {o s : State} (h : Keeps o s) (n : Nat) :
    Keeps o (State.maskSlice s n) := by
  unfold State.maskSlice
  try dsimp only
  repeat' first
    | with_reducible assumption
    | intro _
    | with_reducible apply State.toS3_keeps
    | with_reducible apply State.resetSlice_keeps
    | with_reducible apply State.noteCause_keeps
    | split
    | simp only [Keeps.mk_iff]
    | refine Keeps.of_pair (by with_reducible assumption) ?_
    | dsimp only

theorem State.writeMask32_keeps {o s : State} (h : Keeps o s) (r : RegName) (k v : Nat) (act : State → Nat → State)
    (hf : ∀ a n, Keeps o a → Keeps o (act a n)) : Keeps o (s.writeMask32 r k v act) := by
  unfold State.writeMask32
  dsimp only
  apply noteTerms_keeps
  apply showDisabled_keeps
  apply Keeps.foldl
  · exact wr_keeps h ..
  · intro a b ha
    exact hf _ _ ha

theorem execFmaskSliceWrite_keeps {o s : State} (h : Keeps o s) (value : BitVec 32) :
    KeepsOut o (execFmaskSliceWrite value s) := by
  unfold execFmaskSliceWrite
  refine .next ?_
  try dsimp only
  repeat' first
    | with_reducible assumption
    | intro _
    | with_reducible apply State.writeMask32_keeps
    | with_reducible apply State.maskSlice_keeps

theorem execFmaskPortWrite_keeps {o s : State} (h : Keeps o s) (k : Nat) (value : BitVec 32) :
    KeepsOut o (execFmaskPortWrite k value s) := by
  unfold execFmaskPortWrite
  refine .next ?_
  try dsimp only
  repeat' first
    | with_reducible assumption
    | intro _
    | with_reducible apply State.writeMask32_keeps
    | with_reducible apply State.maskPort_keeps

theorem execFmaskCoreWrite_keeps {o s : State} (h : Keeps o s) (k : Nat) (value : BitVec 32) :
    KeepsOut o (execFmaskCoreWrite k value s) := by
  unfold execFmaskCoreWrite
  refine .next ?_
  try dsimp only
  repeat' first
    | with_reducible assumption
    | intro _
    | with_reducible apply State.writeMask32_keeps
    | with_reducible apply State.maskCore_keeps

theorem execRstCmdWarm_keeps {o s : State} (h : Keeps o s) (value : BitVec 32) :
    KeepsOut o (execRstCmdWarm value s) := by
  unfold execRstCmdWarm
  refine .next ?_
  try dsimp only
  repeat' first
    | with_reducible assumption
    | with_reducible apply State.writeRst_keeps

theorem execRstCmdMp_keeps {o s : State} (h : Keeps o s) (value : BitVec 32) :
    KeepsOut o (execRstCmdMp value s) := by
  unfold execRstCmdMp
  refine .next ?_
  try dsimp only
  repeat' first
    | with_reducible assumption
    | with_reducible apply State.writeRst_keeps

theorem execRstCmdSlice_keeps {o s : State} (h : Keeps o s) (value : BitVec 32) :
    KeepsOut o (execRstCmdSlice value s) := by
  unfold execRstCmdSlice
  refine .next ?_
  try dsimp only
  repeat' first
    | with_reducible assumption
    | with_reducible apply State.writeRst_keeps

theorem execPowerOnReset_keeps {o s : State} (h : Keeps o s) :
    KeepsOut o (execPowerOnReset s) := by
  unfold execPowerOnReset
  refine .next ?_
  try dsimp only
  repeat' first
    | with_reducible assumption
    | with_reducible apply State.powerOnReset_keeps
    | split

theorem execDeviceWarmReset_keeps {o s : State} (h : Keeps o s) :
    KeepsOut o (execDeviceWarmReset s) := by
  unfold execDeviceWarmReset
  refine .next ?_
  try dsimp only
  repeat' first
    | with_reducible assumption
    | intro _
    | with_reducible apply Keeps.ite
    | with_reducible apply State.warmReset_keeps
    | split
    | simp only [Keeps.mk_iff]
    | refine Keeps.of_pair (by with_reducible assumption) ?_
    | dsimp only

theorem execSliceReset_keeps {o s : State} (h : Keeps o s) (n : Nat) :
    KeepsOut o (execSliceReset n s) := by
  unfold execSliceReset
  refine .next ?_
  try dsimp only
  repeat' first
    | with_reducible assumption
    | intro _
    | with_reducible apply Keeps.ite
    | with_reducible apply State.sliceReset_keeps
    | split
    | simp only [Keeps.mk_iff]
    | refine Keeps.of_pair (by with_reducible assumption) ?_
    | dsimp only

theorem execMpReset_keeps {o s : State} (h : Keeps o s) :
    KeepsOut o (execMpReset s) := by
  unfold execMpReset
  refine .next ?_
  try dsimp only
  repeat' first
    | with_reducible assumption
    | intro _
    | with_reducible apply Keeps.ite
    | with_reducible apply State.mpReset_keeps
    | split
    | simp only [Keeps.mk_iff]
    | refine Keeps.of_pair (by with_reducible assumption) ?_
    | dsimp only

theorem execWdtKick_keeps {o s : State} (h : Keeps o s) :
    KeepsOut o (execWdtKick s) := by
  unfold execWdtKick
  refine .next ?_
  try dsimp only
  repeat' first
    | with_reducible assumption
    | simp only [Keeps.mk_iff]

theorem execWdtExpiry_keeps {o s : State} (h : Keeps o s) :
    KeepsOut o (execWdtExpiry s) := by
  unfold execWdtExpiry
  refine .next ?_
  try dsimp only
  repeat' first
    | with_reducible assumption
    | with_reducible apply Keeps.ite
    | with_reducible apply State.report_keeps
    | with_reducible apply State.mpReset_keeps
    | split

end Sys2Proof.Machine
end

