-- ==== Sys2Proof/Laws/KeepsSupply.lean ====
section
/-! SUPPORT. Machine/Supply.lean keeps the queue and the canonical form of the stores. -/

namespace Sys2Proof.Machine

theorem State.loseSlice_keeps {o s : State} (h : Keeps o s) (n : Nat) :
    Keeps o (State.loseSlice s n) := by
  unfold State.loseSlice
  try dsimp only
  repeat' first
    | with_reducible assumption
    | intro _
    | with_reducible apply Keeps.ite
    | with_reducible apply State.abortAll_keeps
    | with_reducible apply State.railsOff_keeps
    | with_reducible apply State.dropSlice_keeps
    | with_reducible apply State.portDown_keeps
    | with_reducible apply State.offCore_keeps
    | with_reducible apply State.toS3_keeps
    | with_reducible apply State.setFld_keeps
    | with_reducible apply State.setSliceState_keeps
    | with_reducible apply State.report_keeps
    | with_reducible apply Keeps.foldl
    | with_reducible apply Keeps.foldl_pair
    | split
    | simp only [Keeps.mk_iff]
    | refine Keeps.of_pair (by with_reducible assumption) ?_
    | dsimp only

theorem State.latchRail_keeps {o s : State} (h : Keeps o s) (r : Nat) (kind : Nat) :
    Keeps o (State.latchRail s r kind) := by
  unfold State.latchRail
  try dsimp only
  repeat' first
    | with_reducible assumption
    | with_reducible apply Keeps.ite
    | with_reducible apply State.setRail_keeps
    | with_reducible apply State.setFld_keeps
    | with_reducible apply State.bump_keeps
    | with_reducible apply State.loseSlice_keeps
    | with_reducible apply State.setSeq_keeps
    | with_reducible apply State.report_keeps
    | with_reducible apply State.logicOff_keeps
    | split

theorem State.railUp_keeps {o s : State} (h : Keeps o s) (r : Nat) (m : RailOp) :
    Keeps o (State.railUp s r m) := by
  unfold State.railUp
  try dsimp only
  repeat' first
    | with_reducible assumption
    | with_reducible apply Keeps.ite
    | with_reducible apply State.setRail_keeps
    | with_reducible apply State.setFld_keeps
    | with_reducible apply State.setSeq_keeps
    | split
    | simp only [Keeps.mk_iff]

theorem State.pllLock_keeps {o s : State} (h : Keeps o s) (locked : Bool) :
    Keeps o (State.pllLock s locked) := by
  unfold State.pllLock
  try dsimp only
  repeat' first
    | with_reducible assumption
    | with_reducible apply Keeps.ite
    | with_reducible apply State.setSeq_keeps
    | split
    | simp only [Keeps.mk_iff]

theorem State.writeStandby_keeps {o s : State} (h : Keeps o s) (v : Nat) :
    Keeps o (State.writeStandby s v) := by
  unfold State.writeStandby
  try dsimp only
  repeat' first
    | with_reducible assumption
    | intro _
    | with_reducible apply Keeps.ite
    | with_reducible apply State.refuse_keeps
    | with_reducible apply State.setFld_keeps
    | with_reducible apply State.setSeq_keeps
    | with_reducible apply State.setRail_keeps
    | with_reducible apply Keeps.foldl
    | split
    | simp only [Keeps.mk_iff]

theorem State.standbyEntered_keeps {o s : State} (h : Keeps o s) :
    Keeps o (State.standbyEntered s) := by
  unfold State.standbyEntered
  try dsimp only
  repeat' first
    | with_reducible assumption
    | intro _
    | with_reducible apply Keeps.ite
    | with_reducible apply State.setFld_keeps
    | with_reducible apply State.railsOff_keeps
    | with_reducible apply State.setSeq_keeps
    | with_reducible apply Keeps.foldl
    | split
    | simp only [Keeps.mk_iff]

theorem State.writeWdt_keeps {o s : State} (h : Keeps o s) (v : Nat) :
    Keeps o (State.writeWdt s v) := by
  unfold State.writeWdt
  try dsimp only
  repeat' first
    | with_reducible assumption
    | with_reducible apply Keeps.ite
    | with_reducible apply State.plainWrite_keeps
    | split
    | simp only [Keeps.mk_iff]

theorem State.writePwr_keeps {o s : State} (h : Keeps o s) (r : RegName) (v : Nat) (i : Nat) :
    Keeps o (State.writePwr s r v i) := by
  unfold State.writePwr
  try dsimp only
  repeat' first
    | with_reducible assumption
    | with_reducible apply State.writeRst_keeps
    | with_reducible apply State.writeStandby_keeps
    | with_reducible apply State.commitPower_keeps
    | with_reducible apply State.writeWdt_keeps
    | with_reducible apply State.plainWrite_keeps
    | split

theorem State.smbusWrite_keeps {o s : State} (h : Keeps o s) (off : Nat) (data : Bytes) :
    Keeps o (State.smbusWrite s off data) := by
  unfold State.smbusWrite
  try dsimp only
  repeat' first
    | with_reducible assumption
    | with_reducible apply Keeps.ite
    | with_reducible apply State.writePwr_keeps
    | split

theorem State.railClear_keeps {o s : State} (h : Keeps o s) (r : Nat) :
    Keeps o (State.railClear s r) := by
  unfold State.railClear
  try dsimp only
  repeat' first
    | with_reducible assumption
    | with_reducible apply Keeps.ite
    | with_reducible apply State.powerOnReset_keeps
    | with_reducible apply State.railOff_keeps
    | with_reducible apply State.freeSlice_keeps
    | split

theorem execVinPowerUp_keeps {o s : State} (h : Keeps o s) (volt : BitVec 16) :
    KeepsOut o (execVinPowerUp volt s) := by
  unfold execVinPowerUp
  refine .next ?_
  try dsimp only
  repeat' first
    | with_reducible assumption
    | intro _
    | with_reducible apply Keeps.ite
    | with_reducible apply State.afterReset_keeps
    | with_reducible apply State.powerOnReset_keeps
    | with_reducible apply State.setFld_keeps
    | split

theorem execVinPowerDown_keeps {o s : State} (h : Keeps o s) (volt : BitVec 16) :
    KeepsOut o (execVinPowerDown volt s) := by
  unfold execVinPowerDown
  refine .next ?_
  try dsimp only
  repeat' first
    | with_reducible assumption
    | intro _
    | with_reducible apply Keeps.ite
    | with_reducible apply State.afterReset_keeps
    | split

theorem execRailUp_keeps {o s : State} (h : Keeps o s) (r : Nat) (m : RailOp) :
    KeepsOut o (execRailUp r m s) := by
  unfold execRailUp
  refine .next ?_
  try dsimp only
  repeat' first
    | with_reducible assumption
    | with_reducible apply State.railUp_keeps

theorem execRailWindowMiss_keeps {o s : State} (h : Keeps o s) (r : Nat) :
    KeepsOut o (execRailWindowMiss r s) := by
  unfold execRailWindowMiss
  refine .next ?_
  try dsimp only
  repeat' first
    | with_reducible assumption
    | with_reducible apply Keeps.ite
    | with_reducible apply State.latchRail_keeps
    | split

theorem execRailTrip_keeps {o s : State} (h : Keeps o s) (r : Nat) (current : Bool) :
    KeepsOut o (execRailTrip r current s) := by
  unfold execRailTrip
  refine .next ?_
  try dsimp only
  repeat' first
    | with_reducible assumption
    | with_reducible apply Keeps.ite
    | with_reducible apply State.latchRail_keeps
    | split

theorem execPllLock_keeps {o s : State} (h : Keeps o s) (locked : Bool) :
    KeepsOut o (execPllLock locked s) := by
  unfold execPllLock
  refine .next ?_
  try dsimp only
  repeat' first
    | with_reducible assumption
    | with_reducible apply State.pllLock_keeps

theorem execSmbusRegRead_keeps {o s : State} (h : Keeps o s) (off : BitVec 32) (pec : Bool) :
    KeepsOut o (execSmbusRegRead off pec s) := by
  unfold execSmbusRegRead
  refine .next ?_
  try dsimp only
  repeat' first
    | with_reducible assumption
    | with_reducible apply Keeps.ite
    | with_reducible apply State.emit_keeps
    | split

theorem execSmbusRegWrite_keeps {o s : State} (h : Keeps o s) (off : BitVec 32) (data : List (BitVec 8)) (pec : Bool) :
    KeepsOut o (execSmbusRegWrite off data pec s) := by
  unfold execSmbusRegWrite
  refine .next ?_
  try dsimp only
  repeat' first
    | with_reducible assumption
    | with_reducible apply Keeps.ite
    | with_reducible apply State.smbusWrite_keeps
    | split

theorem execRailClear_keeps {o s : State} (h : Keeps o s) (r : BitVec 8) (pec : Bool) :
    KeepsOut o (execRailClear r pec s) := by
  unfold execRailClear
  refine .next ?_
  try dsimp only
  repeat' first
    | with_reducible assumption
    | with_reducible apply Keeps.ite
    | with_reducible apply State.railClear_keeps
    | split

theorem execPowerCycle_keeps {o s : State} (h : Keeps o s) (data : BitVec 8) (pec : Bool) :
    KeepsOut o (execPowerCycle data pec s) := by
  unfold execPowerCycle
  refine .next ?_
  try dsimp only
  repeat' first
    | with_reducible assumption
    | with_reducible apply Keeps.ite
    | with_reducible apply State.powerOnReset_keeps
    | split

theorem execWarmReset_keeps {o s : State} (h : Keeps o s) (data : BitVec 8) (pec : Bool) :
    KeepsOut o (execWarmReset data pec s) := by
  unfold execWarmReset
  refine .next ?_
  try dsimp only
  repeat' first
    | with_reducible assumption
    | with_reducible apply Keeps.ite
    | with_reducible apply State.warmReset_keeps
    | split

theorem execThermSample_keeps {o s : State} (h : Keeps o s) (n : Nat) (temp : BitVec 8) :
    KeepsOut o (execThermSample n temp s) := by
  unfold execThermSample
  refine .next ?_
  try dsimp only
  repeat' first
    | with_reducible assumption
    | with_reducible apply Keeps.ite
    | with_reducible apply State.logicOff_keeps
    | with_reducible apply State.noteCause_keeps
    | with_reducible apply State.sampleTemp_keeps
    | split
    | simp only [Keeps.mk_iff]

theorem execStandbyReq_keeps {o s : State} (h : Keeps o s) (value : BitVec 32) :
    KeepsOut o (execStandbyReq value s) := by
  unfold execStandbyReq
  refine .next ?_
  try dsimp only
  repeat' first
    | with_reducible assumption
    | with_reducible apply State.writeStandby_keeps

theorem execStandbyExit_keeps {o s : State} (h : Keeps o s) (value : BitVec 32) :
    KeepsOut o (execStandbyExit value s) := by
  unfold execStandbyExit
  refine .next ?_
  try dsimp only
  repeat' first
    | with_reducible assumption
    | with_reducible apply State.writeStandby_keeps

theorem execStandbyEntered_keeps {o s : State} (h : Keeps o s) :
    KeepsOut o (execStandbyEntered s) := by
  unfold execStandbyEntered
  refine .next ?_
  try dsimp only
  repeat' first
    | with_reducible assumption
    | with_reducible apply State.standbyEntered_keeps

theorem execBrownout_keeps {o s : State} (h : Keeps o s) :
    KeepsOut o (execBrownout s) := by
  unfold execBrownout
  refine .next ?_
  try dsimp only
  repeat' first
    | with_reducible assumption
    | with_reducible apply Keeps.ite
    | with_reducible apply State.logicOff_keeps
    | with_reducible apply State.noteCause_keeps
    | with_reducible apply State.bump_keeps
    | split
    | simp only [Keeps.mk_iff]

theorem execRefclkLoss_keeps {o s : State} (h : Keeps o s) (pll : Bool) :
    KeepsOut o (execRefclkLoss pll s) := by
  unfold execRefclkLoss
  refine .next ?_
  try dsimp only
  repeat' first
    | with_reducible assumption
    | with_reducible apply Keeps.ite
    | with_reducible apply State.report_keeps
    | split
    | simp only [Keeps.mk_iff]

theorem execRefclkReturn_keeps {o s : State} (h : Keeps o s) :
    KeepsOut o (execRefclkReturn s) := by
  unfold execRefclkReturn
  refine .next ?_
  try dsimp only
  repeat' first
    | with_reducible assumption
    | simp only [Keeps.mk_iff]

end Sys2Proof.Machine
end

