-- ==== Sys2Proof/Laws/KeepsBoot.lean ====
section
/-! SUPPORT. Machine/Boot.lean keeps the queue and the canonical form of the stores. -/

namespace Sys2Proof.Machine

theorem State.showSlots_keeps {o s : State} (h : Keeps o s) :
    Keeps o (State.showSlots s) := by
  unfold State.showSlots
  try dsimp only
  repeat' first
    | with_reducible assumption
    | intro _
    | with_reducible apply Keeps.ite
    | with_reducible apply State.setFld_keeps
    | with_reducible apply Keeps.foldl
    | split

theorem State.showStage_keeps {o s : State} (h : Keeps o s) :
    Keeps o (State.showStage s) := by
  unfold State.showStage
  try dsimp only
  repeat' first
    | with_reducible assumption
    | with_reducible apply Keeps.ite
    | with_reducible apply State.setFld_keeps
    | split

theorem State.withNv_keeps {o s : State} (h : Keeps o s) (v : NvX) :
    Keeps o (State.withNv s v) := by
  unfold State.withNv
  try dsimp only
  repeat' first
    | with_reducible assumption
    | with_reducible apply State.showSlots_keeps
    | with_reducible apply State.showStage_keeps
    | simp only [Keeps.mk_iff]

theorem State.relaySend_keeps {o s : State} (h : Keeps o s) (r : RelayRun) :
    Keeps o (State.relaySend s r) := by
  unfold State.relaySend
  try dsimp only
  repeat' first
    | with_reducible assumption
    | intro _
    | with_reducible apply Keeps.ite
    | with_reducible apply State.drop_keeps
    | with_reducible apply State.originate_keeps
    | split
    | simp only [Keeps.mk_iff]
    | refine Keeps.of_pair (by with_reducible assumption) ?_
    | dsimp only

theorem State.relayNext_keeps {o s : State} (h : Keeps o s) :
    Keeps o (State.relayNext s) := by
  unfold State.relayNext
  try dsimp only
  repeat' first
    | with_reducible assumption
    | intro _
    | with_reducible apply State.setFld_keeps
    | with_reducible apply State.relaySend_keeps
    | split
    | simp only [Keeps.mk_iff]

theorem State.relayRestart_keeps {o s : State} (h : Keeps o s) :
    Keeps o (State.relayRestart s) := by
  unfold State.relayRestart
  try dsimp only
  repeat' first
    | with_reducible assumption
    | intro _
    | with_reducible apply Keeps.ite
    | with_reducible apply State.wr_keeps
    | with_reducible apply Keeps.foldl
    | split

theorem State.relayStop_keeps {o s : State} (h : Keeps o s) :
    Keeps o (State.relayStop s) := by
  unfold State.relayStop
  try dsimp only
  repeat' first
    | with_reducible assumption
    | with_reducible apply State.setFld_keeps
    | split
    | simp only [Keeps.mk_iff]

theorem State.relayClear_keeps {o s : State} (h : Keeps o s) :
    Keeps o (State.relayClear s) := by
  unfold State.relayClear
  try dsimp only
  repeat' first
    | with_reducible assumption
    | intro _
    | with_reducible apply State.wr_keeps
    | with_reducible apply State.relayStop_keeps
    | with_reducible apply Keeps.foldl

theorem State.relayFailed_keeps {o s : State} (h : Keeps o s) (r : RelayRun) :
    Keeps o (State.relayFailed s r) := by
  unfold State.relayFailed
  try dsimp only
  repeat' first
    | with_reducible assumption
    | with_reducible apply Keeps.ite
    | with_reducible apply State.setFld_keeps
    | with_reducible apply State.relayNext_keeps
    | split
    | simp only [Keeps.mk_iff]

theorem State.relayAnswer_keeps {o s : State} (h : Keeps o s) (b : Bytes) :
    Keeps o (State.relayAnswer s b) := by
  unfold State.relayAnswer
  try dsimp only
  repeat' first
    | with_reducible assumption
    | intro _
    | with_reducible apply Keeps.ite
    | with_reducible apply State.setFld_keeps
    | with_reducible apply State.relayFailed_keeps
    | with_reducible apply State.relayNext_keeps
    | with_reducible apply State.relaySend_keeps
    | split
    | simp only [Keeps.mk_iff]

theorem State.relayRetry_keeps {o s : State} (h : Keeps o s) :
    Keeps o (State.relayRetry s) := by
  unfold State.relayRetry
  try dsimp only
  repeat' first
    | with_reducible assumption
    | intro _
    | with_reducible apply Keeps.ite
    | with_reducible apply State.relayFailed_keeps
    | with_reducible apply State.setFld_keeps
    | with_reducible apply State.relaySend_keeps
    | split
    | simp only [Keeps.mk_iff]
    | refine Keeps.of_pair (by with_reducible assumption) ?_
    | dsimp only

theorem State.applySetting_keeps {o s : State} (h : Keeps o s) (e : Nat × Nat) :
    Keeps o (State.applySetting s e) := by
  unfold State.applySetting
  try dsimp only
  repeat' first
    | with_reducible assumption
    | with_reducible apply State.setFld_keeps
    | with_reducible apply State.writeSev_keeps
    | with_reducible apply State.writeErr_keeps
    | with_reducible apply State.plainWrite_keeps
    | with_reducible apply State.rewrote_keeps
    | split

theorem State.startSettings_keeps {o s : State} (h : Keeps o s) (fmt : Nat) :
    Keeps o (State.startSettings s fmt) := by
  unfold State.startSettings
  try dsimp only
  repeat' first
    | with_reducible assumption
    | intro _
    | with_reducible apply Keeps.ite
    | with_reducible apply State.applySetting_keeps
    | with_reducible apply State.setFld_keeps
    | with_reducible apply Keeps.foldl
    | split
    | simp only [Keeps.mk_iff]

theorem State.showKeys_keeps {o s : State} (h : Keeps o s) :
    Keeps o (State.showKeys s) := by
  unfold State.showKeys
  try dsimp only
  repeat' first
    | with_reducible assumption
    | intro _
    | with_reducible apply State.setFld_keeps
    | with_reducible apply State.setDigest_keeps
    | with_reducible apply Keeps.foldl
    | simp only [Keeps.mk_iff]

theorem State.recovery_keeps {o s : State} (h : Keeps o s) (cause : Nat) :
    Keeps o (State.recovery s cause) := by
  unfold State.recovery
  try dsimp only
  repeat' first
    | with_reducible assumption
    | with_reducible apply State.setFld_keeps
    | with_reducible apply State.showSlots_keeps
    | with_reducible apply State.showStage_keeps
    | simp only [Keeps.mk_iff]

theorem State.jump_keeps {o s : State} (h : Keeps o s) (k : Nat) :
    Keeps o (State.jump s k) := by
  unfold State.jump
  try dsimp only
  repeat' first
    | with_reducible assumption
    | intro _
    | with_reducible apply Keeps.ite
    | with_reducible apply State.wr_keeps
    | with_reducible apply State.setFld_keeps
    | with_reducible apply State.noteTerms_keeps
    | with_reducible apply State.showSlots_keeps
    | with_reducible apply State.showStage_keeps
    | with_reducible apply State.showKeys_keeps
    | with_reducible apply State.startSettings_keeps
    | with_reducible apply State.relayRestart_keeps
    | with_reducible apply State.relayNext_keeps
    | with_reducible apply State.relayStop_keeps
    | with_reducible apply Keeps.foldl
    | with_reducible apply Keeps.foldl_pair
    | split
    | simp only [Keeps.mk_iff]
    | refine Keeps.of_pair (by with_reducible assumption) ?_
    | dsimp only

theorem State.romDirectory_keeps {o s : State} (h : Keeps o s) :
    Keeps o (State.romDirectory s) := by
  unfold State.romDirectory
  try dsimp only
  repeat' first
    | with_reducible assumption
    | intro _
    | with_reducible apply Keeps.ite
    | with_reducible apply State.setFld_keeps
    | with_reducible apply State.recovery_keeps
    | with_reducible apply State.written_keeps
    | with_reducible apply State.jump_keeps
    | split
    | simp only [Keeps.mk_iff]
    | refine Keeps.of_pair (by with_reducible assumption) ?_
    | dsimp only

theorem State.romBoot_keeps {o s : State} (h : Keeps o s) (service : Bool) :
    Keeps o (State.romBoot s service) := by
  unfold State.romBoot
  try dsimp only
  repeat' first
    | with_reducible assumption
    | with_reducible apply Keeps.ite
    | with_reducible apply State.wr_keeps
    | with_reducible apply State.setFld_keeps
    | with_reducible apply State.recovery_keeps
    | with_reducible apply State.romDirectory_keeps
    | split
    | simp only [Keeps.mk_iff]

theorem State.wakeUsed_keeps {o s : State} (h : Keeps o s) :
    Keeps o (State.wakeUsed s) := by
  unfold State.wakeUsed
  try dsimp only
  repeat' first
    | with_reducible assumption
    | intro _
    | with_reducible apply Keeps.ite
    | with_reducible apply State.wrShadow_keeps
    | with_reducible apply State.commitSlice_keeps
    | with_reducible apply Keeps.foldl
    | with_reducible apply Keeps.foldl_pair
    | split
    | simp only [Keeps.mk_iff]
    | refine Keeps.of_pair (by with_reducible assumption) ?_
    | dsimp only

theorem State.loadStored_keeps {o s : State} (h : Keeps o s) : Keeps o s.loadStored := by
  unfold State.loadStored
  refine Keeps.ite h (setFld_keeps (Keeps.mk_iff.2 ?_) ..)
  split
  · rename_i t e
    refine wakeUsed_keeps (Keeps.foldl_option ?_ ?_ t e)
    · intro a ha
      split at ha <;> cases ha
      exact h
    · intro m b hm a ha
      dsimp only at ha
      split at ha
      · cases ha
      · split at ha
        · cases ha
        · split at ha <;> cases ha
          exact commitPackage_keeps (hm _ rfl) b
  · exact report_keeps h ..

theorem State.healthConfirm_keeps {o s : State} (h : Keeps o s) :
    Keeps o (State.healthConfirm s) := by
  unfold State.healthConfirm
  try dsimp only
  repeat' first
    | with_reducible assumption
    | intro _
    | with_reducible apply Keeps.ite
    | split
    | simp only [Keeps.mk_iff]

theorem State.confirmDone_keeps {o s : State} (h : Keeps o s) :
    Keeps o (State.confirmDone s) := by
  unfold State.confirmDone
  try dsimp only
  repeat' first
    | with_reducible assumption
    | intro _
    | with_reducible apply Keeps.ite
    | with_reducible apply State.withNv_keeps
    | with_reducible apply State.written_keeps
    | with_reducible apply State.setFld_keeps
    | split
    | simp only [Keeps.mk_iff]
    | refine Keeps.of_pair (by with_reducible assumption) ?_
    | dsimp only

theorem State.confirmExpired_keeps {o s : State} (h : Keeps o s) :
    Keeps o (State.confirmExpired s) := by
  unfold State.confirmExpired
  try dsimp only
  repeat' first
    | with_reducible assumption
    | with_reducible apply Keeps.ite
    | with_reducible apply State.setFld_keeps
    | split
    | simp only [Keeps.mk_iff]

theorem State.countConfirm_keeps {o s : State} (h : Keeps o s) :
    Keeps o (State.countConfirm s) := by
  unfold State.countConfirm
  try dsimp only
  repeat' first
    | with_reducible assumption
    | with_reducible apply Keeps.ite
    | with_reducible apply State.setFld_keeps
    | split

theorem State.startWork_keeps {o s : State} (h : Keeps o s) (c : TakenX) (w : Work) :
    Keeps o (State.startWork s c w) := by
  unfold State.startWork
  try dsimp only
  repeat' first
    | with_reducible assumption
    | simp only [Keeps.mk_iff]

theorem State.fwBegin_keeps {o s : State} (h : Keeps o s) (c : TakenX) :
    Keeps o (State.fwBegin s c) := by
  unfold State.fwBegin
  try dsimp only
  repeat' first
    | with_reducible assumption
    | intro _
    | with_reducible apply Keeps.ite
    | with_reducible apply State.respond_keeps
    | with_reducible apply State.relayClear_keeps
    | with_reducible apply State.withNv_keeps
    | with_reducible apply State.written_keeps
    | split
    | simp only [Keeps.mk_iff]
    | refine Keeps.of_pair (by with_reducible assumption) ?_
    | dsimp only

theorem State.fwChunk_keeps {o s : State} (h : Keeps o s) (c : TakenX) :
    Keeps o (State.fwChunk s c) := by
  unfold State.fwChunk
  try dsimp only
  repeat' first
    | with_reducible assumption
    | with_reducible apply Keeps.ite
    | with_reducible apply State.respond_keeps
    | with_reducible apply State.startWork_keeps
    | split

theorem State.fwEnd_keeps {o s : State} (h : Keeps o s) (c : TakenX) :
    Keeps o (State.fwEnd s c) := by
  unfold State.fwEnd
  try dsimp only
  repeat' first
    | with_reducible assumption
    | with_reducible apply Keeps.ite
    | with_reducible apply State.respond_keeps
    | with_reducible apply State.startWork_keeps
    | split

theorem State.fwEnded_keeps {o s : State} (h : Keeps o s) (c : TakenX) :
    Keeps o (State.fwEnded s c) := by
  unfold State.fwEnded
  try dsimp only
  repeat' first
    | with_reducible assumption
    | intro _
    | with_reducible apply Keeps.ite
    | with_reducible apply State.respond_keeps
    | with_reducible apply State.withNv_keeps
    | with_reducible apply State.written_keeps
    | with_reducible apply State.relayNext_keeps
    | split
    | simp only [Keeps.mk_iff]
    | refine Keeps.of_pair (by with_reducible assumption) ?_
    | dsimp only

theorem State.fwRelay_keeps {o s : State} (h : Keeps o s) (c : TakenX) :
    Keeps o (State.fwRelay s c) := by
  unfold State.fwRelay
  try dsimp only
  repeat' first
    | with_reducible assumption
    | intro _
    | with_reducible apply Keeps.ite
    | with_reducible apply State.respond_keeps
    | with_reducible apply State.wr_keeps
    | with_reducible apply State.relayRestart_keeps
    | with_reducible apply State.relayNext_keeps
    | with_reducible apply Keeps.foldl
    | split

theorem State.recInstalled_keeps {o s : State} (h : Keeps o s) (c : TakenX) :
    Keeps o (State.recInstalled s c) := by
  unfold State.recInstalled
  try dsimp only
  repeat' first
    | with_reducible assumption
    | intro _
    | with_reducible apply Keeps.ite
    | with_reducible apply State.respond_keeps
    | with_reducible apply State.withNv_keeps
    | with_reducible apply State.written_keeps
    | with_reducible apply State.setFld_keeps
    | split
    | simp only [Keeps.mk_iff]
    | refine Keeps.of_pair (by with_reducible assumption) ?_
    | dsimp only

theorem State.recChunk_keeps {o s : State} (h : Keeps o s) (c : TakenX) :
    Keeps o (State.recChunk s c) := by
  unfold State.recChunk
  try dsimp only
  repeat' first
    | with_reducible assumption
    | with_reducible apply Keeps.ite
    | with_reducible apply State.respond_keeps
    | split
    | simp only [Keeps.mk_iff]

theorem State.recOnly_keeps {o s : State} (h : Keeps o s) (c : TakenX) (f : State → TakenX → State)
    (hf : ∀ a c, Keeps o a → Keeps o (f a c)) : Keeps o (s.recOnly c f) :=
  Keeps.ite (hf _ _ h) (respond_keeps h ..)

theorem execRomBoot_keeps {o s : State} (h : Keeps o s) (service : Bool) :
    KeepsOut o (execRomBoot service s) := by
  unfold execRomBoot
  refine .next ?_
  try dsimp only
  repeat' first
    | with_reducible assumption
    | with_reducible apply State.romBoot_keeps

theorem execBootImageLoad_keeps {o s : State} (h : Keeps o s) :
    KeepsOut o (execBootImageLoad s) := by
  unfold execBootImageLoad
  refine .next ?_
  try dsimp only
  repeat' first
    | with_reducible assumption
    | with_reducible apply State.loadStored_keeps

theorem execHealthConfirm_keeps {o s : State} (h : Keeps o s) :
    KeepsOut o (execHealthConfirm s) := by
  unfold execHealthConfirm
  refine .next ?_
  try dsimp only
  repeat' first
    | with_reducible assumption
    | with_reducible apply State.healthConfirm_keeps

theorem execConfirmWriteDone_keeps {o s : State} (h : Keeps o s) :
    KeepsOut o (execConfirmWriteDone s) := by
  unfold execConfirmWriteDone
  refine .next ?_
  try dsimp only
  repeat' first
    | with_reducible assumption
    | with_reducible apply State.confirmDone_keeps

theorem execConfirmTimerExpiry_keeps {o s : State} (h : Keeps o s) :
    KeepsOut o (execConfirmTimerExpiry s) := by
  unfold execConfirmTimerExpiry
  refine .next ?_
  try dsimp only
  repeat' first
    | with_reducible assumption
    | with_reducible apply State.confirmExpired_keeps

theorem execRecInfo_keeps {o s : State} (h : Keeps o s) :
    KeepsOut o (execRecInfo s) := by
  unfold execRecInfo
  refine .next ?_
  try dsimp only
  repeat' first
    | with_reducible assumption
    | intro _
    | with_reducible apply State.run_keeps
    | with_reducible apply State.recOnly_keeps
    | with_reducible apply State.respond_keeps

theorem execRecChunk_keeps {o s : State} (h : Keeps o s) :
    KeepsOut o (execRecChunk s) := by
  unfold execRecChunk
  refine .next ?_
  try dsimp only
  repeat' first
    | with_reducible assumption
    | intro _
    | with_reducible apply State.run_keeps
    | with_reducible apply State.recOnly_keeps
    | with_reducible apply State.recChunk_keeps

theorem execRecInstall_keeps {o s : State} (h : Keeps o s) :
    KeepsOut o (execRecInstall s) := by
  unfold execRecInstall
  refine .next ?_
  try dsimp only
  repeat' first
    | with_reducible assumption
    | intro _
    | with_reducible apply Keeps.ite
    | with_reducible apply State.run_keeps
    | with_reducible apply State.recOnly_keeps
    | with_reducible apply State.respond_keeps
    | with_reducible apply State.startWork_keeps
    | split

theorem execRecExit_keeps {o s : State} (h : Keeps o s) :
    KeepsOut o (execRecExit s) := by
  unfold execRecExit
  refine .next ?_
  try dsimp only
  repeat' first
    | with_reducible assumption
    | intro _
    | with_reducible apply State.run_keeps
    | with_reducible apply State.recOnly_keeps
    | with_reducible apply State.respond_keeps
    | simp only [Keeps.mk_iff]

theorem execFwBegin_keeps {o s : State} (h : Keeps o s) :
    KeepsOut o (execFwBegin s) := by
  unfold execFwBegin
  refine .next ?_
  try dsimp only
  repeat' first
    | with_reducible assumption
    | intro _
    | with_reducible apply State.run_keeps
    | with_reducible apply State.fwBegin_keeps

theorem execFwChunk_keeps {o s : State} (h : Keeps o s) :
    KeepsOut o (execFwChunk s) := by
  unfold execFwChunk
  refine .next ?_
  try dsimp only
  repeat' first
    | with_reducible assumption
    | intro _
    | with_reducible apply State.run_keeps
    | with_reducible apply State.fwChunk_keeps

theorem execFwEnd_keeps {o s : State} (h : Keeps o s) :
    KeepsOut o (execFwEnd s) := by
  unfold execFwEnd
  refine .next ?_
  try dsimp only
  repeat' first
    | with_reducible assumption
    | intro _
    | with_reducible apply State.run_keeps
    | with_reducible apply State.fwEnd_keeps

theorem execFwRelay_keeps {o s : State} (h : Keeps o s) :
    KeepsOut o (execFwRelay s) := by
  unfold execFwRelay
  refine .next ?_
  try dsimp only
  repeat' first
    | with_reducible assumption
    | intro _
    | with_reducible apply State.run_keeps
    | with_reducible apply State.fwRelay_keeps

theorem execFwDiscard_keeps {o s : State} (h : Keeps o s) :
    KeepsOut o (execFwDiscard s) := by
  unfold execFwDiscard
  refine .next ?_
  try dsimp only
  repeat' first
    | with_reducible assumption
    | intro _
    | with_reducible apply State.run_keeps
    | with_reducible apply State.relayStop_keeps
    | with_reducible apply State.startWork_keeps

theorem execFwSvnCommit_keeps {o s : State} (h : Keeps o s) :
    KeepsOut o (execFwSvnCommit s) := by
  unfold execFwSvnCommit
  refine .next ?_
  try dsimp only
  repeat' first
    | with_reducible assumption
    | intro _
    | with_reducible apply Keeps.ite
    | with_reducible apply State.run_keeps
    | with_reducible apply State.startWork_keeps
    | with_reducible apply State.respond_keeps
    | split

theorem execSettingsRead_keeps {o s : State} (h : Keeps o s) :
    KeepsOut o (execSettingsRead s) := by
  unfold execSettingsRead
  refine .next ?_
  try dsimp only
  repeat' first
    | with_reducible assumption
    | intro _
    | with_reducible apply State.run_keeps
    | with_reducible apply State.respond_keeps

theorem execSettingsWrite_keeps {o s : State} (h : Keeps o s) :
    KeepsOut o (execSettingsWrite s) := by
  unfold execSettingsWrite
  refine .next ?_
  try dsimp only
  repeat' first
    | with_reducible assumption
    | intro _
    | with_reducible apply Keeps.ite
    | with_reducible apply State.run_keeps
    | with_reducible apply State.respond_keeps
    | with_reducible apply State.startWork_keeps
    | split

theorem execRelayResponse_keeps {o s : State} (h : Keeps o s) (payload : List (BitVec 8)) :
    KeepsOut o (execRelayResponse payload s) := by
  unfold execRelayResponse
  refine .next ?_
  try dsimp only
  repeat' first
    | with_reducible assumption
    | with_reducible apply State.relayAnswer_keeps

theorem execRelayRetry_keeps {o s : State} (h : Keeps o s) :
    KeepsOut o (execRelayRetry s) := by
  unfold execRelayRetry
  refine .next ?_
  try dsimp only
  repeat' first
    | with_reducible assumption
    | with_reducible apply State.relayRetry_keeps

end Sys2Proof.Machine
end

