-- ==== Sys2Proof/Laws/KeepsCommands.lean ====
section
/-! SUPPORT. Machine/Commands.lean keeps the queue and the canonical form of the stores. -/

namespace Sys2Proof.Machine

theorem State.writeTail_keeps {o s : State} (h : Keeps o s) (q : Nat) (tail : Nat) (slots : List Bytes) :
    Keeps o (State.writeTail s q tail slots) := by
  unfold State.writeTail
  try dsimp only
  repeat' first
    | with_reducible assumption
    | intro _
    | with_reducible apply Keeps.ite
    | with_reducible apply State.setFld_keeps
    | with_reducible apply State.setQueue_keeps
    | split
    | simp only [Keeps.mk_iff]

theorem State.writeQp_keeps {o s : State} (h : Keeps o s) (q : Nat) (v : Nat) :
    Keeps o (State.writeQp s q v) := by
  unfold State.writeQp
  try dsimp only
  repeat' first
    | with_reducible assumption
    | with_reducible apply Keeps.ite
    | with_reducible apply State.wr_keeps
    | with_reducible apply State.setFld_keeps
    | with_reducible apply State.setQueue_keeps
    | split

theorem State.perst_keeps {o s : State} (h : Keeps o s) :
    Keeps o (State.perst s) := by
  unfold State.perst
  try dsimp only
  repeat' first
    | with_reducible assumption
    | intro _
    | with_reducible apply State.setFld_keeps
    | with_reducible apply State.resetReg_keeps
    | with_reducible apply State.setQueue_keeps
    | with_reducible apply Keeps.foldl

theorem State.showForwards_keeps {o s : State} (h : Keeps o s) :
    Keeps o (State.showForwards s) := by
  unfold State.showForwards
  try dsimp only
  repeat' first
    | with_reducible assumption
    | with_reducible apply State.setFld_keeps

theorem State.setForwards_keeps {o s : State} (h : Keeps o s) (m : List (Nat × ForwardX)) :
    Keeps o (State.setForwards s m) := by
  unfold State.setForwards
  try dsimp only
  repeat' first
    | with_reducible assumption
    | with_reducible apply State.showForwards_keeps
    | simp only [Keeps.mk_iff]

theorem State.forward_keeps {o s : State} (h : Keeps o s) (c : TakenX) :
    Keeps o (State.forward s c) := by
  unfold State.forward
  try dsimp only
  repeat' first
    | with_reducible assumption
    | intro _
    | with_reducible apply Keeps.ite
    | with_reducible apply State.respond_keeps
    | with_reducible apply State.drop_keeps
    | with_reducible apply State.setForwards_keeps
    | with_reducible apply State.originate_keeps
    | split
    | simp only [Keeps.mk_iff]
    | refine Keeps.of_pair (by with_reducible assumption) ?_
    | dsimp only

theorem State.takeForwarded_keeps {o s : State} (h : Keeps o s) (b : Bytes) :
    Keeps o (State.takeForwarded s b) := by
  unfold State.takeForwarded
  try dsimp only
  repeat' first
    | with_reducible assumption
    | with_reducible apply State.drop_keeps
    | with_reducible apply State.setForwards_keeps
    | with_reducible apply State.deliver_keeps
    | with_reducible apply State.bump_keeps
    | split

theorem execSqTailWrite_keeps {o s : State} (h : Keeps o s) (q : Nat) (tail : BitVec 16) (slots : List (List (BitVec 8))) :
    KeepsOut o (execSqTailWrite q tail slots s) := by
  unfold execSqTailWrite
  refine .next ?_
  try dsimp only
  repeat' first
    | with_reducible assumption
    | with_reducible apply State.writeTail_keeps

theorem execCqHeadWrite_keeps {o s : State} (h : Keeps o s) (q : Nat) (head : BitVec 16) :
    KeepsOut o (execCqHeadWrite q head s) := by
  unfold execCqHeadWrite
  refine .next ?_
  try dsimp only
  repeat' first
    | with_reducible assumption
    | with_reducible apply State.setFld_keeps

theorem execQpEnWrite_keeps {o s : State} (h : Keeps o s) (q : Nat) (value : BitVec 32) :
    KeepsOut o (execQpEnWrite q value s) := by
  unfold execQpEnWrite
  refine .next ?_
  try dsimp only
  repeat' first
    | with_reducible assumption
    | with_reducible apply State.writeQp_keeps

theorem execCommandTake_keeps {o s : State} (h : Keeps o s) :
    KeepsOut o (execCommandTake s) := by
  unfold execCommandTake
  refine .next ?_
  try dsimp only
  repeat' first
    | with_reducible assumption
    | with_reducible apply State.takeNext_keeps

theorem execCmdRx_keeps {o s : State} (h : Keeps o s) (x : Nat) (src : Nat) (payload : List (BitVec 8)) :
    KeepsOut o (execCmdRx x src payload s) := by
  unfold execCmdRx
  refine .next ?_
  try dsimp only
  repeat' first
    | with_reducible assumption
    | with_reducible apply State.commitCmd_keeps

theorem execNop_keeps {o s : State} (h : Keeps o s) :
    KeepsOut o (execNop s) := by
  unfold execNop
  refine .next ?_
  try dsimp only
  repeat' first
    | with_reducible assumption
    | intro _
    | with_reducible apply State.run_keeps
    | with_reducible apply State.respond_keeps

theorem execForwardCommand_keeps {o s : State} (h : Keeps o s) :
    KeepsOut o (execForwardCommand s) := by
  unfold execForwardCommand
  refine .next ?_
  try dsimp only
  repeat' first
    | with_reducible assumption
    | with_reducible apply Keeps.ite
    | with_reducible apply State.forward_keeps
    | split
    | simp only [Keeps.mk_iff]

theorem execFwdResponse_keeps {o s : State} (h : Keeps o s) (payload : List (BitVec 8)) :
    KeepsOut o (execFwdResponse payload s) := by
  unfold execFwdResponse
  refine .next ?_
  try dsimp only
  repeat' first
    | with_reducible assumption
    | with_reducible apply State.takeForwarded_keeps

theorem execFwdTimeout_keeps {o s : State} (h : Keeps o s) (entry : Nat) :
    KeepsOut o (execFwdTimeout entry s) := by
  unfold execFwdTimeout
  refine .next ?_
  try dsimp only
  repeat' first
    | with_reducible assumption
    | with_reducible apply Keeps.ite
    | with_reducible apply State.setForwards_keeps
    | with_reducible apply State.respond_keeps
    | split

theorem execPerst_keeps {o s : State} (h : Keeps o s) :
    KeepsOut o (execPerst s) := by
  unfold execPerst
  refine .next ?_
  try dsimp only
  repeat' first
    | with_reducible assumption
    | with_reducible apply State.perst_keeps

theorem execHostLinkUp_keeps {o s : State} (h : Keeps o s) (width : BitVec 4) (speed : BitVec 3) :
    KeepsOut o (execHostLinkUp width speed s) := by
  unfold execHostLinkUp
  refine .next ?_
  try dsimp only
  repeat' first
    | with_reducible assumption
    | with_reducible apply State.setFld_keeps

end Sys2Proof.Machine
end

