-- ==== Sys2Proof/Laws/KeepsTraining.lean ====
section
/-! SUPPORT. Machine/Training.lean keeps the queue and the canonical form of the stores. -/

namespace Sys2Proof.Machine

theorem State.unlock_keeps {o s : State} (h : Keeps o s) (n : Nat) (l : Nat) :
    Keeps o (State.unlock s n l) := by
  unfold State.unlock
  try dsimp only
  repeat' first
    | with_reducible assumption
    | with_reducible apply Keeps.ite
    | with_reducible apply State.bump_keeps
    | with_reducible apply State.setFld_keeps
    | with_reducible apply State.setRxLane_keeps
    | split

theorem State.setLight_keeps {o s : State} (h : Keeps o s) (n : Nat) (k : Nat) (ready : Bool) (was : Bool) :
    Keeps o (State.setLight s n k ready was) := by
  unfold State.setLight
  try dsimp only
  repeat' first
    | with_reducible assumption
    | intro _
    | with_reducible apply Keeps.ite
    | with_reducible apply State.setFld_keeps
    | with_reducible apply State.unlock_keeps
    | with_reducible apply Keeps.foldl
    | split

theorem State.setReady_keeps {o s : State} (h : Keeps o s) (n : Nat) (ready : Nat) :
    Keeps o (State.setReady s n ready) := by
  unfold State.setReady
  try dsimp only
  repeat' first
    | with_reducible assumption
    | intro _
    | with_reducible apply Keeps.ite
    | with_reducible apply State.setLight_keeps
    | with_reducible apply State.setFld_keeps
    | with_reducible apply State.report_keeps
    | with_reducible apply State.lanesChanged_keeps
    | with_reducible apply Keeps.foldl
    | split

theorem State.laserPoll_keeps {o s : State} (h : Keeps o s) (n : Nat) (p : LaserPoll) :
    Keeps o (State.laserPoll s n p) := by
  unfold State.laserPoll
  try dsimp only
  repeat' first
    | with_reducible assumption
    | intro _
    | with_reducible apply Keeps.ite
    | with_reducible apply State.setFld_keeps
    | with_reducible apply State.setReady_keeps
    | split
    | simp only [Keeps.mk_iff]
    | refine Keeps.of_pair (by with_reducible assumption) ?_
    | dsimp only

theorem State.lockLane_keeps {o s : State} (h : Keeps o s) (n : Nat) (l : Nat) (w : Codeword) :
    Keeps o (State.lockLane s n l w) := by
  unfold State.lockLane
  try dsimp only
  repeat' first
    | with_reducible assumption
    | with_reducible apply Keeps.ite
    | with_reducible apply State.setFld_keeps
    | with_reducible apply State.setRxLane_keeps
    | with_reducible apply State.unlock_keeps
    | with_reducible apply State.drop_keeps
    | split
    | simp only [Keeps.mk_iff]

theorem State.countCodeword_keeps {o s : State} (h : Keeps o s) (n : Nat) (j : Nat) (x : Nat) (corrected : Nat) (bad : Bool) :
    Keeps o (State.countCodeword s n j x corrected bad) := by
  unfold State.countCodeword
  try dsimp only
  repeat' first
    | with_reducible assumption
    | with_reducible apply Keeps.ite
    | with_reducible apply State.wrap_keeps
    | with_reducible apply State.setHello_keeps
    | with_reducible apply State.startRetrain_keeps
    | split
    | simp only [Keeps.mk_iff]

theorem State.testCodeword_keeps {o s : State} (h : Keeps o s) (n : Nat) (j : Nat) (x : Nat) (w : Codeword) :
    Keeps o (State.testCodeword s n j x w) := by
  unfold State.testCodeword
  try dsimp only
  repeat' first
    | with_reducible assumption
    | with_reducible apply Keeps.ite
    | with_reducible apply State.setHello_keeps
    | with_reducible apply State.setFld_keeps
    | with_reducible apply State.portDown_keeps
    | with_reducible apply State.bump_keeps
    | split
    | simp only [Keeps.mk_iff]

theorem State.codeword_keeps {o s : State} (h : Keeps o s) (n : Nat) (l : Nat) (w : Codeword) :
    Keeps o (State.codeword s n l w) := by
  unfold State.codeword
  try dsimp only
  repeat' first
    | with_reducible assumption
    | intro _
    | with_reducible apply Keeps.ite
    | with_reducible apply State.injectSpent_keeps
    | with_reducible apply State.countCodeword_keeps
    | with_reducible apply State.lockLane_keeps
    | with_reducible apply State.amSeen_keeps
    | with_reducible apply State.loopCodeword_keeps
    | with_reducible apply State.testCodeword_keeps
    | with_reducible apply State.receivePayload_keeps
    | with_reducible apply State.lanesChanged_keeps
    | split
    | simp only [Keeps.mk_iff]
    | refine Keeps.of_pair (by with_reducible assumption) ?_
    | dsimp only

theorem State.showPeer_keeps {o s : State} (h : Keeps o s) (n : Nat) (j : Nat) (p : Bytes) :
    Keeps o (State.showPeer s n j p) := by
  unfold State.showPeer
  try dsimp only
  repeat' first
    | with_reducible assumption
    | intro _
    | with_reducible apply State.wr_keeps
    | with_reducible apply State.setFld_keeps
    | with_reducible apply Keeps.foldl

theorem State.showDiffs_keeps {o s : State} (h : Keeps o s) (n : Nat) (j : Nat) (x : Nat) (p : Bytes) :
    Keeps o (State.showDiffs s n j x p) := by
  unfold State.showDiffs
  try dsimp only
  repeat' first
    | with_reducible assumption
    | intro _
    | with_reducible apply Keeps.ite
    | with_reducible apply State.setFld_keeps
    | with_reducible apply State.raiseLink_keeps
    | with_reducible apply Keeps.foldl
    | split

theorem State.showRtt_keeps {o s : State} (h : Keeps o s) (n : Nat) (j : Nat) (x : Nat) (p : Bytes) (time : Nat) :
    Keeps o (State.showRtt s n j x p time) := by
  unfold State.showRtt
  try dsimp only
  repeat' first
    | with_reducible assumption
    | intro _
    | with_reducible apply State.setHello_keeps
    | with_reducible apply State.setFld_keeps
    | split
    | simp only [Keeps.mk_iff]
    | refine Keeps.of_pair (by with_reducible assumption) ?_
    | dsimp only

theorem State.takeProposal_keeps {o s : State} (h : Keeps o s) (n : Nat) (j : Nat) (x : Nat) (p : Bytes) :
    Keeps o (State.takeProposal s n j x p) := by
  unfold State.takeProposal
  try dsimp only
  repeat' first
    | with_reducible assumption
    | with_reducible apply Keeps.ite
    | with_reducible apply State.setHello_keeps
    | with_reducible apply State.propose_keeps
    | split
    | simp only [Keeps.mk_iff]

theorem State.takeLoop_keeps {o s : State} (h : Keeps o s) (n : Nat) (j : Nat) (x : Nat) (p : Bytes) :
    Keeps o (State.takeLoop s n j x p) := by
  unfold State.takeLoop
  try dsimp only
  repeat' first
    | with_reducible assumption
    | with_reducible apply Keeps.ite
    | with_reducible apply State.portDown_keeps
    | with_reducible apply State.setFld_keeps
    | with_reducible apply State.setHello_keeps
    | split
    | simp only [Keeps.mk_iff]

theorem State.helloRx_keeps {o s : State} (h : Keeps o s) (x : Nat) (p : Bytes) (time : Nat) :
    Keeps o (State.helloRx s x p time) := by
  unfold State.helloRx
  try dsimp only
  repeat' first
    | with_reducible assumption
    | intro _
    | with_reducible apply Keeps.ite
    | with_reducible apply State.onPort_keeps
    | with_reducible apply State.setHello_keeps
    | with_reducible apply State.showPeer_keeps
    | with_reducible apply State.showRtt_keeps
    | with_reducible apply State.quarantine_keeps
    | with_reducible apply State.showDiffs_keeps
    | with_reducible apply State.startRetrain_keeps
    | with_reducible apply State.takeProposal_keeps
    | with_reducible apply State.takeLoop_keeps
    | with_reducible apply State.tryUp_keeps
    | split
    | simp only [Keeps.mk_iff]
    | refine Keeps.of_pair (by with_reducible assumption) ?_
    | dsimp only

theorem State.writeTest_keeps {o s : State} (h : Keeps o s) (n : Nat) (j : Nat) (mode : Nat) :
    Keeps o (State.writeTest s n j mode) := by
  unfold State.writeTest
  try dsimp only
  repeat' first
    | with_reducible assumption
    | with_reducible apply Keeps.ite
    | with_reducible apply State.setFld_keeps
    | with_reducible apply State.portDown_keeps
    | with_reducible apply State.setHello_keeps
    | split
    | simp only [Keeps.mk_iff]

theorem State.sendLeds_keeps {o s : State} (h : Keeps o s) :
    Keeps o (State.sendLeds s) := by
  unfold State.sendLeds
  try dsimp only
  repeat' first
    | with_reducible assumption
    | with_reducible apply Keeps.ite
    | with_reducible apply State.emit_keeps
    | split
    | simp only [Keeps.mk_iff]

end Sys2Proof.Machine
end

