-- ==== Sys2Proof/Laws/KeepsLanes.lean ====
section
/-! SUPPORT. Machine/Lanes.lean keeps the queue and the canonical form of the stores. -/

namespace Sys2Proof.Machine

theorem execLaserPoll_keeps {o s : State} (h : Keeps o s) (n : Nat) (p : LaserPoll) :
    KeepsOut o (execLaserPoll n p s) := by
  unfold execLaserPoll
  refine .next ?_
  try dsimp only
  repeat' first
    | with_reducible assumption
    | with_reducible apply State.laserPoll_keeps

theorem execCodewordRx_keeps {o s : State} (h : Keeps o s) (l : Nat) (w : Codeword) :
    KeepsOut o (execCodewordRx l w s) := by
  unfold execCodewordRx
  refine .next ?_
  try dsimp only
  repeat' first
    | with_reducible assumption
    | with_reducible apply State.codeword_keeps

theorem execAlignTimeout_keeps {o s : State} (h : Keeps o s) (x : Nat) :
    KeepsOut o (execAlignTimeout x s) := by
  unfold execAlignTimeout
  refine .next ?_
  try dsimp only
  repeat' first
    | with_reducible assumption
    | intro _
    | with_reducible apply Keeps.ite
    | with_reducible apply State.onPort_keeps
    | with_reducible apply State.takeLanes_keeps
    | with_reducible apply State.enterState_keeps
    | with_reducible apply State.portDown_keeps
    | split
    | simp only [Keeps.mk_iff]
    | refine Keeps.of_pair (by with_reducible assumption) ?_
    | dsimp only

theorem execHelloTimeout_keeps {o s : State} (h : Keeps o s) (x : Nat) :
    KeepsOut o (execHelloTimeout x s) := by
  unfold execHelloTimeout
  refine .next ?_
  try dsimp only
  repeat' first
    | with_reducible assumption
    | intro _
    | with_reducible apply Keeps.ite
    | with_reducible apply State.onPort_keeps
    | with_reducible apply State.portDown_keeps
    | split
    | simp only [Keeps.mk_iff]
    | refine Keeps.of_pair (by with_reducible assumption) ?_
    | dsimp only

theorem execKeepaliveLoss_keeps {o s : State} (h : Keeps o s) (x : Nat) :
    KeepsOut o (execKeepaliveLoss x s) := by
  unfold execKeepaliveLoss
  refine .next ?_
  try dsimp only
  repeat' first
    | with_reducible assumption
    | intro _
    | with_reducible apply Keeps.ite
    | with_reducible apply State.onPort_keeps
    | with_reducible apply State.portDown_keeps
    | split

theorem execRetrainTimeout_keeps {o s : State} (h : Keeps o s) (x : Nat) :
    KeepsOut o (execRetrainTimeout x s) := by
  unfold execRetrainTimeout
  refine .next ?_
  try dsimp only
  repeat' first
    | with_reducible assumption
    | intro _
    | with_reducible apply Keeps.ite
    | with_reducible apply State.onPort_keeps
    | with_reducible apply State.portDown_keeps
    | split

theorem execHoldExpiry_keeps {o s : State} (h : Keeps o s) (x : Nat) :
    KeepsOut o (execHoldExpiry x s) := by
  unfold execHoldExpiry
  refine .next ?_
  try dsimp only
  repeat' first
    | with_reducible assumption
    | intro _
    | with_reducible apply Keeps.ite
    | with_reducible apply State.onPort_keeps
    | with_reducible apply State.enterAlign_keeps
    | split

theorem execHelloSend_keeps {o s : State} (h : Keeps o s) (x : Nat) :
    KeepsOut o (execHelloSend x s) := by
  unfold execHelloSend
  refine .next ?_
  try dsimp only
  repeat' first
    | with_reducible assumption
    | with_reducible apply Keeps.ite
    | with_reducible apply State.sendControl_keeps
    | split

theorem execHelloRx_keeps {o s : State} (h : Keeps o s) (x : Nat) (payload : List (BitVec 8)) (time : Nat) :
    KeepsOut o (execHelloRx x payload time s) := by
  unfold execHelloRx
  refine .next ?_
  try dsimp only
  repeat' first
    | with_reducible assumption
    | with_reducible apply State.helloRx_keeps

theorem execPortEnWrite_keeps {o s : State} (h : Keeps o s) (n : Nat) (j : Nat) (en : Bool) :
    KeepsOut o (execPortEnWrite n j en s) := by
  unfold execPortEnWrite
  refine .next ?_
  try dsimp only
  repeat' first
    | with_reducible assumption
    | with_reducible apply State.setFld_keeps
    | with_reducible apply State.enablePort_keeps

theorem State.retrainPort_keeps {o s : State} (h : Keeps o s) (n : Nat) (j : Nat) :
    Keeps o (State.retrainPort s n j) := by
  unfold State.retrainPort
  try dsimp only
  repeat' first
    | with_reducible assumption
    | with_reducible apply Keeps.ite
    | with_reducible apply State.portDown_keeps
    | with_reducible apply State.startRetrain_keeps
    | split

theorem execPortRetrain_keeps {o s : State} (h : Keeps o s) (n : Nat) (j : Nat) :
    KeepsOut o (execPortRetrain n j s) := by
  unfold execPortRetrain
  refine .next ?_
  try dsimp only
  repeat' first
    | with_reducible assumption
    | with_reducible apply State.retrainPort_keeps

theorem execPortLocate_keeps {o s : State} (h : Keeps o s) (n : Nat) (j : Nat) (on : Bool) :
    KeepsOut o (execPortLocate n j on s) := by
  unfold execPortLocate
  refine .next ?_
  try dsimp only
  repeat' first
    | with_reducible assumption
    | with_reducible apply State.setFld_keeps

theorem execPortTestWrite_keeps {o s : State} (h : Keeps o s) (n : Nat) (j : Nat) (mode : Nat) :
    KeepsOut o (execPortTestWrite n j mode s) := by
  unfold execPortTestWrite
  refine .next ?_
  try dsimp only
  repeat' first
    | with_reducible assumption
    | with_reducible apply State.writeTest_keeps

theorem execLoopRefused_keeps {o s : State} (h : Keeps o s) (x : Nat) :
    KeepsOut o (execLoopRefused x s) := by
  unfold execLoopRefused
  refine .next ?_
  try dsimp only
  repeat' first
    | with_reducible assumption
    | intro _
    | with_reducible apply Keeps.ite
    | with_reducible apply State.onPort_keeps
    | with_reducible apply State.setFld_keeps
    | with_reducible apply State.setHello_keeps
    | split
    | simp only [Keeps.mk_iff]
    | refine Keeps.of_pair (by with_reducible assumption) ?_
    | dsimp only

theorem execFreqWindow_keeps {o s : State} (h : Keeps o s) (x : Nat) (ppb : BitVec 24) :
    KeepsOut o (execFreqWindow x ppb s) := by
  unfold execFreqWindow
  refine .next ?_
  try dsimp only
  repeat' first
    | with_reducible assumption
    | intro _
    | with_reducible apply Keeps.ite
    | with_reducible apply State.onPort_keeps
    | with_reducible apply State.setFld_keeps
    | with_reducible apply State.report_keeps
    | split

theorem execLsrCtrlWrite_keeps {o s : State} (h : Keeps o s) (n : Nat) (en : Bool) (outEn : BitVec 8) :
    KeepsOut o (execLsrCtrlWrite n en outEn s) := by
  unfold execLsrCtrlWrite
  refine .next ?_
  try dsimp only
  repeat' first
    | with_reducible assumption
    | with_reducible apply State.setFld_keeps

theorem execLedFrame_keeps {o s : State} (h : Keeps o s) :
    KeepsOut o (execLedFrame s) := by
  unfold execLedFrame
  refine .next ?_
  try dsimp only
  repeat' first
    | with_reducible assumption
    | with_reducible apply State.sendLeds_keeps

theorem execServicePress_keeps {o s : State} (h : Keeps o s) (ms : Nat) :
    KeepsOut o (execServicePress ms s) := by
  unfold execServicePress
  refine .next ?_
  try dsimp only
  repeat' first
    | with_reducible assumption
    | with_reducible apply Keeps.ite
    | split
    | simp only [Keeps.mk_iff]
    | refine Keeps.of_pair (by with_reducible assumption) ?_
    | dsimp only

theorem execLocateExpiry_keeps {o s : State} (h : Keeps o s) :
    KeepsOut o (execLocateExpiry s) := by
  unfold execLocateExpiry
  refine .next ?_
  try dsimp only
  repeat' first
    | with_reducible assumption
    | with_reducible apply Keeps.ite
    | split
    | simp only [Keeps.mk_iff]

end Sys2Proof.Machine
end

