-- ==== Sys2Proof/Laws/KeepsLinks.lean ====
section
/-! SUPPORT. Machine/Links.lean keeps the queue and the canonical form of the stores. -/

namespace Sys2Proof.Machine

theorem execAckRx_keeps {o s : State} (h : Keeps o s) (x : Nat) (ackseq : BitVec 16) :
    KeepsOut o (execAckRx x ackseq s) := by
  unfold execAckRx
  refine .next ?_
  try dsimp only
  repeat' first
    | with_reducible assumption
    | with_reducible apply State.ackTo_keeps

theorem execAckSend_keeps {o s : State} (h : Keeps o s) (x : Nat) :
    KeepsOut o (execAckSend x s) := by
  unfold execAckSend
  refine .next ?_
  try dsimp only
  repeat' first
    | with_reducible assumption
    | intro _
    | with_reducible apply Keeps.ite
    | with_reducible apply State.onPort_keeps
    | with_reducible apply State.sendControl_keeps
    | split

theorem execNackRx_keeps {o s : State} (h : Keeps o s) (x : Nat) (ackseq : BitVec 16) (frame : Bool) :
    KeepsOut o (execNackRx x ackseq frame s) := by
  unfold execNackRx
  refine .next ?_
  try dsimp only
  repeat' first
    | with_reducible assumption
    | intro _
    | with_reducible apply Keeps.ite
    | with_reducible apply State.onPort_keeps
    | with_reducible apply State.bump_keeps
    | with_reducible apply State.nackTo_keeps
    | split

theorem execRetryTimeout_keeps {o s : State} (h : Keeps o s) (x : Nat) :
    KeepsOut o (execRetryTimeout x s) := by
  unfold execRetryTimeout
  refine .next ?_
  try dsimp only
  repeat' first
    | with_reducible assumption
    | intro _
    | with_reducible apply Keeps.ite
    | with_reducible apply State.onPort_keeps
    | with_reducible apply State.retransmit_keeps
    | split

theorem execRetryEpisodeExpiry_keeps {o s : State} (h : Keeps o s) (x : Nat) :
    KeepsOut o (execRetryEpisodeExpiry x s) := by
  unfold execRetryEpisodeExpiry
  refine .next ?_
  try dsimp only
  repeat' first
    | with_reducible assumption
    | intro _
    | with_reducible apply Keeps.ite
    | with_reducible apply State.onPort_keeps
    | with_reducible apply State.startRetrain_keeps
    | split

theorem execCreditRx_keeps {o s : State} (h : Keeps o s) (x : Nat) (payload : List (BitVec 8)) :
    KeepsOut o (execCreditRx x payload s) := by
  unfold execCreditRx
  refine .next ?_
  try dsimp only
  repeat' first
    | with_reducible assumption
    | with_reducible apply State.takeCredits_keeps

theorem execCreditSend_keeps {o s : State} (h : Keeps o s) (x : Nat) (all : Bool) :
    KeepsOut o (execCreditSend x all s) := by
  unfold execCreditSend
  refine .next ?_
  try dsimp only
  repeat' first
    | with_reducible assumption
    | with_reducible apply Keeps.ite
    | with_reducible apply State.sendCredits_keeps
    | split

end Sys2Proof.Machine
end

