-- ==== Sys2Proof/Laws/KeepsPortRows.lean ====
section
/-! SUPPORT. Machine/PortRows.lean keeps the queue and the canonical form of the stores. -/

namespace Sys2Proof.Machine

theorem execFrameTxStart_keeps {o s : State} (h : Keeps o s) (x : Nat) :
    KeepsOut o (execFrameTxStart x s) := by
  unfold execFrameTxStart
  refine .next ?_
  try dsimp only
  repeat' first
    | with_reducible assumption
    | with_reducible apply State.txStart_keeps

theorem execFrameTxEnd_keeps {o s : State} (h : Keeps o s) (x : Nat) :
    KeepsOut o (execFrameTxEnd x s) := by
  unfold execFrameTxEnd
  refine .next ?_
  try dsimp only
  repeat' first
    | with_reducible assumption
    | with_reducible apply State.txEnd_keeps

theorem execTokenRefill_keeps {o s : State} (h : Keeps o s) :
    KeepsOut o (execTokenRefill s) := by
  unfold execTokenRefill
  refine .next ?_
  try dsimp only
  repeat' first
    | with_reducible assumption
    | intro _
    | with_reducible apply Keeps.ite
    | with_reducible apply State.refillSlice_keeps
    | with_reducible apply Keeps.foldl
    | with_reducible apply Keeps.foldl_pair
    | split
    | simp only [Keeps.mk_iff]
    | refine Keeps.of_pair (by with_reducible assumption) ?_
    | dsimp only

theorem execShpCommit_keeps {o s : State} (h : Keeps o s) (n : Nat) :
    KeepsOut o (execShpCommit n s) := by
  unfold execShpCommit
  refine .next ?_
  try dsimp only
  repeat' first
    | with_reducible assumption
    | intro _
    | with_reducible apply State.shpCommit_keeps
    | simp only [Keeps.mk_iff]
    | refine Keeps.of_pair (by with_reducible assumption) ?_
    | dsimp only

theorem execQueueSample_keeps {o s : State} (h : Keeps o s) :
    KeepsOut o (execQueueSample s) := by
  unfold execQueueSample
  refine .next ?_
  try dsimp only
  repeat' first
    | with_reducible assumption
    | intro _
    | with_reducible apply Keeps.ite
    | with_reducible apply State.sampleAll_keeps
    | split
    | simp only [Keeps.mk_iff]
    | refine Keeps.of_pair (by with_reducible assumption) ?_
    | dsimp only

theorem execClearMax_keeps {o s : State} (h : Keeps o s) (n : Nat) :
    KeepsOut o (execClearMax n s) := by
  unfold execClearMax
  refine .next ?_
  try dsimp only
  repeat' first
    | with_reducible assumption
    | with_reducible apply State.clearMax_keeps

theorem execSlotStart_keeps {o s : State} (h : Keeps o s) (x : Nat) (e : Nat) :
    KeepsOut o (execSlotStart x e s) := by
  unfold execSlotStart
  refine .next ?_
  try dsimp only
  repeat' first
    | with_reducible assumption
    | with_reducible apply State.slotStart_keeps

theorem execSlotSpanEnd_keeps {o s : State} (h : Keeps o s) (n : Nat) :
    KeepsOut o (execSlotSpanEnd n s) := by
  unfold execSlotSpanEnd
  refine .next ?_
  try dsimp only
  repeat' first
    | with_reducible assumption
    | with_reducible apply State.slotSpanEnd_keeps

theorem execSchedSlip_keeps {o s : State} (h : Keeps o s) (n : Nat) :
    KeepsOut o (execSchedSlip n s) := by
  unfold execSchedSlip
  refine .next ?_
  try dsimp only
  repeat' first
    | with_reducible assumption
    | with_reducible apply State.slip_keeps

end Sys2Proof.Machine
end

