-- ==== Sys2Proof/Laws/KeepsSecurity.lean ====
section
/-! SUPPORT. Machine/Security.lean keeps the queue and the canonical form of the stores. -/

namespace Sys2Proof.Machine

theorem State.openSession_keeps {o s : State} (h : Keeps o s) (path : Option CmdPath) (id : Nat) (ems : Bytes) (chain : Option Bytes) :
    Keeps o (State.openSession s path id ems chain) := by
  unfold State.openSession
  try dsimp only
  repeat' first
    | with_reducible assumption
    | intro _
    | with_reducible apply Keeps.ite
    | with_reducible apply State.setSessions_keeps
    | with_reducible apply State.sessionUp_keeps
    | with_reducible apply State.sessionFailed_keeps
    | split

theorem State.closeSession_keeps {o s : State} (h : Keeps o s) (id : Nat) :
    Keeps o (State.closeSession s id) := by
  unfold State.closeSession
  try dsimp only
  repeat' first
    | with_reducible assumption
    | intro _
    | with_reducible apply State.setSessions_keeps
    | with_reducible apply State.onPort_keeps
    | with_reducible apply State.endSession_keeps
    | split

theorem State.spdm_keeps {o s : State} (h : Keeps o s) (path : Option CmdPath) (request : Bytes) :
    Keeps o (State.spdm s path request).1 := by
  unfold State.spdm
  try dsimp only
  repeat' first
    | with_reducible assumption
    | intro _
    | with_reducible apply Keeps.ite
    | with_reducible apply State.request_keeps
    | with_reducible apply State.openSession_keeps
    | with_reducible apply State.closeSession_keeps
    | split
    | simp only [Keeps.mk_iff]
    | refine Keeps.of_pair (by with_reducible assumption) ?_
    | dsimp only

theorem State.spdmCommand_keeps {o s : State} (h : Keeps o s) (c : TakenX) :
    Keeps o (State.spdmCommand s c) := by
  unfold State.spdmCommand
  try dsimp only
  repeat' first
    | with_reducible assumption
    | with_reducible apply Keeps.ite
    | with_reducible apply State.installEpoch_keeps
    | with_reducible apply State.respond_keeps
    | with_reducible apply State.spdm_keeps
    | split
    | refine Keeps.of_pair (by with_reducible assumption) ?_

theorem State.secReport_keeps {o s : State} (h : Keeps o s) (c : TakenX) :
    Keeps o (State.secReport s c) := by
  unfold State.secReport
  try dsimp only
  repeat' first
    | with_reducible assumption
    | with_reducible apply Keeps.ite
    | with_reducible apply State.respond_keeps
    | split

theorem State.opApply_keeps {o s : State} (h : Keeps o s) (c : TakenX) :
    Keeps o (State.opApply s c) := by
  unfold State.opApply
  try dsimp only
  repeat' first
    | with_reducible assumption
    | with_reducible apply Keeps.ite
    | with_reducible apply State.showKeys_keeps
    | with_reducible apply State.setFld_keeps
    | split
    | simp only [Keeps.mk_iff]

theorem State.debugSet_keeps {o s : State} (h : Keeps o s) (c : TakenX) :
    Keeps o (State.debugSet s c) := by
  unfold State.debugSet
  try dsimp only
  repeat' first
    | with_reducible assumption
    | intro _
    | with_reducible apply Keeps.ite
    | with_reducible apply State.respond_keeps
    | with_reducible apply State.setFld_keeps
    | split

theorem State.partRemove_keeps {o s : State} (h : Keeps o s) (c : TakenX) :
    Keeps o (State.partRemove s c) := by
  unfold State.partRemove
  try dsimp only
  repeat' first
    | with_reducible assumption
    | with_reducible apply Keeps.ite
    | with_reducible apply State.respond_keeps
    | with_reducible apply State.setFld_keeps
    | with_reducible apply State.wr_keeps
    | split
    | simp only [Keeps.mk_iff]

theorem State.startDraining_keeps {o s : State} (h : Keeps o s) :
    Keeps o (State.startDraining s) := by
  unfold State.startDraining
  try dsimp only
  repeat' first
    | with_reducible assumption
    | intro _
    | with_reducible apply Keeps.ite
    | with_reducible apply State.setFld_keeps
    | with_reducible apply Keeps.foldl
    | split

theorem State.drained_keeps {o s : State} (h : Keeps o s) (p : Nat) :
    Keeps o (State.drained s p) := by
  unfold State.drained
  try dsimp only
  repeat' first
    | with_reducible assumption
    | with_reducible apply Keeps.ite
    | with_reducible apply State.setFld_keeps
    | split

theorem State.pastDeadline_keeps {o s : State} (h : Keeps o s) (p : Nat) :
    Keeps o (State.pastDeadline s p) := by
  unfold State.pastDeadline
  try dsimp only
  repeat' first
    | with_reducible assumption
    | intro _
    | with_reducible apply Keeps.ite
    | with_reducible apply State.abortCtx_keeps
    | with_reducible apply State.setMg_keeps
    | with_reducible apply State.showQueue_keeps
    | with_reducible apply State.setFld_keeps
    | with_reducible apply Keeps.foldl
    | split
    | simp only [Keeps.mk_iff]

theorem State.retirePort_keeps {o s : State} (h : Keeps o s) (x : Nat) (p : Nat) :
    Keeps o (State.retirePort s x p) := by
  unfold State.retirePort
  try dsimp only
  repeat' first
    | with_reducible assumption
    | intro _
    | with_reducible apply Keeps.ite
    | with_reducible apply State.setPort_keeps
    | with_reducible apply State.showEpochs_keeps
    | with_reducible apply State.setFld_keeps
    | with_reducible apply Keeps.foldl
    | split
    | simp only [Keeps.mk_iff]

theorem State.retired_keeps {o s : State} (h : Keeps o s) (p : Nat) :
    Keeps o (State.retired s p) := by
  unfold State.retired
  try dsimp only
  repeat' first
    | with_reducible assumption
    | intro _
    | with_reducible apply Keeps.ite
    | with_reducible apply State.retirePort_keeps
    | with_reducible apply State.freeWhere_keeps
    | with_reducible apply State.bump_keeps
    | with_reducible apply State.unbindCtx_keeps
    | with_reducible apply State.setFld_keeps
    | with_reducible apply Keeps.foldl
    | with_reducible apply Keeps.foldl_pair
    | split
    | simp only [Keeps.mk_iff]
    | refine Keeps.of_pair (by with_reducible assumption) ?_
    | dsimp only

theorem State.zeroCore_keeps {o s : State} (h : Keeps o s) (n : Nat) :
    Keeps o (State.zeroCore s n) := by
  unfold State.zeroCore
  try dsimp only
  repeat' first
    | with_reducible assumption
    | with_reducible apply State.stopEngines_keeps
    | with_reducible apply State.setCore_keeps
    | with_reducible apply State.leaveProgram_keeps
    | with_reducible apply State.zeroSram_keeps

theorem State.zeroised_keeps {o s : State} (h : Keeps o s) (p : Nat) :
    Keeps o (State.zeroised s p) := by
  unfold State.zeroised
  try dsimp only
  repeat' first
    | with_reducible assumption
    | intro _
    | with_reducible apply Keeps.ite
    | with_reducible apply State.freeWhere_keeps
    | with_reducible apply State.zeroSram_keeps
    | with_reducible apply State.zeroCore_keeps
    | with_reducible apply State.clearCtx_keeps
    | with_reducible apply State.setMg_keeps
    | with_reducible apply State.setSessions_keeps
    | with_reducible apply State.applyImage_keeps
    | with_reducible apply State.buildPool_keeps
    | with_reducible apply State.showQueue_keeps
    | with_reducible apply State.setFld_keeps
    | with_reducible apply State.respond_keeps
    | with_reducible apply Keeps.foldl
    | split
    | simp only [Keeps.mk_iff]

theorem State.linkRekey_keeps {o s : State} (h : Keeps o s) (c : TakenX) :
    Keeps o (State.linkRekey s c) := by
  unfold State.linkRekey
  try dsimp only
  repeat' first
    | with_reducible assumption
    | with_reducible apply Keeps.ite
    | with_reducible apply State.respond_keeps
    | with_reducible apply State.startRekey_keeps
    | split

theorem State.linkAnswer_keeps {o s : State} (h : Keeps o s) (x : Nat) (msg : Bytes) :
    Keeps o (State.linkAnswer s x msg) := by
  unfold State.linkAnswer
  try dsimp only
  repeat' first
    | with_reducible assumption
    | intro _
    | with_reducible apply Keeps.ite
    | with_reducible apply State.onPort_keeps
    | with_reducible apply State.rekeyAcked_keeps
    | with_reducible apply State.linkMove_keeps
    | split

theorem State.workDone_keeps {o s : State} (h : Keeps o s) (c : TakenX) (w : Work) :
    Keeps o (State.workDone s c w) := by
  unfold State.workDone
  try dsimp only
  repeat' first
    | with_reducible assumption
    | intro _
    | with_reducible apply Keeps.ite
    | with_reducible apply State.respond_keeps
    | with_reducible apply State.fwChunk_keeps
    | with_reducible apply State.withNv_keeps
    | with_reducible apply State.fwEnd_keeps
    | with_reducible apply State.fwEnded_keeps
    | with_reducible apply State.setFld_keeps
    | with_reducible apply State.relayClear_keeps
    | with_reducible apply State.written_keeps
    | with_reducible apply State.recInstalled_keeps
    | with_reducible apply State.opApply_keeps
    | split
    | simp only [Keeps.mk_iff]
    | refine Keeps.of_pair (by with_reducible assumption) ?_
    | dsimp only

theorem State.endWork_keeps {o s : State} (h : Keeps o s) (i : Nat) (ok : Bool) :
    Keeps o (State.endWork s i ok) := by
  unfold State.endWork
  try dsimp only
  repeat' first
    | with_reducible assumption
    | with_reducible apply Keeps.ite
    | with_reducible apply State.workDone_keeps
    | with_reducible apply State.respond_keeps
    | split
    | simp only [Keeps.mk_iff]

theorem execSpdmMsg_keeps {o s : State} (h : Keeps o s) :
    KeepsOut o (execSpdmMsg s) := by
  unfold execSpdmMsg
  refine .next ?_
  try dsimp only
  repeat' first
    | with_reducible assumption
    | intro _
    | with_reducible apply State.run_keeps
    | with_reducible apply State.spdmCommand_keeps

theorem execSpdmVdmRx_keeps {o s : State} (h : Keeps o s) (message : List (BitVec 8)) :
    KeepsOut o (execSpdmVdmRx message s) := by
  unfold execSpdmVdmRx
  refine .next ?_
  try dsimp only
  repeat' first
    | with_reducible assumption
    | with_reducible apply State.spdm_keeps
    | with_reducible apply State.emit_keeps
    | split
    | refine Keeps.of_pair (by with_reducible assumption) ?_

theorem execSecReport_keeps {o s : State} (h : Keeps o s) :
    KeepsOut o (execSecReport s) := by
  unfold execSecReport
  refine .next ?_
  try dsimp only
  repeat' first
    | with_reducible assumption
    | intro _
    | with_reducible apply State.run_keeps
    | with_reducible apply State.secReport_keeps

theorem execSecOpkey_keeps {o s : State} (h : Keeps o s) :
    KeepsOut o (execSecOpkey s) := by
  unfold execSecOpkey
  refine .next ?_
  try dsimp only
  repeat' first
    | with_reducible assumption
    | intro _
    | with_reducible apply Keeps.ite
    | with_reducible apply State.run_keeps
    | with_reducible apply State.startWork_keeps
    | with_reducible apply State.respond_keeps
    | split

theorem execDebugSet_keeps {o s : State} (h : Keeps o s) :
    KeepsOut o (execDebugSet s) := by
  unfold execDebugSet
  refine .next ?_
  try dsimp only
  repeat' first
    | with_reducible assumption
    | intro _
    | with_reducible apply State.run_keeps
    | with_reducible apply State.debugSet_keeps

theorem execPartRemove_keeps {o s : State} (h : Keeps o s) :
    KeepsOut o (execPartRemove s) := by
  unfold execPartRemove
  refine .next ?_
  try dsimp only
  repeat' first
    | with_reducible assumption
    | intro _
    | with_reducible apply State.run_keeps
    | with_reducible apply State.partRemove_keeps

theorem execRemovalDrained_keeps {o s : State} (h : Keeps o s) (p : Nat) :
    KeepsOut o (execRemovalDrained p s) := by
  unfold execRemovalDrained
  refine .next ?_
  try dsimp only
  repeat' first
    | with_reducible assumption
    | with_reducible apply State.drained_keeps

theorem execRemovalDeadline_keeps {o s : State} (h : Keeps o s) (p : Nat) :
    KeepsOut o (execRemovalDeadline p s) := by
  unfold execRemovalDeadline
  refine .next ?_
  try dsimp only
  repeat' first
    | with_reducible assumption
    | with_reducible apply State.pastDeadline_keeps

theorem execRetiringDone_keeps {o s : State} (h : Keeps o s) (p : Nat) :
    KeepsOut o (execRetiringDone p s) := by
  unfold execRetiringDone
  refine .next ?_
  try dsimp only
  repeat' first
    | with_reducible assumption
    | with_reducible apply State.retired_keeps

theorem execZeroiseDone_keeps {o s : State} (h : Keeps o s) (p : Nat) :
    KeepsOut o (execZeroiseDone p s) := by
  unfold execZeroiseDone
  refine .next ?_
  try dsimp only
  repeat' first
    | with_reducible assumption
    | with_reducible apply State.zeroised_keeps

theorem execLinkRekey_keeps {o s : State} (h : Keeps o s) :
    KeepsOut o (execLinkRekey s) := by
  unfold execLinkRekey
  refine .next ?_
  try dsimp only
  repeat' first
    | with_reducible assumption
    | intro _
    | with_reducible apply State.run_keeps
    | with_reducible apply State.linkRekey_keeps

theorem execRekeyReqRx_keeps {o s : State} (h : Keeps o s) (x : Nat) (p : Nat) (gen : BitVec 32) :
    KeepsOut o (execRekeyReqRx x p gen s) := by
  unfold execRekeyReqRx
  refine .next ?_
  try dsimp only
  repeat' first
    | with_reducible assumption
    | intro _
    | with_reducible apply Keeps.ite
    | with_reducible apply State.installEpoch_keeps
    | with_reducible apply State.respond_keeps
    | split

theorem execRekeyAckRx_keeps {o s : State} (h : Keeps o s) (x : Nat) (p : Nat) (gen : BitVec 32) :
    KeepsOut o (execRekeyAckRx x p gen s) := by
  unfold execRekeyAckRx
  refine .next ?_
  try dsimp only
  repeat' first
    | with_reducible assumption
    | intro _
    | with_reducible apply State.onPort_keeps
    | with_reducible apply State.rekeyAcked_keeps

theorem execLinkSessionRetry_keeps {o s : State} (h : Keeps o s) (x : Nat) :
    KeepsOut o (execLinkSessionRetry x s) := by
  unfold execLinkSessionRetry
  refine .next ?_
  try dsimp only
  repeat' first
    | with_reducible assumption
    | intro _
    | with_reducible apply Keeps.ite
    | with_reducible apply State.onPort_keeps
    | with_reducible apply State.setPort_keeps
    | with_reducible apply State.startSession_keeps
    | split
    | simp only [Keeps.mk_iff]

theorem execTapAccess_keeps {o s : State} (h : Keeps o s) :
    KeepsOut o (execTapAccess s) := by
  unfold execTapAccess
  refine .next ?_
  try dsimp only
  repeat' first
    | with_reducible assumption
    | with_reducible apply State.setFld_keeps

theorem execBackgroundCommandDone_keeps {o s : State} (h : Keeps o s) (index : BitVec 16) (ok : Bool) :
    KeepsOut o (execBackgroundCommandDone index ok s) := by
  unfold execBackgroundCommandDone
  refine .next ?_
  try dsimp only
  repeat' first
    | with_reducible assumption
    | with_reducible apply State.endWork_keeps

end Sys2Proof.Machine
end

