-- ==== Sys2Proof/Laws/KeepsStreams.lean ====
section
/-! SUPPORT. Machine/Streams.lean keeps the queue and the canonical form of the stores. -/

namespace Sys2Proof.Machine

theorem State.tookTile_keeps {o s : State} (h : Keeps o s) (n : Nat) (q : Copy) (t : Nat) :
    Keeps o (State.tookTile s n q t) := by
  unfold State.tookTile
  try dsimp only
  repeat' first
    | with_reducible assumption
    | intro _
    | with_reducible apply Keeps.ite
    | with_reducible apply State.freeCopy_keeps
    | with_reducible apply State.setCopy_keeps
    | split
    | simp only [Keeps.mk_iff]
    | refine Keeps.of_pair (by with_reducible assumption) ?_
    | dsimp only

theorem State.seWrite_keeps {o s : State} (h : Keeps o s) (n : Nat) (k : Nat) :
    Keeps o (State.seWrite s n k) := by
  unfold State.seWrite
  try dsimp only
  repeat' first
    | with_reducible assumption
    | intro _
    | with_reducible apply Keeps.ite
    | with_reducible apply State.seAdvance_keeps
    | with_reducible apply State.setCopy_keeps
    | with_reducible apply State.seFault_keeps
    | with_reducible apply State.writeSram_keeps
    | with_reducible apply State.tookTile_keeps
    | split
    | simp only [Keeps.mk_iff]
    | refine Keeps.of_pair (by with_reducible assumption) ?_
    | dsimp only

theorem State.noteTiles_keeps {o s : State} (h : Keeps o s) (n : Nat) (e : EngineX) (t : Nat) (m : Nat) :
    Keeps o (State.noteTiles s n e t m) := by
  unfold State.noteTiles
  try dsimp only
  repeat' first
    | with_reducible assumption
    | intro _
    | with_reducible apply State.noteRead_keeps
    | with_reducible apply Keeps.foldl
    | with_reducible apply Keeps.foldl_pair
    | simp only [Keeps.mk_iff]
    | refine Keeps.of_pair (by with_reducible assumption) ?_
    | dsimp only

theorem State.seOffered_keeps {o s : State} (h : Keeps o s) (n : Nat) (k : Nat) (m : Nat) (group : Option Nat) :
    Keeps o (State.seOffered s n k m group) := by
  unfold State.seOffered
  try dsimp only
  repeat' first
    | with_reducible assumption
    | intro _
    | with_reducible apply State.setEngine_keeps
    | with_reducible apply State.seLand_keeps
    | simp only [Keeps.mk_iff]
    | refine Keeps.of_pair (by with_reducible assumption) ?_
    | dsimp only

theorem State.askAll_keeps {o s : State} (h : Keeps o s) (n : Nat) (k : Nat) (ps : List Placed) :
    Keeps o (State.askAll s n k ps) := by
  unfold State.askAll
  try dsimp only
  repeat' first
    | with_reducible assumption
    | intro _
    | with_reducible apply State.ask_keeps
    | with_reducible apply State.run_keeps
    | with_reducible apply State.drop_keeps
    | with_reducible apply Keeps.foldl
    | with_reducible apply Keeps.foldl_pair
    | split
    | simp only [Keeps.mk_iff]
    | refine Keeps.of_pair (by with_reducible assumption) ?_
    | dsimp only

theorem State.seQueue_keeps {o s : State} (h : Keeps o s) (n : Nat) (k : Nat) :
    Keeps o (State.seQueue s n k) := by
  unfold State.seQueue
  try dsimp only
  repeat' first
    | with_reducible assumption
    | intro _
    | with_reducible apply Keeps.ite
    | with_reducible apply State.run_keeps
    | with_reducible apply State.seOffered_keeps
    | with_reducible apply State.noteTiles_keeps
    | with_reducible apply State.seFault_keeps
    | with_reducible apply State.noteNan_keeps
    | with_reducible apply State.askAll_keeps
    | split
    | simp only [Keeps.mk_iff]
    | refine Keeps.of_pair (by with_reducible assumption) ?_
    | dsimp only

theorem State.oweEcho_keeps {o s : State} (h : Keeps o s) (n : Nat) (f : Frame) :
    Keeps o (State.oweEcho s n f) := by
  unfold State.oweEcho
  try dsimp only
  repeat' first
    | with_reducible assumption
    | intro _
    | with_reducible apply Keeps.ite
    | split
    | simp only [Keeps.mk_iff]
    | refine Keeps.of_pair (by with_reducible assumption) ?_
    | dsimp only

theorem State.sendEcho_keeps {o s : State} (h : Keeps o s) (e : EchoX) :
    Keeps o (State.sendEcho s e) := by
  unfold State.sendEcho
  try dsimp only
  repeat' first
    | with_reducible assumption
    | intro _
    | with_reducible apply State.originate_keeps
    | with_reducible apply State.route_keeps
    | with_reducible apply State.bump_keeps
    | split
    | simp only [Keeps.mk_iff]
    | refine Keeps.of_pair (by with_reducible assumption) ?_
    | dsimp only

theorem State.sendEchoes_keeps {o s : State} (h : Keeps o s) :
    Keeps o (State.sendEchoes s) := by
  unfold State.sendEchoes
  try dsimp only
  repeat' first
    | with_reducible assumption
    | intro _
    | with_reducible apply State.sendEcho_keeps
    | with_reducible apply Keeps.foldl
    | with_reducible apply Keeps.foldl_pair
    | simp only [Keeps.mk_iff]
    | refine Keeps.of_pair (by with_reducible assumption) ?_
    | dsimp only

theorem State.takeEcho_keeps {o s : State} (h : Keeps o s) (n : Nat) (part : Nat) (b : Bytes) :
    Keeps o (State.takeEcho s n part b) := by
  unfold State.takeEcho
  try dsimp only
  repeat' first
    | with_reducible assumption
    | intro _
    | with_reducible apply Keeps.ite
    | with_reducible apply State.bump_keeps
    | split
    | simp only [Keeps.mk_iff]
    | refine Keeps.of_pair (by with_reducible assumption) ?_
    | dsimp only

theorem State.cutRate_keeps {o s : State} (h : Keeps o s) (e : Nat × Nat × Nat) :
    Keeps o (State.cutRate s e) := by
  unfold State.cutRate
  try dsimp only
  repeat' first
    | with_reducible assumption
    | intro _
    | with_reducible apply Keeps.ite
    | with_reducible apply State.setFld_keeps
    | with_reducible apply State.bump_keeps
    | split
    | simp only [Keeps.mk_iff]
    | refine Keeps.of_pair (by with_reducible assumption) ?_
    | dsimp only

theorem State.cutRates_keeps {o s : State} (h : Keeps o s) :
    Keeps o (State.cutRates s) := by
  unfold State.cutRates
  try dsimp only
  repeat' first
    | with_reducible assumption
    | intro _
    | with_reducible apply State.cutRate_keeps
    | with_reducible apply Keeps.foldl
    | with_reducible apply Keeps.foldl_pair
    | simp only [Keeps.mk_iff]
    | refine Keeps.of_pair (by with_reducible assumption) ?_
    | dsimp only

theorem execSeTileWrite_keeps {o s : State} (h : Keeps o s) (n : Nat) (k : Nat) :
    KeepsOut o (execSeTileWrite n k s) := by
  unfold execSeTileWrite
  refine .next ?_
  try dsimp only
  repeat' first
    | with_reducible assumption
    | with_reducible apply State.seWrite_keeps

theorem execSeFrameQueue_keeps {o s : State} (h : Keeps o s) (n : Nat) (k : Nat) :
    KeepsOut o (execSeFrameQueue n k s) := by
  unfold execSeFrameQueue
  refine .next ?_
  try dsimp only
  repeat' first
    | with_reducible assumption
    | with_reducible apply State.seQueue_keeps

theorem execEchoY5Rx_keeps {o s : State} (h : Keeps o s) (n : Nat) (part : Nat) (payload : List (BitVec 8)) :
    KeepsOut o (execEchoY5Rx n part payload s) := by
  unfold execEchoY5Rx
  refine .next ?_
  try dsimp only
  repeat' first
    | with_reducible assumption
    | with_reducible apply State.takeEcho_keeps

theorem execEchoWindowEnd_keeps {o s : State} (h : Keeps o s) :
    KeepsOut o (execEchoWindowEnd s) := by
  unfold execEchoWindowEnd
  refine .next ?_
  try dsimp only
  repeat' first
    | with_reducible assumption
    | intro _
    | with_reducible apply Keeps.ite
    | with_reducible apply State.sendEchoes_keeps
    | split
    | simp only [Keeps.mk_iff]
    | refine Keeps.of_pair (by with_reducible assumption) ?_
    | dsimp only

end Sys2Proof.Machine
end

