-- ==== Sys2Proof/Laws/KeepsSync.lean ====
section
/-! SUPPORT. Machine/Sync.lean keeps the queue and the canonical form of the stores. -/

namespace Sys2Proof.Machine

theorem State.setSync_keeps {o s : State} (h : Keeps o s) (y : SyncX) :
    Keeps o (State.setSync s y) := by
  unfold State.setSync
  try dsimp only
  repeat' first
    | with_reducible assumption
    | simp only [Keeps.mk_iff]

theorem State.armLoad_keeps {o s : State} (h : Keeps o s) :
    Keeps o (State.armLoad s) := by
  unfold State.armLoad
  try dsimp only
  repeat' first
    | with_reducible assumption
    | with_reducible apply Keeps.ite
    | with_reducible apply State.setSync_keeps
    | split
    | simp only [Keeps.mk_iff]

theorem State.setCount_keeps {o s : State} (h : Keeps o s) (v : Nat) :
    Keeps o (State.setCount s v) := by
  unfold State.setCount
  try dsimp only
  repeat' first
    | with_reducible assumption
    | with_reducible apply State.setFld_keeps

theorem State.correct_keeps {o s : State} (h : Keeps o s) :
    Keeps o (State.correct s) := by
  unfold State.correct
  try dsimp only
  repeat' first
    | with_reducible assumption
    | intro _
    | with_reducible apply Keeps.ite
    | with_reducible apply State.setSync_keeps
    | with_reducible apply State.setCount_keeps
    | with_reducible apply State.bump_keeps
    | split
    | simp only [Keeps.mk_iff]
    | refine Keeps.of_pair (by with_reducible assumption) ?_
    | dsimp only

theorem State.pulse_keeps {o s : State} (h : Keeps o s) (frac : Nat) :
    Keeps o (State.pulse s frac) := by
  unfold State.pulse
  try dsimp only
  repeat' first
    | with_reducible assumption
    | intro _
    | with_reducible apply Keeps.ite
    | with_reducible apply State.bump_keeps
    | with_reducible apply State.setFld_keeps
    | with_reducible apply State.setSync_keeps
    | with_reducible apply State.setCount_keeps
    | with_reducible apply Keeps.foldl
    | split
    | simp only [Keeps.mk_iff]

theorem State.pulseLost_keeps {o s : State} (h : Keeps o s) :
    Keeps o (State.pulseLost s) := by
  unfold State.pulseLost
  try dsimp only
  repeat' first
    | with_reducible assumption
    | with_reducible apply Keeps.ite
    | with_reducible apply State.setFld_keeps
    | with_reducible apply State.report_keeps
    | with_reducible apply State.setSync_keeps
    | split
    | simp only [Keeps.mk_iff]

theorem State.askTime_keeps {o s : State} (h : Keeps o s) :
    Keeps o (State.askTime s) := by
  unfold State.askTime
  try dsimp only
  repeat' first
    | with_reducible assumption
    | intro _
    | with_reducible apply Keeps.ite
    | with_reducible apply State.setSync_keeps
    | with_reducible apply State.sendControl_keeps
    | split
    | simp only [Keeps.mk_iff]
    | refine Keeps.of_pair (by with_reducible assumption) ?_
    | dsimp only

theorem State.answerTime_keeps {o s : State} (h : Keeps o s) (x : Nat) (p : Bytes) (time : Nat) :
    Keeps o (State.answerTime s x p time) := by
  unfold State.answerTime
  try dsimp only
  repeat' first
    | with_reducible assumption
    | intro _
    | with_reducible apply Keeps.ite
    | with_reducible apply State.onPort_keeps
    | with_reducible apply State.sendControl_keeps
    | split

theorem State.toAcquire_keeps {o s : State} (h : Keeps o s) :
    Keeps o (State.toAcquire s) := by
  unfold State.toAcquire
  try dsimp only
  repeat' first
    | with_reducible assumption
    | with_reducible apply State.setSync_keeps
    | with_reducible apply State.setFld_keeps
    | with_reducible apply State.report_keeps
    | simp only [Keeps.mk_iff]

theorem State.stepSync_keeps {o s : State} (h : Keeps o s) (theta : Int) :
    Keeps o (State.stepSync s theta) := by
  unfold State.stepSync
  try dsimp only
  repeat' first
    | with_reducible assumption
    | intro _
    | with_reducible apply Keeps.ite
    | with_reducible apply State.setSync_keeps
    | with_reducible apply State.setFld_keeps
    | with_reducible apply State.toAcquire_keeps
    | with_reducible apply Keeps.foldl
    | split
    | simp only [Keeps.mk_iff]

theorem State.takeTime_keeps {o s : State} (h : Keeps o s) (x : Nat) (p : Bytes) (time : Nat) :
    Keeps o (State.takeTime s x p time) := by
  unfold State.takeTime
  try dsimp only
  repeat' first
    | with_reducible assumption
    | intro _
    | with_reducible apply Keeps.ite
    | with_reducible apply State.onPort_keeps
    | with_reducible apply State.setSync_keeps
    | with_reducible apply State.setFld_keeps
    | with_reducible apply State.stepSync_keeps
    | with_reducible apply State.report_keeps
    | split
    | simp only [Keeps.mk_iff]

theorem State.missExchange_keeps {o s : State} (h : Keeps o s) :
    Keeps o (State.missExchange s) := by
  unfold State.missExchange
  try dsimp only
  repeat' first
    | with_reducible assumption
    | with_reducible apply Keeps.ite
    | with_reducible apply State.setSync_keeps
    | with_reducible apply State.setFld_keeps
    | with_reducible apply State.parentLost_keeps
    | split
    | simp only [Keeps.mk_iff]

theorem State.drift_keeps {o s : State} (h : Keeps o s) :
    Keeps o (State.drift s) := by
  unfold State.drift
  try dsimp only
  repeat' first
    | with_reducible assumption
    | with_reducible apply Keeps.ite
    | with_reducible apply State.setSync_keeps
    | with_reducible apply State.report_keeps
    | split
    | simp only [Keeps.mk_iff]

theorem execCounterEnd_keeps {o s : State} (h : Keeps o s) :
    KeepsOut o (execCounterEnd s) := by
  unfold execCounterEnd
  refine .next ?_
  try dsimp only
  repeat' first
    | with_reducible assumption
    | with_reducible apply Keeps.ite
    | with_reducible apply State.report_keeps
    | split

theorem execEpochCorrection_keeps {o s : State} (h : Keeps o s) :
    KeepsOut o (execEpochCorrection s) := by
  unfold execEpochCorrection
  refine .next ?_
  try dsimp only
  repeat' first
    | with_reducible assumption
    | with_reducible apply State.correct_keeps

theorem execSyncInPulse_keeps {o s : State} (h : Keeps o s) (frac : Nat) :
    KeepsOut o (execSyncInPulse frac s) := by
  unfold execSyncInPulse
  refine .next ?_
  try dsimp only
  repeat' first
    | with_reducible assumption
    | with_reducible apply State.pulse_keeps

theorem execSchLoadArm_keeps {o s : State} (h : Keeps o s) :
    KeepsOut o (execSchLoadArm s) := by
  unfold execSchLoadArm
  refine .next ?_
  try dsimp only
  repeat' first
    | with_reducible assumption
    | with_reducible apply State.armLoad_keeps

theorem execTimeReqSend_keeps {o s : State} (h : Keeps o s) :
    KeepsOut o (execTimeReqSend s) := by
  unfold execTimeReqSend
  refine .next ?_
  try dsimp only
  repeat' first
    | with_reducible assumption
    | with_reducible apply State.askTime_keeps

theorem execTimeReqRx_keeps {o s : State} (h : Keeps o s) (x : Nat) (payload : List (BitVec 8)) (time : Nat) :
    KeepsOut o (execTimeReqRx x payload time s) := by
  unfold execTimeReqRx
  refine .next ?_
  try dsimp only
  repeat' first
    | with_reducible assumption
    | with_reducible apply State.answerTime_keeps

theorem execTimeRspRx_keeps {o s : State} (h : Keeps o s) (x : Nat) (payload : List (BitVec 8)) (time : Nat) :
    KeepsOut o (execTimeRspRx x payload time s) := by
  unfold execTimeRspRx
  refine .next ?_
  try dsimp only
  repeat' first
    | with_reducible assumption
    | with_reducible apply State.takeTime_keeps

theorem execExchangeMissed_keeps {o s : State} (h : Keeps o s) :
    KeepsOut o (execExchangeMissed s) := by
  unfold execExchangeMissed
  refine .next ?_
  try dsimp only
  repeat' first
    | with_reducible assumption
    | with_reducible apply State.missExchange_keeps

theorem execSyncInLost_keeps {o s : State} (h : Keeps o s) :
    KeepsOut o (execSyncInLost s) := by
  unfold execSyncInLost
  refine .next ?_
  try dsimp only
  repeat' first
    | with_reducible assumption
    | with_reducible apply State.pulseLost_keeps

theorem execSyncDrift_keeps {o s : State} (h : Keeps o s) :
    KeepsOut o (execSyncDrift s) := by
  unfold execSyncDrift
  refine .next ?_
  try dsimp only
  repeat' first
    | with_reducible assumption
    | with_reducible apply State.drift_keeps
    | split

end Sys2Proof.Machine
end

