-- ==== Sys2Proof/Laws/KeepsReceive.lean ====
section
/-! SUPPORT. Machine/Receive.lean keeps the queue and the canonical form of the stores. -/

namespace Sys2Proof.Machine

theorem State.hunt_keeps {o s : State} (h : Keeps o s) (n : Nat) (j : Nat) (x : Nat) (cause : Nat) :
    Keeps o (State.hunt s n j x cause) := by
  unfold State.hunt
  try dsimp only
  repeat' first
    | with_reducible assumption
    | with_reducible apply State.setFld_keeps
    | with_reducible apply State.startEpisode_keeps

theorem State.framing_keeps {o s : State} (h : Keeps o s) (n : Nat) (j : Nat) (x : Nat) (raw : Bytes) (errored : Bool) :
    Keeps o (State.framing s n j x raw errored).1 := by
  unfold State.framing
  try dsimp only
  repeat' first
    | with_reducible assumption
    | with_reducible apply Keeps.ite
    | with_reducible apply State.injectSpent_keeps
    | with_reducible apply State.startEpisode_keeps
    | with_reducible apply State.setFld_keeps
    | with_reducible apply State.drop_keeps
    | with_reducible apply State.hunt_keeps
    | split
    | dsimp only
    | with_reducible apply Keeps.foldl_pair

theorem State.headerAcks_keeps {o s : State} (h : Keeps o s) (x : Nat) (f : Frame) :
    Keeps o (State.headerAcks s x f) := by
  unfold State.headerAcks
  try dsimp only
  repeat' first
    | with_reducible assumption
    | with_reducible apply Keeps.ite
    | with_reducible apply State.nackTo_keeps
    | with_reducible apply State.ackTo_keeps
    | split

theorem State.linkLocalRx_keeps {o s : State} (h : Keeps o s) (n : Nat) (j : Nat) (x : Nat) (f : Frame) (time : Nat) :
    Keeps o (State.linkLocalRx s n j x f time) := by
  unfold State.linkLocalRx
  try dsimp only
  repeat' first
    | with_reducible assumption
    | with_reducible apply Keeps.ite
    | with_reducible apply State.helloRx_keeps
    | with_reducible apply State.takeCredits_keeps
    | with_reducible apply State.bump_keeps
    | with_reducible apply State.nackTo_keeps
    | with_reducible apply State.answerTime_keeps
    | with_reducible apply State.takeTime_keeps
    | split

theorem State.rxDrop_keeps {o s : State} (h : Keeps o s) (n : Nat) (j : Nat) (cause : Nat) (f : Frame) :
    Keeps o (State.rxDrop s n j cause f) := by
  unfold State.rxDrop
  try dsimp only
  repeat' first
    | with_reducible assumption
    | with_reducible apply Keeps.ite
    | with_reducible apply State.drop_keeps
    | with_reducible apply State.wrap_keeps
    | with_reducible apply State.bump_keeps
    | split

theorem State.charge_keeps {o s : State} (h : Keeps o s) (x : Nat) (f : Frame) :
    Keeps o (State.charge s x f).1 := by
  unfold State.charge
  try dsimp only
  repeat' first
    | with_reducible assumption
    | with_reducible apply Keeps.ite
    | with_reducible apply State.setPort_keeps
    | with_reducible apply State.showCredit_keeps
    | split
    | simp only [Keeps.mk_iff]
    | dsimp only
    | with_reducible apply Keeps.foldl_pair

theorem State.refund_keeps {o s : State} (h : Keeps o s) (x : Nat) (f : Frame) (pair : Option Nat) :
    Keeps o (State.refund s x f pair) := by
  unfold State.refund
  try dsimp only
  repeat' first
    | with_reducible assumption
    | with_reducible apply State.returnCredit_keeps
    | split

theorem State.decrypt_keeps {o s : State} (h0 : Keeps o s) (x : Nat) (f : Frame) (h : Bytes) (body : Bytes) (icv : Bytes) :
    Keeps o (State.decrypt s x f h body icv).1 := by
  unfold State.decrypt
  try dsimp only
  repeat' first
    | with_reducible assumption
    | with_reducible apply Keeps.ite
    | with_reducible apply State.injectSpent_keeps
    | with_reducible apply State.setPort_keeps
    | with_reducible apply State.useEpoch_keeps
    | split
    | simp only [Keeps.mk_iff]
    | dsimp only
    | with_reducible apply Keeps.foldl_pair

theorem State.rejectFrame_keeps {o s : State} (h : Keeps o s) (n : Nat) (code : Nat) (f : Frame) :
    Keeps o (State.rejectFrame s n code f) := by
  unfold State.rejectFrame
  try dsimp only
  repeat' first
    | with_reducible assumption
    | intro _
    | with_reducible apply State.originate_keeps
    | simp only [Keeps.mk_iff]
    | refine Keeps.of_pair (by with_reducible assumption) ?_
    | dsimp only

theorem State.countReject_keeps {o s : State} (h : Keeps o s) (c : Nat) (rsn : Nat) :
    Keeps o (State.countReject s c rsn) := by
  unfold State.countReject
  try dsimp only
  repeat' first
    | with_reducible assumption
    | with_reducible apply State.bump_keeps
    | with_reducible apply State.setFld_keeps

theorem State.collectiveCheck_keeps {o s t : State} (h : Keeps o s) {n j x : Nat} {f : Frame}
    (e : s.collectiveCheck n j x f = some t) : Keeps o t := by
  unfold State.collectiveCheck at e
  dsimp only at e
  repeat' first
    | cases e
    | split at e
  all_goals repeat' first
    | with_reducible assumption
    | with_reducible apply State.wrap_keeps
    | with_reducible apply State.bump_keeps
    | with_reducible apply State.rejectFrame_keeps
    | with_reducible apply State.countReject_keeps

theorem State.holdTag_keeps {o s : State} (h : Keeps o s) (n : Nat) (j : Nat) (x : Nat) (f : Frame) :
    Keeps o (State.holdTag s n j x f) := by
  unfold State.holdTag
  try dsimp only
  repeat' first
    | with_reducible assumption
    | with_reducible apply Keeps.ite
    | with_reducible apply State.setPort_keeps
    | with_reducible apply State.setFld_keeps
    | split
    | simp only [Keeps.mk_iff]

theorem State.placeAll_keeps {o s : State} (h : Keeps o s) (n : Nat) (j : Nat) (x : Nat) (f : Frame) (pair : Option Nat) (launch : Option Nat) (ps : List Placed) :
    Keeps o (State.placeAll s n j x f pair launch ps) := by
  unfold State.placeAll
  try dsimp only
  repeat' first
    | with_reducible assumption
    | intro _
    | with_reducible apply Keeps.ite
    | with_reducible apply State.askCopies_keeps
    | with_reducible apply State.wrap_keeps
    | with_reducible apply State.showStaging_keeps
    | with_reducible apply State.settle_keeps
    | split
    | simp only [Keeps.mk_iff]
    | refine Keeps.of_pair (by with_reducible assumption) ?_
    | dsimp only

theorem State.takeHere_keeps {o s : State} (h : Keeps o s) (n : Nat) (j : Nat) (x : Nat) (f : Frame) (pair : Option Nat) :
    Keeps o (State.takeHere s n j x f pair) := by
  unfold State.takeHere
  try dsimp only
  repeat' first
    | with_reducible assumption
    | intro _
    | with_reducible apply Keeps.ite
    | with_reducible apply State.refund_keeps
    | with_reducible apply State.placeAll_keeps
    | with_reducible apply State.takeEcho_keeps
    | with_reducible apply State.bump_keeps
    | with_reducible apply State.wrap_keeps
    | with_reducible apply State.abortFrame_keeps
    | with_reducible apply State.mgAckFrame_keeps
    | with_reducible apply State.takeForwarded_keeps
    | with_reducible apply State.linkAnswer_keeps
    | with_reducible apply State.relayAnswer_keeps
    | split
    | simp only [Keeps.mk_iff]
    | refine Keeps.of_pair (by with_reducible assumption) ?_
    | dsimp only

theorem State.dispose_keeps {o s : State} (h : Keeps o s) (n : Nat) (j : Nat) (x : Nat) (f : Frame) (pair : Option Nat) :
    Keeps o (State.dispose s n j x f pair) := by
  unfold State.dispose
  try dsimp only
  repeat' first
    | with_reducible assumption
    | intro _
    | with_reducible apply Keeps.ite
    | with_reducible apply State.meter_keeps
    | with_reducible apply State.takeFrame_keeps
    | with_reducible apply State.oweEcho_keeps
    | with_reducible apply State.placeAll_keeps
    | with_reducible apply State.checkDone_keeps
    | with_reducible apply State.takeHere_keeps
    | with_reducible apply State.route_keeps
    | with_reducible apply State.rxDrop_keeps
    | with_reducible apply State.refund_keeps
    | split
    | simp only [Keeps.mk_iff]
    | refine Keeps.of_pair (by with_reducible assumption) ?_
    | dsimp only

theorem State.accepted_keeps {o s : State} (h0 : Keeps o s) (n : Nat) (j : Nat) (x : Nat) (f : Frame) (h : Bytes) (body : Bytes) (icv : Bytes) :
    Keeps o (State.accepted s n j x f h body icv) := by
  unfold State.accepted
  try dsimp only
  repeat' first
    | with_reducible assumption
    | intro _
    | with_reducible apply Keeps.ite
    | with_reducible apply State.charge_keeps
    | with_reducible apply State.rxDrop_keeps
    | with_reducible apply State.refund_keeps
    | with_reducible apply State.decrypt_keeps
    | with_reducible apply State.bump_keeps
    | refine State.collectiveCheck_keeps ?_ (by with_reducible assumption)
    | with_reducible apply State.holdTag_keeps
    | with_reducible apply State.dispose_keeps
    | split
    | simp only [Keeps.mk_iff]
    | refine Keeps.of_pair (by with_reducible assumption) ?_
    | dsimp only

theorem State.sequenced_keeps {o s : State} (h0 : Keeps o s) (n : Nat) (j : Nat) (x : Nat) (f : Frame) (h : Bytes) (body : Bytes) (icv : Bytes) :
    Keeps o (State.sequenced s n j x f h body icv) := by
  unfold State.sequenced
  try dsimp only
  repeat' first
    | with_reducible assumption
    | intro _
    | with_reducible apply Keeps.ite
    | with_reducible apply State.wrap_keeps
    | with_reducible apply State.setFld_keeps
    | with_reducible apply State.endEpisode_keeps
    | with_reducible apply State.setPort_keeps
    | with_reducible apply State.accepted_keeps
    | with_reducible apply State.startEpisode_keeps
    | split
    | simp only [Keeps.mk_iff]
    | refine Keeps.of_pair (by with_reducible assumption) ?_
    | dsimp only

theorem State.frameRx_keeps {o s : State} (h : Keeps o s) (x : Nat) (raw : Bytes) (errored : Bool) (time : Nat) :
    Keeps o (State.frameRx s x raw errored time) := by
  unfold State.frameRx
  try dsimp only
  repeat' first
    | with_reducible assumption
    | intro _
    | with_reducible apply Keeps.ite
    | with_reducible apply State.onPort_keeps
    | with_reducible apply State.framing_keeps
    | with_reducible apply State.headerAcks_keeps
    | with_reducible apply State.linkLocalRx_keeps
    | with_reducible apply State.sequenced_keeps
    | split
    | refine Keeps.of_pair (by with_reducible assumption) ?_

theorem execFrameRx_keeps {o s : State} (h : Keeps o s) (x : Nat) (raw : List (BitVec 8)) (errored : Bool) (time : Nat) :
    KeepsOut o (execFrameRx x raw errored time s) := by
  unfold execFrameRx
  refine .next ?_
  try dsimp only
  repeat' first
    | with_reducible assumption
    | with_reducible apply State.frameRx_keeps

end Sys2Proof.Machine
end

