-- ==== Sys2Proof/Laws/KeepsRegRows.lean ====
section
/-! SUPPORT. Machine/RegRows.lean keeps the queue and the canonical form of the stores. -/

namespace Sys2Proof.Machine

theorem State.writeRegfile_keeps {o s : State} (h : Keeps o s) (r : RegName) (v : Nat) (n : Nat) (j : Nat) (k : Nat) :
    Keeps o (State.writeRegfile s r v n j k) := by
  unfold State.writeRegfile
  try dsimp only
  repeat' first
    | with_reducible assumption
    | with_reducible apply Keeps.ite
    | with_reducible apply State.plainWrite_keeps
    | with_reducible apply State.setFld_keeps
    | split

theorem State.writeRcCtrl_keeps {o s : State} (h : Keeps o s) (n : Nat) (v : Nat) :
    Keeps o (State.writeRcCtrl s n v) := by
  unfold State.writeRcCtrl
  try dsimp only
  repeat' first
    | with_reducible assumption
    | with_reducible apply Keeps.ite
    | with_reducible apply State.setFld_keeps
    | with_reducible apply State.haltReq_keeps
    | with_reducible apply State.resume_keeps
    | with_reducible apply State.stepCore_keeps
    | split

theorem State.writePortCtrl_keeps {o s : State} (h : Keeps o s) (n : Nat) (j : Nat) (v : Nat) :
    Keeps o (State.writePortCtrl s n j v) := by
  unfold State.writePortCtrl
  try dsimp only
  repeat' first
    | with_reducible assumption
    | with_reducible apply Keeps.ite
    | with_reducible apply State.setFld_keeps
    | with_reducible apply State.enablePort_keeps
    | with_reducible apply State.retrainPort_keeps
    | split

theorem State.writeSafe_keeps {o s : State} (h : Keeps o s) (v : Nat) :
    Keeps o (State.writeSafe s v) := by
  unfold State.writeSafe
  try dsimp only
  repeat' first
    | with_reducible assumption
    | with_reducible apply Keeps.ite
    | with_reducible apply State.setFld_keeps
    | with_reducible apply State.exitSafe_keeps
    | split

theorem State.writeBoard_keeps {o s : State} (h : Keeps o s) (i : Nat) (v : Nat) :
    Keeps o (State.writeBoard s i v) := by
  unfold State.writeBoard
  try dsimp only
  repeat' first
    | with_reducible assumption
    | with_reducible apply Keeps.ite
    | with_reducible apply State.plainWrite_keeps
    | split

theorem State.writeSpecial_keeps {o s t : State} (h : Keeps o s) {r : RegName} {v i j k : Nat}
    (e : s.writeSpecial r v i j k = some t) : Keeps o t := by
  unfold State.writeSpecial at e
  split at e
  all_goals first
    | obtain rfl := Option.some.inj e
    | (split at e <;> first
        | obtain rfl := Option.some.inj e
        | exact nomatch e)
    | exact nomatch e
  all_goals repeat' first
    | with_reducible assumption
    | intro _
    | with_reducible apply Keeps.ite
    | with_reducible apply State.writeMask32_keeps
    | with_reducible apply State.maskSlice_keeps
    | with_reducible apply State.maskPort_keeps
    | with_reducible apply State.maskCore_keeps
    | with_reducible apply State.writeCtx_keeps
    | with_reducible apply State.plainWrite_keeps
    | with_reducible apply State.shpCommit_keeps
    | with_reducible apply Keeps.foldl
    | with_reducible apply State.armLoad_keeps
    | with_reducible apply State.writeRcCtrl_keeps
    | with_reducible apply State.writeRegfile_keeps
    | with_reducible apply State.reclaim_keeps
    | with_reducible apply State.flush_keeps
    | with_reducible apply State.writeMask_keeps
    | with_reducible apply State.setSlice_keeps
    | with_reducible apply State.clearMax_keeps
    | with_reducible apply State.writePortCtrl_keeps
    | with_reducible apply State.writeTest_keeps

theorem State.writeControl_keeps {o s t : State} (h : Keeps o s) {r : RegName} {v i : Nat}
    (e : s.writeControl r v i = some t) : Keeps o t := by
  unfold State.writeControl at e
  split at e
  all_goals first
    | obtain rfl := Option.some.inj e
    | exact nomatch e
  all_goals repeat' first
    | with_reducible assumption
    | with_reducible apply Keeps.ite
    | with_reducible apply State.discardStage_keeps
    | with_reducible apply State.writeCommitCtrl_keeps
    | with_reducible apply State.writeTail_keeps
    | with_reducible apply State.writeQp_keeps
    | with_reducible apply State.writeBoard_keeps
    | with_reducible apply State.rewrote_keeps
    | with_reducible apply State.plainWrite_keeps
    | with_reducible apply State.writeErr_keeps
    | with_reducible apply State.writeSev_keeps
    | with_reducible apply State.writeSafe_keeps
    | with_reducible apply State.writeInj_keeps
    | with_reducible apply State.clearSources_keeps
    | with_reducible apply State.writePwr_keeps

theorem State.writeReg_keeps {o s : State} (h : Keeps o s) (r : RegName) (v : Nat) (i : Nat) (j : Nat) (k : Nat) :
    Keeps o (State.writeReg s r v i j k) := by
  unfold State.writeReg
  try dsimp only
  repeat' first
    | with_reducible assumption
    | refine State.writeSpecial_keeps ?_ (by with_reducible assumption)
    | refine State.writeControl_keeps ?_ (by with_reducible assumption)
    | with_reducible apply State.plainWrite_keeps
    | split

theorem State.readMark_keeps {o s : State} (h : Keeps o s) (r : RegName) (i : Nat) :
    Keeps o (State.readMark s r i) := by
  unfold State.readMark
  try dsimp only
  repeat' first
    | with_reducible assumption
    | with_reducible apply Keeps.ite
    | with_reducible apply State.setFld_keeps
    | split

theorem State.writeWindow_keeps {o s : State} (h : Keeps o s) (n : Nat) (a : Nat) (b : Bytes) :
    Keeps o (State.writeWindow s n a b) := by
  unfold State.writeWindow
  try dsimp only
  repeat' first
    | with_reducible assumption
    | intro _
    | with_reducible apply Keeps.ite
    | with_reducible apply State.setFld_keeps
    | with_reducible apply State.cmdIgnored_keeps
    | with_reducible apply State.writeSram_keeps
    | split
    | simp only [Keeps.mk_iff]
    | refine Keeps.of_pair (by with_reducible assumption) ?_
    | dsimp only

theorem State.writeWindows_keeps {o s : State} (h : Keeps o s) (n a w : Nat) (b : Bytes) : Keeps o (s.writeWindows n a w b) := by
  induction w generalizing s a b with
  | zero => exact h
  | succ w ih => exact ih (writeWindow_keeps h ..) ..

theorem State.markWord_keeps {o s : State} (h : Keeps o s) (first : Nat) (off : Nat) :
    Keeps o (State.markWord s first off) := by
  unfold State.markWord
  try dsimp only
  repeat' first
    | with_reducible assumption
    | intro _
    | with_reducible apply Keeps.ite
    | with_reducible apply State.noteUpsets_keeps
    | with_reducible apply State.readMark_keeps
    | split
    | simp only [Keeps.mk_iff]
    | refine Keeps.of_pair (by with_reducible assumption) ?_
    | dsimp only

theorem State.writeRange_keeps {o s : State} (h : Keeps o s) (off w : Nat) (b : Bytes) : Keeps o (s.writeRange off w b) := by
  induction w generalizing s off b with
  | zero => exact h
  | succ w ih =>
    refine ih (Keeps.ite (writeWindow_keeps h ..) ?_) ..
    split
    · exact writeReg_keeps h ..
    · exact h

theorem State.regRead_keeps {o s : State} (h : Keeps o s) (c : TakenX) :
    Keeps o (State.regRead s c) := by
  unfold State.regRead
  try dsimp only
  repeat' first
    | with_reducible assumption
    | intro _
    | with_reducible apply Keeps.ite
    | with_reducible apply State.respond_keeps
    | with_reducible apply State.markWord_keeps
    | with_reducible apply Keeps.foldl
    | with_reducible apply Keeps.foldl_pair
    | split
    | simp only [Keeps.mk_iff]
    | refine Keeps.of_pair (by with_reducible assumption) ?_
    | dsimp only

theorem State.regWrite_keeps {o s : State} (h : Keeps o s) (c : TakenX) :
    Keeps o (State.regWrite s c) := by
  unfold State.regWrite
  try dsimp only
  repeat' first
    | with_reducible assumption
    | with_reducible apply Keeps.ite
    | with_reducible apply State.respond_keeps
    | with_reducible apply State.writeRange_keeps
    | split

theorem execRegisterWrite_keeps {o s : State} (h : Keeps o s) (off : BitVec 30) (value : BitVec 64) :
    KeepsOut o (execRegisterWrite off value s) := by
  unfold execRegisterWrite
  refine .next ?_
  try dsimp only
  repeat' first
    | with_reducible assumption
    | with_reducible apply State.writeReg_keeps
    | split

theorem execRcRegfileWrite_keeps {o s : State} (h : Keeps o s) (n : Nat) (off : BitVec 16) (value : BitVec 64) :
    KeepsOut o (execRcRegfileWrite n off value s) := by
  unfold execRcRegfileWrite
  refine .next ?_
  try dsimp only
  repeat' first
    | with_reducible assumption
    | with_reducible apply Keeps.ite
    | with_reducible apply State.writeRegfile_keeps
    | split

theorem execSramWindowWrite_keeps {o s : State} (h : Keeps o s) (n : Nat) (addr : BitVec 19) (words : List (BitVec 32)) :
    KeepsOut o (execSramWindowWrite n addr words s) := by
  unfold execSramWindowWrite
  refine .next ?_
  try dsimp only
  repeat' first
    | with_reducible assumption
    | intro _
    | with_reducible apply State.writeWindows_keeps

theorem execRegRead_keeps {o s : State} (h : Keeps o s) :
    KeepsOut o (execRegRead s) := by
  unfold execRegRead
  refine .next ?_
  try dsimp only
  repeat' first
    | with_reducible assumption
    | intro _
    | with_reducible apply State.run_keeps
    | with_reducible apply State.regRead_keeps

theorem execRegWrite_keeps {o s : State} (h : Keeps o s) :
    KeepsOut o (execRegWrite s) := by
  unfold execRegWrite
  refine .next ?_
  try dsimp only
  repeat' first
    | with_reducible assumption
    | intro _
    | with_reducible apply State.run_keeps
    | with_reducible apply State.regWrite_keeps

end Sys2Proof.Machine
end

