-- ==== Sys2Proof/Laws/KeepsTick.lean ====
section
/-! SUPPORT. Machine/Tick.lean keeps the queue and the canonical form of the stores. -/

namespace Sys2Proof.Machine

theorem State.advanceCount_keeps {o s : State} (h : Keeps o s) :
    Keeps o (State.advanceCount s) := by
  unfold State.advanceCount
  try dsimp only
  repeat' first
    | with_reducible assumption
    | intro _
    | with_reducible apply Keeps.ite
    | with_reducible apply State.setSync_keeps
    | with_reducible apply State.setCount_keeps
    | split
    | simp only [Keeps.mk_iff]
    | refine Keeps.of_pair (by with_reducible assumption) ?_
    | dsimp only

theorem State.lagTick_keeps {o s : State} (h : Keeps o s) (n : Nat) :
    Keeps o (State.lagTick s n) := by
  unfold State.lagTick
  try dsimp only
  repeat' first
    | with_reducible assumption
    | with_reducible apply Keeps.ite
    | with_reducible apply State.bump_keeps
    | split

theorem State.noteSlots_keeps {o s : State} (h : Keeps o s) (n : Nat) :
    Keeps o (State.noteSlots s n) := by
  unfold State.noteSlots
  try dsimp only
  repeat' first
    | with_reducible assumption
    | intro _
    | with_reducible apply State.setSlice_keeps
    | simp only [Keeps.mk_iff]
    | refine Keeps.of_pair (by with_reducible assumption) ?_
    | dsimp only

theorem State.fillLimiter_keeps {o s : State} (h : Keeps o s) (c : Nat) :
    Keeps o (State.fillLimiter s c) := by
  unfold State.fillLimiter
  try dsimp only
  repeat' first
    | with_reducible assumption
    | with_reducible apply Keeps.ite
    | split
    | simp only [Keeps.mk_iff]

theorem State.clockCore_keeps {o s : State} (h : Keeps o s) (n : Nat) (now : Nat) :
    Keeps o (State.clockCore s n now) := by
  unfold State.clockCore
  try dsimp only
  repeat' first
    | with_reducible assumption
    | intro _
    | with_reducible apply Keeps.ite
    | with_reducible apply State.runCycles_keeps
    | split
    | simp only [Keeps.mk_iff]
    | refine Keeps.of_pair (by with_reducible assumption) ?_
    | dsimp only

theorem State.sendMarkers_keeps {o s : State} (h : Keeps o s) :
    Keeps o (State.sendMarkers s) := by
  unfold State.sendMarkers
  try dsimp only
  repeat' first
    | with_reducible assumption
    | intro _
    | with_reducible apply State.onPort_keeps
    | with_reducible apply State.amSent_keeps
    | with_reducible apply Keeps.foldl

theorem State.deliverAll_keeps {o s : State} (h : Keeps o s) :
    Keeps o (State.deliverAll s) := by
  unfold State.deliverAll
  try dsimp only
  repeat' first
    | with_reducible assumption
    | intro _
    | with_reducible apply State.deliverRaise_keeps
    | with_reducible apply Keeps.foldl

theorem State.sendCodewords_keeps {o s : State} (h : Keeps o s) (now : Nat) :
    Keeps o (State.sendCodewords s now) := by
  unfold State.sendCodewords
  try dsimp only
  repeat' first
    | with_reducible assumption
    | intro _
    | with_reducible apply Keeps.ite
    | with_reducible apply State.sendPeriod_keeps
    | with_reducible apply Keeps.foldl
    | with_reducible apply Keeps.foldl_pair
    | split
    | simp only [Keeps.mk_iff]
    | refine Keeps.of_pair (by with_reducible assumption) ?_
    | dsimp only

theorem State.grantAll_keeps {o s : State} (h : Keeps o s) :
    Keeps o (State.grantAll s) := by
  unfold State.grantAll
  try dsimp only
  repeat' first
    | with_reducible assumption
    | intro _
    | with_reducible apply State.applyCredits_keeps
    | with_reducible apply Keeps.foldl
    | with_reducible apply Keeps.foldl_pair
    | simp only [Keeps.mk_iff]
    | refine Keeps.of_pair (by with_reducible assumption) ?_
    | dsimp only

theorem State.bringUp_keeps {o s : State} (h : Keeps o s) :
    Keeps o (State.bringUp s) := by
  unfold State.bringUp
  try dsimp only
  repeat' first
    | with_reducible assumption
    | intro _
    | with_reducible apply State.onPort_keeps
    | with_reducible apply State.tryUp_keeps
    | with_reducible apply Keeps.foldl
    | with_reducible apply Keeps.foldl_pair
    | simp only [Keeps.mk_iff]
    | refine Keeps.of_pair (by with_reducible assumption) ?_
    | dsimp only

theorem State.tick_keeps {o s : State} (h : Keeps o s) :
    Keeps o (State.tick s) := by
  unfold State.tick
  try dsimp only
  repeat' first
    | with_reducible assumption
    | intro _
    | with_reducible apply Keeps.ite
    | with_reducible apply State.noteSlots_keeps
    | with_reducible apply State.closeTick_keeps
    | with_reducible apply State.endPauses_keeps
    | with_reducible apply State.advanceCount_keeps
    | with_reducible apply State.fillLimiter_keeps
    | with_reducible apply State.lagTick_keeps
    | with_reducible apply State.clockCore_keeps
    | with_reducible apply State.sendMarkers_keeps
    | with_reducible apply State.sendCodewords_keeps
    | with_reducible apply State.bringUp_keeps
    | with_reducible apply State.grantAll_keeps
    | with_reducible apply State.cutRates_keeps
    | with_reducible apply State.checkSelf_keeps
    | with_reducible apply State.eventTick_keeps
    | with_reducible apply State.deliverAll_keeps
    | with_reducible apply State.countConfirm_keeps
    | with_reducible apply State.startDraining_keeps
    | with_reducible apply Keeps.foldl
    | with_reducible apply Keeps.foldl_pair
    | split
    | simp only [Keeps.mk_iff]
    | refine Keeps.of_pair (by with_reducible assumption) ?_
    | dsimp only

end Sys2Proof.Machine
end

