-- ==== Sys2Proof/Laws/Regs.lean ====
section
/-! SUPPORT. What the named operations over registers and core SRAM do: reads after writes, and that nothing else changes. -/

namespace Sys2Proof.Machine

namespace State

/-- A register written reads back modulo 2^64. -/
theorem rd_wr_self {s : State} (h : s.Inv) (r : RegName) (v i j k : Nat) : (s.wr r v i j k).rd r i j k = v % 2 ^ 64 := by
  unfold rd wr
  rw [readKey_writeKey_self h.1, BitVec.xor_assoc, BitVec.xor_self, BitVec.xor_zero, BitVec.toNat_ofNat]

/-- Every other register reads as before. -/
theorem rd_wr_ne {s : State} (h : s.Inv) {r q : RegName} {v i j k a b c : Nat} (n : q.addr a b c ≠ r.addr i j k) :
    (s.wr r v i j k).rd q a b c = s.rd q a b c := by
  unfold rd wr
  rw [readKey_writeKey_ne h.1 n]

/-- A field written reads back. -/
theorem fld_setFld_self {s : State} (h : s.Inv) (f : Fld) (v i j k : Nat) (hw : f.lo + f.w ≤ 64) :
    (s.setFld f v i j k).fld f i j k = v % 2 ^ f.w := by
  unfold fld setFld
  rw [rd_wr_self h, bitsOf_mod64 hw, bitsOf_putBits_self]

/-- Another field of the same register reads as before. -/
theorem fld_setFld_apart {s : State} (h : s.Inv) {f g : Fld} {v i j k : Nat} (hr : g.reg = f.reg) (hw : g.lo + g.w ≤ 64)
    (ha : g.lo + g.w ≤ f.lo ∨ f.lo + f.w ≤ g.lo) : (s.setFld f v i j k).fld g i j k = s.fld g i j k := by
  unfold fld setFld
  rw [hr, rd_wr_self h, bitsOf_mod64 hw, bitsOf_putBits_apart ha]

/-- A field of another register, or of another place of it, reads as before. -/
theorem fld_setFld_ne {s : State} (h : s.Inv) {f g : Fld} {v i j k a b c : Nat} (n : g.reg.addr a b c ≠ f.reg.addr i j k) :
    (s.setFld f v i j k).fld g a b c = s.fld g a b c := by
  unfold fld setFld
  rw [rd_wr_ne h n]

/-- A byte of core SRAM written reads back. -/
theorem sram_setSram_self {s : State} (h : s.Inv) (n a : Nat) (b : Byte) : (s.setSram n a b).sram n a = b :=
  readKey_writeKey_self h.2.2

/-- Every other byte reads as before. -/
theorem sram_setSram_ne {s : State} (h : s.Inv) {n a m c : Nat} {b : Byte} (e : sramKey m c ≠ sramKey n a) :
    (s.setSram n a b).sram m c = s.sram m c :=
  readKey_writeKey_ne h.2.2 e

end State

end Sys2Proof.Machine
end

