-- ==== Sys2Proof/Laws/State.lean ====
section
/-! SUPPORT. What each named operation leaves of every field of State, by rfl. -/

namespace Sys2Proof.Machine

namespace State

@[simp] theorem setFld_shadow (s : State) (f : Fld) (v i j k : Nat) : (s.setFld f v i j k).shadow = s.shadow := rfl
@[simp] theorem setFld_mem (s : State) (f : Fld) (v i j k : Nat) : (s.setFld f v i j k).mem = s.mem := rfl
@[simp] theorem setFld_cores (s : State) (f : Fld) (v i j k : Nat) : (s.setFld f v i j k).cores = s.cores := rfl
@[simp] theorem setFld_upsets (s : State) (f : Fld) (v i j k : Nat) : (s.setFld f v i j k).upsets = s.upsets := rfl
@[simp] theorem setFld_fc (s : State) (f : Fld) (v i j k : Nat) : (s.setFld f v i j k).fc = s.fc := rfl
@[simp] theorem setFld_image (s : State) (f : Fld) (v i j k : Nat) : (s.setFld f v i j k).image = s.image := rfl
@[simp] theorem setFld_stage (s : State) (f : Fld) (v i j k : Nat) : (s.setFld f v i j k).stage = s.stage := rfl
@[simp] theorem setFld_copies (s : State) (f : Fld) (v i j k : Nat) : (s.setFld f v i j k).copies = s.copies := rfl
@[simp] theorem setFld_arrivals (s : State) (f : Fld) (v i j k : Nat) : (s.setFld f v i j k).arrivals = s.arrivals := rfl
@[simp] theorem setFld_pools (s : State) (f : Fld) (v i j k : Nat) : (s.setFld f v i j k).pools = s.pools := rfl
@[simp] theorem setFld_slices (s : State) (f : Fld) (v i j k : Nat) : (s.setFld f v i j k).slices = s.slices := rfl
@[simp] theorem setFld_ports (s : State) (f : Fld) (v i j k : Nat) : (s.setFld f v i j k).ports = s.ports := rfl
@[simp] theorem setFld_tokens (s : State) (f : Fld) (v i j k : Nat) : (s.setFld f v i j k).tokens = s.tokens := rfl
@[simp] theorem setFld_limiter (s : State) (f : Fld) (v i j k : Nat) : (s.setFld f v i j k).limiter = s.limiter := rfl
@[simp] theorem setFld_echoed (s : State) (f : Fld) (v i j k : Nat) : (s.setFld f v i j k).echoed = s.echoed := rfl
@[simp] theorem setFld_cuts (s : State) (f : Fld) (v i j k : Nat) : (s.setFld f v i j k).cuts = s.cuts := rfl
@[simp] theorem setFld_echoes (s : State) (f : Fld) (v i j k : Nat) : (s.setFld f v i j k).echoes = s.echoes := rfl
@[simp] theorem setFld_flushing (s : State) (f : Fld) (v i j k : Nat) : (s.setFld f v i j k).flushing = s.flushing := rfl
@[simp] theorem setFld_flushedAt (s : State) (f : Fld) (v i j k : Nat) : (s.setFld f v i j k).flushedAt = s.flushedAt := rfl
@[simp] theorem setFld_serial (s : State) (f : Fld) (v i j k : Nat) : (s.setFld f v i j k).serial = s.serial := rfl
@[simp] theorem setFld_ctxs (s : State) (f : Fld) (v i j k : Nat) : (s.setFld f v i j k).ctxs = s.ctxs := rfl
@[simp] theorem setFld_aborts (s : State) (f : Fld) (v i j k : Nat) : (s.setFld f v i j k).aborts = s.aborts := rfl
@[simp] theorem setFld_ctxWrites (s : State) (f : Fld) (v i j k : Nat) : (s.setFld f v i j k).ctxWrites = s.ctxWrites := rfl
@[simp] theorem setFld_unbound (s : State) (f : Fld) (v i j k : Nat) : (s.setFld f v i j k).unbound = s.unbound := rfl
@[simp] theorem setFld_groups (s : State) (f : Fld) (v i j k : Nat) : (s.setFld f v i j k).groups = s.groups := rfl
@[simp] theorem setFld_resetEnd (s : State) (f : Fld) (v i j k : Nat) : (s.setFld f v i j k).resetEnd = s.resetEnd := rfl
@[simp] theorem setFld_mg (s : State) (f : Fld) (v i j k : Nat) : (s.setFld f v i j k).mg = s.mg := rfl
@[simp] theorem setFld_sync (s : State) (f : Fld) (v i j k : Nat) : (s.setFld f v i j k).sync = s.sync := rfl
@[simp] theorem setFld_lanes (s : State) (f : Fld) (v i j k : Nat) : (s.setFld f v i j k).lanes = s.lanes := rfl
@[simp] theorem setFld_pcs (s : State) (f : Fld) (v i j k : Nat) : (s.setFld f v i j k).pcs = s.pcs := rfl
@[simp] theorem setFld_i2cFails (s : State) (f : Fld) (v i j k : Nat) : (s.setFld f v i j k).i2cFails = s.i2cFails := rfl
@[simp] theorem setFld_svc (s : State) (f : Fld) (v i j k : Nat) : (s.setFld f v i j k).svc = s.svc := rfl
@[simp] theorem setFld_cmd (s : State) (f : Fld) (v i j k : Nat) : (s.setFld f v i j k).cmd = s.cmd := rfl
@[simp] theorem setFld_sec (s : State) (f : Fld) (v i j k : Nat) : (s.setFld f v i j k).sec = s.sec := rfl
@[simp] theorem setFld_tel (s : State) (f : Fld) (v i j k : Nat) : (s.setFld f v i j k).tel = s.tel := rfl
@[simp] theorem setFld_pwr (s : State) (f : Fld) (v i j k : Nat) : (s.setFld f v i j k).pwr = s.pwr := rfl
@[simp] theorem setFld_nv (s : State) (f : Fld) (v i j k : Nat) : (s.setFld f v i j k).nv = s.nv := rfl
@[simp] theorem setFld_boot (s : State) (f : Fld) (v i j k : Nat) : (s.setFld f v i j k).boot = s.boot := rfl
@[simp] theorem setFld_outbox (s : State) (f : Fld) (v i j k : Nat) : (s.setFld f v i j k).outbox = s.outbox := rfl
@[simp] theorem setFld_free (s : State) (f : Fld) (v i j k : Nat) : (s.setFld f v i j k).free = s.free := rfl
@[simp] theorem setFld_pending (s : State) (f : Fld) (v i j k : Nat) : (s.setFld f v i j k).pending = s.pending := rfl
@[simp] theorem wr_shadow (s : State) (r : RegName) (v i j k : Nat) : (s.wr r v i j k).shadow = s.shadow := rfl
@[simp] theorem wr_mem (s : State) (r : RegName) (v i j k : Nat) : (s.wr r v i j k).mem = s.mem := rfl
@[simp] theorem wr_cores (s : State) (r : RegName) (v i j k : Nat) : (s.wr r v i j k).cores = s.cores := rfl
@[simp] theorem wr_upsets (s : State) (r : RegName) (v i j k : Nat) : (s.wr r v i j k).upsets = s.upsets := rfl
@[simp] theorem wr_fc (s : State) (r : RegName) (v i j k : Nat) : (s.wr r v i j k).fc = s.fc := rfl
@[simp] theorem wr_image (s : State) (r : RegName) (v i j k : Nat) : (s.wr r v i j k).image = s.image := rfl
@[simp] theorem wr_stage (s : State) (r : RegName) (v i j k : Nat) : (s.wr r v i j k).stage = s.stage := rfl
@[simp] theorem wr_copies (s : State) (r : RegName) (v i j k : Nat) : (s.wr r v i j k).copies = s.copies := rfl
@[simp] theorem wr_arrivals (s : State) (r : RegName) (v i j k : Nat) : (s.wr r v i j k).arrivals = s.arrivals := rfl
@[simp] theorem wr_pools (s : State) (r : RegName) (v i j k : Nat) : (s.wr r v i j k).pools = s.pools := rfl
@[simp] theorem wr_slices (s : State) (r : RegName) (v i j k : Nat) : (s.wr r v i j k).slices = s.slices := rfl
@[simp] theorem wr_ports (s : State) (r : RegName) (v i j k : Nat) : (s.wr r v i j k).ports = s.ports := rfl
@[simp] theorem wr_tokens (s : State) (r : RegName) (v i j k : Nat) : (s.wr r v i j k).tokens = s.tokens := rfl
@[simp] theorem wr_limiter (s : State) (r : RegName) (v i j k : Nat) : (s.wr r v i j k).limiter = s.limiter := rfl
@[simp] theorem wr_echoed (s : State) (r : RegName) (v i j k : Nat) : (s.wr r v i j k).echoed = s.echoed := rfl
@[simp] theorem wr_cuts (s : State) (r : RegName) (v i j k : Nat) : (s.wr r v i j k).cuts = s.cuts := rfl
@[simp] theorem wr_echoes (s : State) (r : RegName) (v i j k : Nat) : (s.wr r v i j k).echoes = s.echoes := rfl
@[simp] theorem wr_flushing (s : State) (r : RegName) (v i j k : Nat) : (s.wr r v i j k).flushing = s.flushing := rfl
@[simp] theorem wr_flushedAt (s : State) (r : RegName) (v i j k : Nat) : (s.wr r v i j k).flushedAt = s.flushedAt := rfl
@[simp] theorem wr_serial (s : State) (r : RegName) (v i j k : Nat) : (s.wr r v i j k).serial = s.serial := rfl
@[simp] theorem wr_ctxs (s : State) (r : RegName) (v i j k : Nat) : (s.wr r v i j k).ctxs = s.ctxs := rfl
@[simp] theorem wr_aborts (s : State) (r : RegName) (v i j k : Nat) : (s.wr r v i j k).aborts = s.aborts := rfl
@[simp] theorem wr_ctxWrites (s : State) (r : RegName) (v i j k : Nat) : (s.wr r v i j k).ctxWrites = s.ctxWrites := rfl
@[simp] theorem wr_unbound (s : State) (r : RegName) (v i j k : Nat) : (s.wr r v i j k).unbound = s.unbound := rfl
@[simp] theorem wr_groups (s : State) (r : RegName) (v i j k : Nat) : (s.wr r v i j k).groups = s.groups := rfl
@[simp] theorem wr_resetEnd (s : State) (r : RegName) (v i j k : Nat) : (s.wr r v i j k).resetEnd = s.resetEnd := rfl
@[simp] theorem wr_mg (s : State) (r : RegName) (v i j k : Nat) : (s.wr r v i j k).mg = s.mg := rfl
@[simp] theorem wr_sync (s : State) (r : RegName) (v i j k : Nat) : (s.wr r v i j k).sync = s.sync := rfl
@[simp] theorem wr_lanes (s : State) (r : RegName) (v i j k : Nat) : (s.wr r v i j k).lanes = s.lanes := rfl
@[simp] theorem wr_pcs (s : State) (r : RegName) (v i j k : Nat) : (s.wr r v i j k).pcs = s.pcs := rfl
@[simp] theorem wr_i2cFails (s : State) (r : RegName) (v i j k : Nat) : (s.wr r v i j k).i2cFails = s.i2cFails := rfl
@[simp] theorem wr_svc (s : State) (r : RegName) (v i j k : Nat) : (s.wr r v i j k).svc = s.svc := rfl
@[simp] theorem wr_cmd (s : State) (r : RegName) (v i j k : Nat) : (s.wr r v i j k).cmd = s.cmd := rfl
@[simp] theorem wr_sec (s : State) (r : RegName) (v i j k : Nat) : (s.wr r v i j k).sec = s.sec := rfl
@[simp] theorem wr_tel (s : State) (r : RegName) (v i j k : Nat) : (s.wr r v i j k).tel = s.tel := rfl
@[simp] theorem wr_pwr (s : State) (r : RegName) (v i j k : Nat) : (s.wr r v i j k).pwr = s.pwr := rfl
@[simp] theorem wr_nv (s : State) (r : RegName) (v i j k : Nat) : (s.wr r v i j k).nv = s.nv := rfl
@[simp] theorem wr_boot (s : State) (r : RegName) (v i j k : Nat) : (s.wr r v i j k).boot = s.boot := rfl
@[simp] theorem wr_outbox (s : State) (r : RegName) (v i j k : Nat) : (s.wr r v i j k).outbox = s.outbox := rfl
@[simp] theorem wr_free (s : State) (r : RegName) (v i j k : Nat) : (s.wr r v i j k).free = s.free := rfl
@[simp] theorem wr_pending (s : State) (r : RegName) (v i j k : Nat) : (s.wr r v i j k).pending = s.pending := rfl
@[simp] theorem bump_shadow (s : State) (f : Fld) (n i j k : Nat) : (s.bump f n i j k).shadow = s.shadow := rfl
@[simp] theorem bump_mem (s : State) (f : Fld) (n i j k : Nat) : (s.bump f n i j k).mem = s.mem := rfl
@[simp] theorem bump_cores (s : State) (f : Fld) (n i j k : Nat) : (s.bump f n i j k).cores = s.cores := rfl
@[simp] theorem bump_upsets (s : State) (f : Fld) (n i j k : Nat) : (s.bump f n i j k).upsets = s.upsets := rfl
@[simp] theorem bump_fc (s : State) (f : Fld) (n i j k : Nat) : (s.bump f n i j k).fc = s.fc := rfl
@[simp] theorem bump_image (s : State) (f : Fld) (n i j k : Nat) : (s.bump f n i j k).image = s.image := rfl
@[simp] theorem bump_stage (s : State) (f : Fld) (n i j k : Nat) : (s.bump f n i j k).stage = s.stage := rfl
@[simp] theorem bump_copies (s : State) (f : Fld) (n i j k : Nat) : (s.bump f n i j k).copies = s.copies := rfl
@[simp] theorem bump_arrivals (s : State) (f : Fld) (n i j k : Nat) : (s.bump f n i j k).arrivals = s.arrivals := rfl
@[simp] theorem bump_pools (s : State) (f : Fld) (n i j k : Nat) : (s.bump f n i j k).pools = s.pools := rfl
@[simp] theorem bump_slices (s : State) (f : Fld) (n i j k : Nat) : (s.bump f n i j k).slices = s.slices := rfl
@[simp] theorem bump_ports (s : State) (f : Fld) (n i j k : Nat) : (s.bump f n i j k).ports = s.ports := rfl
@[simp] theorem bump_tokens (s : State) (f : Fld) (n i j k : Nat) : (s.bump f n i j k).tokens = s.tokens := rfl
@[simp] theorem bump_limiter (s : State) (f : Fld) (n i j k : Nat) : (s.bump f n i j k).limiter = s.limiter := rfl
@[simp] theorem bump_echoed (s : State) (f : Fld) (n i j k : Nat) : (s.bump f n i j k).echoed = s.echoed := rfl
@[simp] theorem bump_cuts (s : State) (f : Fld) (n i j k : Nat) : (s.bump f n i j k).cuts = s.cuts := rfl
@[simp] theorem bump_echoes (s : State) (f : Fld) (n i j k : Nat) : (s.bump f n i j k).echoes = s.echoes := rfl
@[simp] theorem bump_flushing (s : State) (f : Fld) (n i j k : Nat) : (s.bump f n i j k).flushing = s.flushing := rfl
@[simp] theorem bump_flushedAt (s : State) (f : Fld) (n i j k : Nat) : (s.bump f n i j k).flushedAt = s.flushedAt := rfl
@[simp] theorem bump_serial (s : State) (f : Fld) (n i j k : Nat) : (s.bump f n i j k).serial = s.serial := rfl
@[simp] theorem bump_ctxs (s : State) (f : Fld) (n i j k : Nat) : (s.bump f n i j k).ctxs = s.ctxs := rfl
@[simp] theorem bump_aborts (s : State) (f : Fld) (n i j k : Nat) : (s.bump f n i j k).aborts = s.aborts := rfl
@[simp] theorem bump_ctxWrites (s : State) (f : Fld) (n i j k : Nat) : (s.bump f n i j k).ctxWrites = s.ctxWrites := rfl
@[simp] theorem bump_unbound (s : State) (f : Fld) (n i j k : Nat) : (s.bump f n i j k).unbound = s.unbound := rfl
@[simp] theorem bump_groups (s : State) (f : Fld) (n i j k : Nat) : (s.bump f n i j k).groups = s.groups := rfl
@[simp] theorem bump_resetEnd (s : State) (f : Fld) (n i j k : Nat) : (s.bump f n i j k).resetEnd = s.resetEnd := rfl
@[simp] theorem bump_mg (s : State) (f : Fld) (n i j k : Nat) : (s.bump f n i j k).mg = s.mg := rfl
@[simp] theorem bump_sync (s : State) (f : Fld) (n i j k : Nat) : (s.bump f n i j k).sync = s.sync := rfl
@[simp] theorem bump_lanes (s : State) (f : Fld) (n i j k : Nat) : (s.bump f n i j k).lanes = s.lanes := rfl
@[simp] theorem bump_pcs (s : State) (f : Fld) (n i j k : Nat) : (s.bump f n i j k).pcs = s.pcs := rfl
@[simp] theorem bump_i2cFails (s : State) (f : Fld) (n i j k : Nat) : (s.bump f n i j k).i2cFails = s.i2cFails := rfl
@[simp] theorem bump_svc (s : State) (f : Fld) (n i j k : Nat) : (s.bump f n i j k).svc = s.svc := rfl
@[simp] theorem bump_cmd (s : State) (f : Fld) (n i j k : Nat) : (s.bump f n i j k).cmd = s.cmd := rfl
@[simp] theorem bump_sec (s : State) (f : Fld) (n i j k : Nat) : (s.bump f n i j k).sec = s.sec := rfl
@[simp] theorem bump_tel (s : State) (f : Fld) (n i j k : Nat) : (s.bump f n i j k).tel = s.tel := rfl
@[simp] theorem bump_pwr (s : State) (f : Fld) (n i j k : Nat) : (s.bump f n i j k).pwr = s.pwr := rfl
@[simp] theorem bump_nv (s : State) (f : Fld) (n i j k : Nat) : (s.bump f n i j k).nv = s.nv := rfl
@[simp] theorem bump_boot (s : State) (f : Fld) (n i j k : Nat) : (s.bump f n i j k).boot = s.boot := rfl
@[simp] theorem bump_outbox (s : State) (f : Fld) (n i j k : Nat) : (s.bump f n i j k).outbox = s.outbox := rfl
@[simp] theorem bump_free (s : State) (f : Fld) (n i j k : Nat) : (s.bump f n i j k).free = s.free := rfl
@[simp] theorem bump_pending (s : State) (f : Fld) (n i j k : Nat) : (s.bump f n i j k).pending = s.pending := rfl
@[simp] theorem wrap_shadow (s : State) (f : Fld) (n i j k : Nat) : (s.wrap f n i j k).shadow = s.shadow := rfl
@[simp] theorem wrap_mem (s : State) (f : Fld) (n i j k : Nat) : (s.wrap f n i j k).mem = s.mem := rfl
@[simp] theorem wrap_cores (s : State) (f : Fld) (n i j k : Nat) : (s.wrap f n i j k).cores = s.cores := rfl
@[simp] theorem wrap_upsets (s : State) (f : Fld) (n i j k : Nat) : (s.wrap f n i j k).upsets = s.upsets := rfl
@[simp] theorem wrap_fc (s : State) (f : Fld) (n i j k : Nat) : (s.wrap f n i j k).fc = s.fc := rfl
@[simp] theorem wrap_image (s : State) (f : Fld) (n i j k : Nat) : (s.wrap f n i j k).image = s.image := rfl
@[simp] theorem wrap_stage (s : State) (f : Fld) (n i j k : Nat) : (s.wrap f n i j k).stage = s.stage := rfl
@[simp] theorem wrap_copies (s : State) (f : Fld) (n i j k : Nat) : (s.wrap f n i j k).copies = s.copies := rfl
@[simp] theorem wrap_arrivals (s : State) (f : Fld) (n i j k : Nat) : (s.wrap f n i j k).arrivals = s.arrivals := rfl
@[simp] theorem wrap_pools (s : State) (f : Fld) (n i j k : Nat) : (s.wrap f n i j k).pools = s.pools := rfl
@[simp] theorem wrap_slices (s : State) (f : Fld) (n i j k : Nat) : (s.wrap f n i j k).slices = s.slices := rfl
@[simp] theorem wrap_ports (s : State) (f : Fld) (n i j k : Nat) : (s.wrap f n i j k).ports = s.ports := rfl
@[simp] theorem wrap_tokens (s : State) (f : Fld) (n i j k : Nat) : (s.wrap f n i j k).tokens = s.tokens := rfl
@[simp] theorem wrap_limiter (s : State) (f : Fld) (n i j k : Nat) : (s.wrap f n i j k).limiter = s.limiter := rfl
@[simp] theorem wrap_echoed (s : State) (f : Fld) (n i j k : Nat) : (s.wrap f n i j k).echoed = s.echoed := rfl
@[simp] theorem wrap_cuts (s : State) (f : Fld) (n i j k : Nat) : (s.wrap f n i j k).cuts = s.cuts := rfl
@[simp] theorem wrap_echoes (s : State) (f : Fld) (n i j k : Nat) : (s.wrap f n i j k).echoes = s.echoes := rfl
@[simp] theorem wrap_flushing (s : State) (f : Fld) (n i j k : Nat) : (s.wrap f n i j k).flushing = s.flushing := rfl
@[simp] theorem wrap_flushedAt (s : State) (f : Fld) (n i j k : Nat) : (s.wrap f n i j k).flushedAt = s.flushedAt := rfl
@[simp] theorem wrap_serial (s : State) (f : Fld) (n i j k : Nat) : (s.wrap f n i j k).serial = s.serial := rfl
@[simp] theorem wrap_ctxs (s : State) (f : Fld) (n i j k : Nat) : (s.wrap f n i j k).ctxs = s.ctxs := rfl
@[simp] theorem wrap_aborts (s : State) (f : Fld) (n i j k : Nat) : (s.wrap f n i j k).aborts = s.aborts := rfl
@[simp] theorem wrap_ctxWrites (s : State) (f : Fld) (n i j k : Nat) : (s.wrap f n i j k).ctxWrites = s.ctxWrites := rfl
@[simp] theorem wrap_unbound (s : State) (f : Fld) (n i j k : Nat) : (s.wrap f n i j k).unbound = s.unbound := rfl
@[simp] theorem wrap_groups (s : State) (f : Fld) (n i j k : Nat) : (s.wrap f n i j k).groups = s.groups := rfl
@[simp] theorem wrap_resetEnd (s : State) (f : Fld) (n i j k : Nat) : (s.wrap f n i j k).resetEnd = s.resetEnd := rfl
@[simp] theorem wrap_mg (s : State) (f : Fld) (n i j k : Nat) : (s.wrap f n i j k).mg = s.mg := rfl
@[simp] theorem wrap_sync (s : State) (f : Fld) (n i j k : Nat) : (s.wrap f n i j k).sync = s.sync := rfl
@[simp] theorem wrap_lanes (s : State) (f : Fld) (n i j k : Nat) : (s.wrap f n i j k).lanes = s.lanes := rfl
@[simp] theorem wrap_pcs (s : State) (f : Fld) (n i j k : Nat) : (s.wrap f n i j k).pcs = s.pcs := rfl
@[simp] theorem wrap_i2cFails (s : State) (f : Fld) (n i j k : Nat) : (s.wrap f n i j k).i2cFails = s.i2cFails := rfl
@[simp] theorem wrap_svc (s : State) (f : Fld) (n i j k : Nat) : (s.wrap f n i j k).svc = s.svc := rfl
@[simp] theorem wrap_cmd (s : State) (f : Fld) (n i j k : Nat) : (s.wrap f n i j k).cmd = s.cmd := rfl
@[simp] theorem wrap_sec (s : State) (f : Fld) (n i j k : Nat) : (s.wrap f n i j k).sec = s.sec := rfl
@[simp] theorem wrap_tel (s : State) (f : Fld) (n i j k : Nat) : (s.wrap f n i j k).tel = s.tel := rfl
@[simp] theorem wrap_pwr (s : State) (f : Fld) (n i j k : Nat) : (s.wrap f n i j k).pwr = s.pwr := rfl
@[simp] theorem wrap_nv (s : State) (f : Fld) (n i j k : Nat) : (s.wrap f n i j k).nv = s.nv := rfl
@[simp] theorem wrap_boot (s : State) (f : Fld) (n i j k : Nat) : (s.wrap f n i j k).boot = s.boot := rfl
@[simp] theorem wrap_outbox (s : State) (f : Fld) (n i j k : Nat) : (s.wrap f n i j k).outbox = s.outbox := rfl
@[simp] theorem wrap_free (s : State) (f : Fld) (n i j k : Nat) : (s.wrap f n i j k).free = s.free := rfl
@[simp] theorem wrap_pending (s : State) (f : Fld) (n i j k : Nat) : (s.wrap f n i j k).pending = s.pending := rfl
@[simp] theorem wrShadow_regs (s : State) (r : RegName) (v i j k : Nat) : (s.wrShadow r v i j k).regs = s.regs := rfl
@[simp] theorem wrShadow_mem (s : State) (r : RegName) (v i j k : Nat) : (s.wrShadow r v i j k).mem = s.mem := rfl
@[simp] theorem wrShadow_cores (s : State) (r : RegName) (v i j k : Nat) : (s.wrShadow r v i j k).cores = s.cores := rfl
@[simp] theorem wrShadow_upsets (s : State) (r : RegName) (v i j k : Nat) : (s.wrShadow r v i j k).upsets = s.upsets := rfl
@[simp] theorem wrShadow_fc (s : State) (r : RegName) (v i j k : Nat) : (s.wrShadow r v i j k).fc = s.fc := rfl
@[simp] theorem wrShadow_image (s : State) (r : RegName) (v i j k : Nat) : (s.wrShadow r v i j k).image = s.image := rfl
@[simp] theorem wrShadow_stage (s : State) (r : RegName) (v i j k : Nat) : (s.wrShadow r v i j k).stage = s.stage := rfl
@[simp] theorem wrShadow_copies (s : State) (r : RegName) (v i j k : Nat) : (s.wrShadow r v i j k).copies = s.copies := rfl
@[simp] theorem wrShadow_arrivals (s : State) (r : RegName) (v i j k : Nat) : (s.wrShadow r v i j k).arrivals = s.arrivals := rfl
@[simp] theorem wrShadow_pools (s : State) (r : RegName) (v i j k : Nat) : (s.wrShadow r v i j k).pools = s.pools := rfl
@[simp] theorem wrShadow_slices (s : State) (r : RegName) (v i j k : Nat) : (s.wrShadow r v i j k).slices = s.slices := rfl
@[simp] theorem wrShadow_ports (s : State) (r : RegName) (v i j k : Nat) : (s.wrShadow r v i j k).ports = s.ports := rfl
@[simp] theorem wrShadow_tokens (s : State) (r : RegName) (v i j k : Nat) : (s.wrShadow r v i j k).tokens = s.tokens := rfl
@[simp] theorem wrShadow_limiter (s : State) (r : RegName) (v i j k : Nat) : (s.wrShadow r v i j k).limiter = s.limiter := rfl
@[simp] theorem wrShadow_echoed (s : State) (r : RegName) (v i j k : Nat) : (s.wrShadow r v i j k).echoed = s.echoed := rfl
@[simp] theorem wrShadow_cuts (s : State) (r : RegName) (v i j k : Nat) : (s.wrShadow r v i j k).cuts = s.cuts := rfl
@[simp] theorem wrShadow_echoes (s : State) (r : RegName) (v i j k : Nat) : (s.wrShadow r v i j k).echoes = s.echoes := rfl
@[simp] theorem wrShadow_flushing (s : State) (r : RegName) (v i j k : Nat) : (s.wrShadow r v i j k).flushing = s.flushing := rfl
@[simp] theorem wrShadow_flushedAt (s : State) (r : RegName) (v i j k : Nat) : (s.wrShadow r v i j k).flushedAt = s.flushedAt := rfl
@[simp] theorem wrShadow_serial (s : State) (r : RegName) (v i j k : Nat) : (s.wrShadow r v i j k).serial = s.serial := rfl
@[simp] theorem wrShadow_ctxs (s : State) (r : RegName) (v i j k : Nat) : (s.wrShadow r v i j k).ctxs = s.ctxs := rfl
@[simp] theorem wrShadow_aborts (s : State) (r : RegName) (v i j k : Nat) : (s.wrShadow r v i j k).aborts = s.aborts := rfl
@[simp] theorem wrShadow_ctxWrites (s : State) (r : RegName) (v i j k : Nat) : (s.wrShadow r v i j k).ctxWrites = s.ctxWrites := rfl
@[simp] theorem wrShadow_unbound (s : State) (r : RegName) (v i j k : Nat) : (s.wrShadow r v i j k).unbound = s.unbound := rfl
@[simp] theorem wrShadow_groups (s : State) (r : RegName) (v i j k : Nat) : (s.wrShadow r v i j k).groups = s.groups := rfl
@[simp] theorem wrShadow_resetEnd (s : State) (r : RegName) (v i j k : Nat) : (s.wrShadow r v i j k).resetEnd = s.resetEnd := rfl
@[simp] theorem wrShadow_mg (s : State) (r : RegName) (v i j k : Nat) : (s.wrShadow r v i j k).mg = s.mg := rfl
@[simp] theorem wrShadow_sync (s : State) (r : RegName) (v i j k : Nat) : (s.wrShadow r v i j k).sync = s.sync := rfl
@[simp] theorem wrShadow_lanes (s : State) (r : RegName) (v i j k : Nat) : (s.wrShadow r v i j k).lanes = s.lanes := rfl
@[simp] theorem wrShadow_pcs (s : State) (r : RegName) (v i j k : Nat) : (s.wrShadow r v i j k).pcs = s.pcs := rfl
@[simp] theorem wrShadow_i2cFails (s : State) (r : RegName) (v i j k : Nat) : (s.wrShadow r v i j k).i2cFails = s.i2cFails := rfl
@[simp] theorem wrShadow_svc (s : State) (r : RegName) (v i j k : Nat) : (s.wrShadow r v i j k).svc = s.svc := rfl
@[simp] theorem wrShadow_cmd (s : State) (r : RegName) (v i j k : Nat) : (s.wrShadow r v i j k).cmd = s.cmd := rfl
@[simp] theorem wrShadow_sec (s : State) (r : RegName) (v i j k : Nat) : (s.wrShadow r v i j k).sec = s.sec := rfl
@[simp] theorem wrShadow_tel (s : State) (r : RegName) (v i j k : Nat) : (s.wrShadow r v i j k).tel = s.tel := rfl
@[simp] theorem wrShadow_pwr (s : State) (r : RegName) (v i j k : Nat) : (s.wrShadow r v i j k).pwr = s.pwr := rfl
@[simp] theorem wrShadow_nv (s : State) (r : RegName) (v i j k : Nat) : (s.wrShadow r v i j k).nv = s.nv := rfl
@[simp] theorem wrShadow_boot (s : State) (r : RegName) (v i j k : Nat) : (s.wrShadow r v i j k).boot = s.boot := rfl
@[simp] theorem wrShadow_outbox (s : State) (r : RegName) (v i j k : Nat) : (s.wrShadow r v i j k).outbox = s.outbox := rfl
@[simp] theorem wrShadow_free (s : State) (r : RegName) (v i j k : Nat) : (s.wrShadow r v i j k).free = s.free := rfl
@[simp] theorem wrShadow_pending (s : State) (r : RegName) (v i j k : Nat) : (s.wrShadow r v i j k).pending = s.pending := rfl
@[simp] theorem setCore_regs (s : State) (n : Nat) (c : CoreX) : (s.setCore n c).regs = s.regs := rfl
@[simp] theorem setCore_shadow (s : State) (n : Nat) (c : CoreX) : (s.setCore n c).shadow = s.shadow := rfl
@[simp] theorem setCore_mem (s : State) (n : Nat) (c : CoreX) : (s.setCore n c).mem = s.mem := rfl
@[simp] theorem setCore_upsets (s : State) (n : Nat) (c : CoreX) : (s.setCore n c).upsets = s.upsets := rfl
@[simp] theorem setCore_fc (s : State) (n : Nat) (c : CoreX) : (s.setCore n c).fc = s.fc := rfl
@[simp] theorem setCore_image (s : State) (n : Nat) (c : CoreX) : (s.setCore n c).image = s.image := rfl
@[simp] theorem setCore_stage (s : State) (n : Nat) (c : CoreX) : (s.setCore n c).stage = s.stage := rfl
@[simp] theorem setCore_copies (s : State) (n : Nat) (c : CoreX) : (s.setCore n c).copies = s.copies := rfl
@[simp] theorem setCore_arrivals (s : State) (n : Nat) (c : CoreX) : (s.setCore n c).arrivals = s.arrivals := rfl
@[simp] theorem setCore_pools (s : State) (n : Nat) (c : CoreX) : (s.setCore n c).pools = s.pools := rfl
@[simp] theorem setCore_slices (s : State) (n : Nat) (c : CoreX) : (s.setCore n c).slices = s.slices := rfl
@[simp] theorem setCore_ports (s : State) (n : Nat) (c : CoreX) : (s.setCore n c).ports = s.ports := rfl
@[simp] theorem setCore_tokens (s : State) (n : Nat) (c : CoreX) : (s.setCore n c).tokens = s.tokens := rfl
@[simp] theorem setCore_limiter (s : State) (n : Nat) (c : CoreX) : (s.setCore n c).limiter = s.limiter := rfl
@[simp] theorem setCore_echoed (s : State) (n : Nat) (c : CoreX) : (s.setCore n c).echoed = s.echoed := rfl
@[simp] theorem setCore_cuts (s : State) (n : Nat) (c : CoreX) : (s.setCore n c).cuts = s.cuts := rfl
@[simp] theorem setCore_echoes (s : State) (n : Nat) (c : CoreX) : (s.setCore n c).echoes = s.echoes := rfl
@[simp] theorem setCore_flushing (s : State) (n : Nat) (c : CoreX) : (s.setCore n c).flushing = s.flushing := rfl
@[simp] theorem setCore_flushedAt (s : State) (n : Nat) (c : CoreX) : (s.setCore n c).flushedAt = s.flushedAt := rfl
@[simp] theorem setCore_serial (s : State) (n : Nat) (c : CoreX) : (s.setCore n c).serial = s.serial := rfl
@[simp] theorem setCore_ctxs (s : State) (n : Nat) (c : CoreX) : (s.setCore n c).ctxs = s.ctxs := rfl
@[simp] theorem setCore_aborts (s : State) (n : Nat) (c : CoreX) : (s.setCore n c).aborts = s.aborts := rfl
@[simp] theorem setCore_ctxWrites (s : State) (n : Nat) (c : CoreX) : (s.setCore n c).ctxWrites = s.ctxWrites := rfl
@[simp] theorem setCore_unbound (s : State) (n : Nat) (c : CoreX) : (s.setCore n c).unbound = s.unbound := rfl
@[simp] theorem setCore_groups (s : State) (n : Nat) (c : CoreX) : (s.setCore n c).groups = s.groups := rfl
@[simp] theorem setCore_resetEnd (s : State) (n : Nat) (c : CoreX) : (s.setCore n c).resetEnd = s.resetEnd := rfl
@[simp] theorem setCore_mg (s : State) (n : Nat) (c : CoreX) : (s.setCore n c).mg = s.mg := rfl
@[simp] theorem setCore_sync (s : State) (n : Nat) (c : CoreX) : (s.setCore n c).sync = s.sync := rfl
@[simp] theorem setCore_lanes (s : State) (n : Nat) (c : CoreX) : (s.setCore n c).lanes = s.lanes := rfl
@[simp] theorem setCore_pcs (s : State) (n : Nat) (c : CoreX) : (s.setCore n c).pcs = s.pcs := rfl
@[simp] theorem setCore_i2cFails (s : State) (n : Nat) (c : CoreX) : (s.setCore n c).i2cFails = s.i2cFails := rfl
@[simp] theorem setCore_svc (s : State) (n : Nat) (c : CoreX) : (s.setCore n c).svc = s.svc := rfl
@[simp] theorem setCore_cmd (s : State) (n : Nat) (c : CoreX) : (s.setCore n c).cmd = s.cmd := rfl
@[simp] theorem setCore_sec (s : State) (n : Nat) (c : CoreX) : (s.setCore n c).sec = s.sec := rfl
@[simp] theorem setCore_tel (s : State) (n : Nat) (c : CoreX) : (s.setCore n c).tel = s.tel := rfl
@[simp] theorem setCore_pwr (s : State) (n : Nat) (c : CoreX) : (s.setCore n c).pwr = s.pwr := rfl
@[simp] theorem setCore_nv (s : State) (n : Nat) (c : CoreX) : (s.setCore n c).nv = s.nv := rfl
@[simp] theorem setCore_boot (s : State) (n : Nat) (c : CoreX) : (s.setCore n c).boot = s.boot := rfl
@[simp] theorem setCore_outbox (s : State) (n : Nat) (c : CoreX) : (s.setCore n c).outbox = s.outbox := rfl
@[simp] theorem setCore_free (s : State) (n : Nat) (c : CoreX) : (s.setCore n c).free = s.free := rfl
@[simp] theorem setCore_pending (s : State) (n : Nat) (c : CoreX) : (s.setCore n c).pending = s.pending := rfl
@[simp] theorem setSram_regs (s : State) (n a : Nat) (b : Byte) : (s.setSram n a b).regs = s.regs := rfl
@[simp] theorem setSram_shadow (s : State) (n a : Nat) (b : Byte) : (s.setSram n a b).shadow = s.shadow := rfl
@[simp] theorem setSram_cores (s : State) (n a : Nat) (b : Byte) : (s.setSram n a b).cores = s.cores := rfl
@[simp] theorem setSram_upsets (s : State) (n a : Nat) (b : Byte) : (s.setSram n a b).upsets = s.upsets := rfl
@[simp] theorem setSram_fc (s : State) (n a : Nat) (b : Byte) : (s.setSram n a b).fc = s.fc := rfl
@[simp] theorem setSram_image (s : State) (n a : Nat) (b : Byte) : (s.setSram n a b).image = s.image := rfl
@[simp] theorem setSram_stage (s : State) (n a : Nat) (b : Byte) : (s.setSram n a b).stage = s.stage := rfl
@[simp] theorem setSram_copies (s : State) (n a : Nat) (b : Byte) : (s.setSram n a b).copies = s.copies := rfl
@[simp] theorem setSram_arrivals (s : State) (n a : Nat) (b : Byte) : (s.setSram n a b).arrivals = s.arrivals := rfl
@[simp] theorem setSram_pools (s : State) (n a : Nat) (b : Byte) : (s.setSram n a b).pools = s.pools := rfl
@[simp] theorem setSram_slices (s : State) (n a : Nat) (b : Byte) : (s.setSram n a b).slices = s.slices := rfl
@[simp] theorem setSram_ports (s : State) (n a : Nat) (b : Byte) : (s.setSram n a b).ports = s.ports := rfl
@[simp] theorem setSram_tokens (s : State) (n a : Nat) (b : Byte) : (s.setSram n a b).tokens = s.tokens := rfl
@[simp] theorem setSram_limiter (s : State) (n a : Nat) (b : Byte) : (s.setSram n a b).limiter = s.limiter := rfl
@[simp] theorem setSram_echoed (s : State) (n a : Nat) (b : Byte) : (s.setSram n a b).echoed = s.echoed := rfl
@[simp] theorem setSram_cuts (s : State) (n a : Nat) (b : Byte) : (s.setSram n a b).cuts = s.cuts := rfl
@[simp] theorem setSram_echoes (s : State) (n a : Nat) (b : Byte) : (s.setSram n a b).echoes = s.echoes := rfl
@[simp] theorem setSram_flushing (s : State) (n a : Nat) (b : Byte) : (s.setSram n a b).flushing = s.flushing := rfl
@[simp] theorem setSram_flushedAt (s : State) (n a : Nat) (b : Byte) : (s.setSram n a b).flushedAt = s.flushedAt := rfl
@[simp] theorem setSram_serial (s : State) (n a : Nat) (b : Byte) : (s.setSram n a b).serial = s.serial := rfl
@[simp] theorem setSram_ctxs (s : State) (n a : Nat) (b : Byte) : (s.setSram n a b).ctxs = s.ctxs := rfl
@[simp] theorem setSram_aborts (s : State) (n a : Nat) (b : Byte) : (s.setSram n a b).aborts = s.aborts := rfl
@[simp] theorem setSram_ctxWrites (s : State) (n a : Nat) (b : Byte) : (s.setSram n a b).ctxWrites = s.ctxWrites := rfl
@[simp] theorem setSram_unbound (s : State) (n a : Nat) (b : Byte) : (s.setSram n a b).unbound = s.unbound := rfl
@[simp] theorem setSram_groups (s : State) (n a : Nat) (b : Byte) : (s.setSram n a b).groups = s.groups := rfl
@[simp] theorem setSram_resetEnd (s : State) (n a : Nat) (b : Byte) : (s.setSram n a b).resetEnd = s.resetEnd := rfl
@[simp] theorem setSram_mg (s : State) (n a : Nat) (b : Byte) : (s.setSram n a b).mg = s.mg := rfl
@[simp] theorem setSram_sync (s : State) (n a : Nat) (b : Byte) : (s.setSram n a b).sync = s.sync := rfl
@[simp] theorem setSram_lanes (s : State) (n a : Nat) (b : Byte) : (s.setSram n a b).lanes = s.lanes := rfl
@[simp] theorem setSram_pcs (s : State) (n a : Nat) (b : Byte) : (s.setSram n a b).pcs = s.pcs := rfl
@[simp] theorem setSram_i2cFails (s : State) (n a : Nat) (b : Byte) : (s.setSram n a b).i2cFails = s.i2cFails := rfl
@[simp] theorem setSram_svc (s : State) (n a : Nat) (b : Byte) : (s.setSram n a b).svc = s.svc := rfl
@[simp] theorem setSram_cmd (s : State) (n a : Nat) (b : Byte) : (s.setSram n a b).cmd = s.cmd := rfl
@[simp] theorem setSram_sec (s : State) (n a : Nat) (b : Byte) : (s.setSram n a b).sec = s.sec := rfl
@[simp] theorem setSram_tel (s : State) (n a : Nat) (b : Byte) : (s.setSram n a b).tel = s.tel := rfl
@[simp] theorem setSram_pwr (s : State) (n a : Nat) (b : Byte) : (s.setSram n a b).pwr = s.pwr := rfl
@[simp] theorem setSram_nv (s : State) (n a : Nat) (b : Byte) : (s.setSram n a b).nv = s.nv := rfl
@[simp] theorem setSram_boot (s : State) (n a : Nat) (b : Byte) : (s.setSram n a b).boot = s.boot := rfl
@[simp] theorem setSram_outbox (s : State) (n a : Nat) (b : Byte) : (s.setSram n a b).outbox = s.outbox := rfl
@[simp] theorem setSram_free (s : State) (n a : Nat) (b : Byte) : (s.setSram n a b).free = s.free := rfl
@[simp] theorem setSram_pending (s : State) (n a : Nat) (b : Byte) : (s.setSram n a b).pending = s.pending := rfl
@[simp] theorem report_regs (s : State) (src inst : Nat) (info : Bytes) (inj : Bool) : (s.report src inst info inj).regs = s.regs := rfl
@[simp] theorem report_shadow (s : State) (src inst : Nat) (info : Bytes) (inj : Bool) : (s.report src inst info inj).shadow = s.shadow := rfl
@[simp] theorem report_mem (s : State) (src inst : Nat) (info : Bytes) (inj : Bool) : (s.report src inst info inj).mem = s.mem := rfl
@[simp] theorem report_upsets (s : State) (src inst : Nat) (info : Bytes) (inj : Bool) : (s.report src inst info inj).upsets = s.upsets := rfl
@[simp] theorem report_cores (s : State) (src inst : Nat) (info : Bytes) (inj : Bool) : (s.report src inst info inj).cores = s.cores := rfl
@[simp] theorem report_image (s : State) (src inst : Nat) (info : Bytes) (inj : Bool) : (s.report src inst info inj).image = s.image := rfl
@[simp] theorem report_stage (s : State) (src inst : Nat) (info : Bytes) (inj : Bool) : (s.report src inst info inj).stage = s.stage := rfl
@[simp] theorem report_copies (s : State) (src inst : Nat) (info : Bytes) (inj : Bool) : (s.report src inst info inj).copies = s.copies := rfl
@[simp] theorem report_arrivals (s : State) (src inst : Nat) (info : Bytes) (inj : Bool) : (s.report src inst info inj).arrivals = s.arrivals := rfl
@[simp] theorem report_pools (s : State) (src inst : Nat) (info : Bytes) (inj : Bool) : (s.report src inst info inj).pools = s.pools := rfl
@[simp] theorem report_slices (s : State) (src inst : Nat) (info : Bytes) (inj : Bool) : (s.report src inst info inj).slices = s.slices := rfl
@[simp] theorem report_ports (s : State) (src inst : Nat) (info : Bytes) (inj : Bool) : (s.report src inst info inj).ports = s.ports := rfl
@[simp] theorem report_tokens (s : State) (src inst : Nat) (info : Bytes) (inj : Bool) : (s.report src inst info inj).tokens = s.tokens := rfl
@[simp] theorem report_limiter (s : State) (src inst : Nat) (info : Bytes) (inj : Bool) : (s.report src inst info inj).limiter = s.limiter := rfl
@[simp] theorem report_echoed (s : State) (src inst : Nat) (info : Bytes) (inj : Bool) : (s.report src inst info inj).echoed = s.echoed := rfl
@[simp] theorem report_cuts (s : State) (src inst : Nat) (info : Bytes) (inj : Bool) : (s.report src inst info inj).cuts = s.cuts := rfl
@[simp] theorem report_echoes (s : State) (src inst : Nat) (info : Bytes) (inj : Bool) : (s.report src inst info inj).echoes = s.echoes := rfl
@[simp] theorem report_flushing (s : State) (src inst : Nat) (info : Bytes) (inj : Bool) : (s.report src inst info inj).flushing = s.flushing := rfl
@[simp] theorem report_flushedAt (s : State) (src inst : Nat) (info : Bytes) (inj : Bool) : (s.report src inst info inj).flushedAt = s.flushedAt := rfl
@[simp] theorem report_serial (s : State) (src inst : Nat) (info : Bytes) (inj : Bool) : (s.report src inst info inj).serial = s.serial := rfl
@[simp] theorem report_ctxs (s : State) (src inst : Nat) (info : Bytes) (inj : Bool) : (s.report src inst info inj).ctxs = s.ctxs := rfl
@[simp] theorem report_aborts (s : State) (src inst : Nat) (info : Bytes) (inj : Bool) : (s.report src inst info inj).aborts = s.aborts := rfl
@[simp] theorem report_ctxWrites (s : State) (src inst : Nat) (info : Bytes) (inj : Bool) : (s.report src inst info inj).ctxWrites = s.ctxWrites := rfl
@[simp] theorem report_unbound (s : State) (src inst : Nat) (info : Bytes) (inj : Bool) : (s.report src inst info inj).unbound = s.unbound := rfl
@[simp] theorem report_groups (s : State) (src inst : Nat) (info : Bytes) (inj : Bool) : (s.report src inst info inj).groups = s.groups := rfl
@[simp] theorem report_resetEnd (s : State) (src inst : Nat) (info : Bytes) (inj : Bool) : (s.report src inst info inj).resetEnd = s.resetEnd := rfl
@[simp] theorem report_mg (s : State) (src inst : Nat) (info : Bytes) (inj : Bool) : (s.report src inst info inj).mg = s.mg := rfl
@[simp] theorem report_sync (s : State) (src inst : Nat) (info : Bytes) (inj : Bool) : (s.report src inst info inj).sync = s.sync := rfl
@[simp] theorem report_lanes (s : State) (src inst : Nat) (info : Bytes) (inj : Bool) : (s.report src inst info inj).lanes = s.lanes := rfl
@[simp] theorem report_pcs (s : State) (src inst : Nat) (info : Bytes) (inj : Bool) : (s.report src inst info inj).pcs = s.pcs := rfl
@[simp] theorem report_i2cFails (s : State) (src inst : Nat) (info : Bytes) (inj : Bool) : (s.report src inst info inj).i2cFails = s.i2cFails := rfl
@[simp] theorem report_svc (s : State) (src inst : Nat) (info : Bytes) (inj : Bool) : (s.report src inst info inj).svc = s.svc := rfl
@[simp] theorem report_cmd (s : State) (src inst : Nat) (info : Bytes) (inj : Bool) : (s.report src inst info inj).cmd = s.cmd := rfl
@[simp] theorem report_sec (s : State) (src inst : Nat) (info : Bytes) (inj : Bool) : (s.report src inst info inj).sec = s.sec := rfl
@[simp] theorem report_tel (s : State) (src inst : Nat) (info : Bytes) (inj : Bool) : (s.report src inst info inj).tel = s.tel := rfl
@[simp] theorem report_pwr (s : State) (src inst : Nat) (info : Bytes) (inj : Bool) : (s.report src inst info inj).pwr = s.pwr := rfl
@[simp] theorem report_nv (s : State) (src inst : Nat) (info : Bytes) (inj : Bool) : (s.report src inst info inj).nv = s.nv := rfl
@[simp] theorem report_boot (s : State) (src inst : Nat) (info : Bytes) (inj : Bool) : (s.report src inst info inj).boot = s.boot := rfl
@[simp] theorem report_outbox (s : State) (src inst : Nat) (info : Bytes) (inj : Bool) : (s.report src inst info inj).outbox = s.outbox := rfl
@[simp] theorem report_free (s : State) (src inst : Nat) (info : Bytes) (inj : Bool) : (s.report src inst info inj).free = s.free := rfl
@[simp] theorem report_pending (s : State) (src inst : Nat) (info : Bytes) (inj : Bool) : (s.report src inst info inj).pending = s.pending := rfl

end State

end Sys2Proof.Machine
end

