-- ==== Sys2Proof/WellFormed.lean ====
section
/-! DEFINITION. Well-formed commands: the conditions on operands that their types do not say. A command that breaks one
names an event that the manual does not describe. -/

namespace Sys2Proof

/-- The reasons a command is turned away, with the rule each rests on. -/
inductive IllFormed where
  /-- a chip-window write that is not of whole 4-byte words, or leaves the core's SRAM (R164, R372) -/
  | windowRange
  /-- a chip-window write with no bytes (R371) -/
  | windowEmpty
  /-- an offset outside the register files of an RCn block (R191) -/
  | regfileOffset
  /-- a host queue slot that is not 64 bytes (R366) -/
  | slotSize
  /-- a header offset outside a codeword of 5,440 bits (R294) -/
  | codewordOffset
  /-- more payload than a frame carries (R252) -/
  | payloadSize
  /-- an SMBus write of other than 4 or 8 bytes (R427) -/
  | smbusSize
  deriving DecidableEq, Repr

/-- A payload fits a frame (R252). -/
def payloadFits (p : List (BitVec 8)) : Option IllFormed := if 8192 < p.length then some .payloadSize else none

/-- Why a command is ill formed; none when it is well formed. -/
def illFormed (c : Instr) : Option IllFormed :=
  match c with
  | .sramWindowWrite _ addr words =>
    if words.isEmpty then some .windowEmpty
    else if addr.toNat % 4 ≠ 0 ∨ 0x80000 < addr.toNat + 4 * words.length then some .windowRange else none
  | .rcRegfileWrite _ off _ =>
    if off.toNat < 0x1000 ∨ (0x1180 ≤ off.toNat ∧ off.toNat < 0x4000) ∨ 0x8000 ≤ off.toNat then some .regfileOffset else none
  | .sqTailWrite _ _ slots => if slots.all fun b => b.length == 64 then none else some .slotSize
  | .codewordRx _ w => if 5440 ≤ w.offset then some .codewordOffset else none
  | .mgAckRx _ p | .timeReqRx _ p _ | .timeRspRx _ p _ | .helloRx _ p _ | .creditRx _ p | .cmdRx _ _ p | .echoY5Rx _ _ p
  | .fwdResponse p | .relayResponse p => payloadFits p
  | .smbusRegWrite _ data _ => if data.length = 4 ∨ data.length = 8 then none else some .smbusSize
  | _ => none

/-- A well-formed command. -/
def Instr.wf (c : Instr) : Bool := (illFormed c).isNone

end Sys2Proof
end

