-- ==== Sys2Proof/Tests/Slice0.lean ====
section
/-! SUPPORT. Tests of the model on fixed values, from the spec's examples and from calculation by hand, and for every
statement with hypotheses a state that meets them. -/

namespace Sys2Proof.Tests

open Sys2Proof Sys2Proof.Machine

set_option Elab.async false

/-- Core 0, a slot, EXT 0. -/
def at0 (s : Slot) : IssueAt := ⟨0, s, 0⟩

/-- The device right after reset with core 0 RUNNING, in a window of 64 KiB at 0x20000. -/
def running : State :=
  ((State.reset.setFld F.RC_STATUS_STATE 3 0).setFld F.RC_BIND_WIN_BASE 0x200 0).setFld F.RC_BIND_WIN_SIZE 0x100 0

/-- A command of a host queue, taken. -/
def taken (op part arg : Nat) (role : Role) (payload : Bytes := []) : TakenX :=
  { path := .host 0 0, bytes := State.packet 0 op part arg payload, role := role }

/-- The device right after reset with a command taken. -/
def given (c : TakenX) : State := { State.reset with cmd := { State.reset.cmd with taken := [c] } }

/-- The zero form of a scalar operation on register d. -/
def scalarForm (d : Nat) : RForm := ⟨BitVec.ofNat 5 d, 0, 0, 0, 0⟩
def vectorForm (fn : Nat) : VForm := ⟨1, 2, 3, 0, BitVec.ofNat 5 fn⟩
def memoryForm : MForm := ⟨1, 0, 2, 1, 0⟩
def waitForm : WaitForm := { k := 0, sb := 0, i := 0, x := 0, imm := 0 }

/-- A state in canonical form. -/
theorem reset_inv : State.reset.Inv := by unfold State.Inv; decide +kernel

/-! Ill-formed commands are refused, each by its check -/

theorem test_windowEmpty : illFormed (.sramWindowWrite 0 0x10000 []) = some .windowEmpty := by decide
theorem test_windowRange : illFormed (.sramWindowWrite 0 0x7FFFC [0, 0]) = some .windowRange := by decide
theorem test_windowAlign : illFormed (.sramWindowWrite 0 0x10002 [0]) = some .windowRange := by decide
theorem test_windowGood : Instr.wf (.sramWindowWrite 0 0x7FFFC [0]) = true := by decide
theorem test_regfileOffset : illFormed (.rcRegfileWrite 0 0x1180 0) = some .regfileOffset := by decide
theorem test_regfileGood : Instr.wf (.rcRegfileWrite 0 0x1178 0) = true := by decide
theorem test_slotSize : illFormed (.sqTailWrite 0 1 [[0]]) = some .slotSize := by decide
theorem test_codewordOffset : illFormed (.codewordRx 0 ⟨5440, 0, [], 0, false, true, 0⟩) = some .codewordOffset := by decide
theorem test_smbusSize : illFormed (.smbusRegWrite 0 [0, 0, 0] true) = some .smbusSize := by decide

/-! The rules' own figures -/

/-- R329: the check value over the nine bytes 0x31 to 0x39. -/
theorem test_crc : crc32c [0x31, 0x32, 0x33, 0x34, 0x35, 0x36, 0x37, 0x38, 0x39] = 0xE3069283 := by decide +kernel

/-- The table of R58: the largest finite values and the smallest subnormals. -/
theorem test_e4m3_max : Fmt.value .e4m3 0x7E = .fin false 14 5 := by decide +kernel
theorem test_e4m3_max_bits : (roundTo .e4m3 .rne (.fin false 448 0)).bits = 0x7E := by decide +kernel
theorem test_e2m1_max_bits : (roundTo .e2m1 .rne (.fin false 6 0)).bits = 0x7 := by decide +kernel
theorem test_fp16_tiny : (roundTo .fp16 .rne (.fin false 1 (-24))).bits = 0x0001 := by decide +kernel
theorem test_bf16_one : (roundTo .bf16 .rne (.fin false 1 0)).bits = 0x3F80 := by decide +kernel

/-- Half a unit of the smallest subnormal goes to the even zero, three halves to two units. -/
theorem test_tie_low : (roundTo .fp16 .rne (.fin false 1 (-25))).bits = 0 := by decide +kernel
theorem test_tie_high : (roundTo .fp16 .rne (.fin false 3 (-25))).bits = 2 := by decide +kernel

/-- The words of the encodings of R198, written out from the table. -/
theorem test_word_v : VForm.bits ⟨1, 2, 3, 5, 17⟩ = 0b00000100001000001110110001 := by decide
theorem test_word_r : RForm.bits ⟨31, 1, 1, 0, 0x2001⟩ = 0b11111000011010000000000001 := by decide
theorem test_word_m : MForm.bits ⟨1, 2, 8, 1, 0x7FF⟩ = 0b00000100101000111111111111 := by decide

/-- The generator polynomial of IEEE 802.3 Clause 91 (R294; log entry 98): its constant term and the two above it, and how many
terms it has. -/
theorem test_generator : rsGenerator.length = 31 ∧ rsGenerator.reverse.take 3 = [523, 834, 128] := by decide +kernel

/-- R295: SYNC 0xE4B1, lane 1, P the XOR of the lane's bits; an AM of lane 6. -/
theorem test_header : pcsHeader false false 1 = 0xE4B13 ∧ pcsHeader true false 6 = 0x1B4EC := by decide

/-- R297: the levels of the pairs 00, 01, 11 and 10. -/
theorem test_gray : pamLevels [0b0001111000] = [0, 1, 2, 3, 0] := by decide

/-- R225: a taken branch alone sets PC and costs two cycles. -/
theorem test_branch :
    (match exec (.br (at0 .c) ⟨0, 0, 0x40, 0⟩) running with
      | .next t => t.fld F.RC_PC_PC 0 == 0x40 && t.cycle 0 == running.cycle 0 + 2
      | _ => false) = true := by decide +kernel

/-- R167: a load of a word with an uncorrectable error halts the core with SRAM_ECC. -/
theorem test_ecc :
    (match exec (.ldS ⟨0, .m, 0x10⟩ memoryForm) (running.upsetWord 0 0x4000 true) with
      | .next t => (t.core 0).halting.map (·.reason) == some 0x0C
      | _ => false) = true := by decide +kernel

/-- No row of the table gives bits. -/
theorem test_decode : decodeTableWord 32 0 = none := rfl

/-- R4, R442: a watchdog time of 5 ms takes the least of its range. -/
theorem test_clamp : bitsOf (clampReg .PWR_WDT 5) 0 16 = 100 := by decide

/-- A step runs the command in front, in order. -/
theorem test_step :
    (match step { State.reset with pending := [.registerWrite 0x101C 0x14, .mpReset] } with
      | .next t => t.fld F.GLB_MG_DRAIN_TMO_TMO == 20 && t.pending.length == 1
      | _ => false) = true := by decide +kernel

/-- A store of 4 bytes in the window is seen by the core's own loads two cycles on (R166). -/
theorem test_store :
    (match exec (.stS ⟨0, .m, 0x10⟩ memoryForm) (running.later 0 1 (.scalar 1 0xDDCCBBAA)) with
      | .next t => t.core 0 |>.stores |>.map (·.addr) |> (· == [0x20000])
      | _ => false) = true := by decide +kernel

/-- ADD of register 0 and the immediate 7 stands in register 1 one cycle on (R173, R224). -/
theorem test_add :
    (match exec (.sadd (at0 .c) ⟨1, 0, 1, 0, 7⟩) running with
      | .next t => (t.tickCore 0).sreg 0 1 == 7 && t.sreg 0 1 == 0
      | _ => false) = true := by decide +kernel

/-- A store of 4 bytes at address 0, in the code region, halts the core with reason SRAM_RANGE (R164, R228). -/
theorem test_store_range : running.faultAt (at0 .m) 0x23 (MForm.bits ⟨1, 0, 2, 0, 0⟩) = some (2, 0x0A, 0) := by decide +kernel

/-! The premises of the statements can be met -/

theorem met_tickOnEmptyQueue : State.reset.pending = [] ∧ State.reset.clocked = false ∧ State.reset.sync.hold = 0
    ∧ ({ State.reset with sync := { State.reset.sync with hold := 3 } } : State).sync.hold ≠ 0 := by decide +kernel

theorem met_stepKeepsInv : State.reset.Inv ∧ ∃ t, step State.reset = .next t := ⟨reset_inv, _, rfl⟩

theorem met_reachedInv : Reached { State.reset with pending := State.reset.pending ++ [.mpReset] } :=
  .command _ _ .reset

theorem met_resetValues : RegName.addr .CFG_DEV_DIGEST 0 = 0x400040 ∧ RegName.addr .GLB_MG_DRAIN_TMO 0 < 0x400040
    ∧ 0x400300 ≤ RegName.addr .SCH_COUNT := by decide +kernel

theorem met_registerAccess : State.reset.Inv ∧ regAt (0x101C#30).toNat = some (.GLB_MG_DRAIN_TMO, 0, 0, 0)
    ∧ (State.reset.writeSpecial .GLB_MG_DRAIN_TMO 0 0 0 0).isNone ∧ (State.reset.writeControl .GLB_MG_DRAIN_TMO 0 0).isNone
    ∧ RegName.addr .GLB_MG_DRAIN_TMO 1 ≠ RegName.addr .GLB_MG_DRAIN_TMO 0 :=
  ⟨reset_inv, by decide +kernel, by decide +kernel, by decide +kernel, by decide +kernel⟩

theorem met_registerAccess_bits : (RegName.mask .GLB_MG_DRAIN_TMO .rw).testBit 13 ∧ (RegName.mask .FC_STAT .w1c).testBit 63
    ∧ (RegName.mask .GLB_FMASK_SLICE .w1s).testBit 0 ∧ (RegName.mask .SLC_PSHP .rwc).testBit 36
    ∧ (RegName.mask .GLB_MG_FILL .rw).testBit 0 = false ∧ (RegName.mask .SCH_CTX_CMD .wo).testBit 31 := by decide +kernel

theorem met_writeRanges : (0, 16, 100, 60000) ∈ writeRanges .PWR_WDT ∧ ∀ e ∈ writeRanges .PWR_WDT, 16 < e.1 ∨ e.1 + e.2.1 ≤ 16 := by
  decide

theorem met_registerFileGate : regAt (0x2000000 + (0 : Fin 512) * 0x10000 + (0x1000#16).toNat) = some (.RC_S, 0, 0, 0)
    ∧ regAt (0x2001178#30).toNat = some (.RC_P, 0, 7, 0) ∧ isRegfile .RC_S ∧ isRegfile .RC_P
    ∧ State.reset.debugState 0 = 0 ∧ running.coreState 0 ≠ 1 ∧ running.coreState 0 ≠ 5 := by decide +kernel

theorem met_sramWindow : State.reset.Inv ∧ 0x10000 ≤ (0x10000#19).toNat ∧ State.reset.liveParam 0 0x10000 = none
    ∧ (0xFFFF#19).toNat < 0x10000 ∧ (∃ t, exec (.sramWindowWrite 0 0x10004#19 [1]) State.reset = .next t)
    ∧ ((1 : Fin 512) ≠ 0 ∧ (0x10003#19).toNat < (0x10004#19).toNat / 4 * 4 ∧ 0x10004 / 4 * 4 + 4 * 1 ≤ (0x10008#19).toNat) :=
  ⟨reset_inv, by decide, by decide +kernel, by decide, ⟨_, rfl⟩, by decide⟩

/-- A register write of 4 bytes at offset 0x1200, of partition 2, and one at offset 0, of the device. -/
def ofPart : Bytes := leBytes 1 1 ++ leBytes 1 3 ++ leBytes 6 0 ++ leBytes 8 0x1200 ++ leBytes 4 4 ++ leBytes 12 0 ++ leBytes 4 0
def ofDevice : Bytes := leBytes 1 1 ++ leBytes 1 3 ++ leBytes 6 0 ++ leBytes 8 0 ++ leBytes 4 4 ++ leBytes 12 0 ++ leBytes 4 0

theorem met_permissions_word : pkOp ofPart = 3 ∧ State.wordsOf ofPart = [0x1200] ∧ State.reset.permitted (.tenant 2) ofPart = true := by
  decide +kernel

theorem met_permissions_device : pkOp ofDevice = 3 ∧ State.reset.permitted .operator ofDevice = true
    ∧ State.wordsOf ofDevice = [0] ∧ State.reset.scopeOf 0 = none := by decide +kernel

theorem met_permissions_part : pkOp (State.packet 0 0x09 2 0 []) ∈ partOpcodes
    ∧ State.reset.permitted (.tenant 2) (State.packet 0 0x09 2 0 []) = true
    ∧ pkOp (State.packet 0 0x12 0 0 []) ∉ [0x01, 0x02, 0x03, 0x30, 0x31, 0x34, 0x38, 0x3A, 0x3B] ∧ pkOp (State.packet 0 0x12 0 0 []) ∉ partOpcodes
    ∧ State.reset.permitted .host (State.packet 0 0x12 0 0 []) = true := by decide +kernel

theorem met_permissions_reads : pkOp (State.packet 0 0x38 0 0 []) ∈ [0x38, 0x3A, 0x3B]
    ∧ State.reset.permitted .peer (State.packet 0 0x38 0 0 []) = true ∧ pkOp (State.packet 0 0x34 2 0 []) = 0x34
    ∧ State.reset.permitted (.tenant 2) (State.packet 0 0x34 2 0 []) = true := by decide +kernel

theorem met_permissions_operator : (State.reset.setFld F.SEC_PART_STAT_OPERATOR_ACCESS 1 2).permitted .operator
    (State.packet 0 0x09 2 0 []) = true := by decide +kernel

theorem met_scalarWriteLands : running.Inv ∧ running.issues (at0 .c).core ∧ running.faultAt (at0 .c) 0x30 (scalarForm 1).bits = none
    ∧ (running.core 0).writes = [] ∧ (running.core 0).stores = [] := by
  refine ⟨?_, ?_, by decide +kernel, by decide +kernel, by decide +kernel⟩
  · unfold State.Inv; decide +kernel
  · unfold State.issues; decide +kernel

/-- Operations of each format issue without a fault. -/
theorem met_operationFrame :
    (∀ o ∈ [0x0A, 0x0B, 0x0C, 0x0D], running.faultAt (at0 .a) o (vectorForm 2).bits = none)
    ∧ (∀ o ∈ [0x0E, 0x0F, 0x10], running.faultAt (at0 .a) o (vectorForm 0).bits = none)
    ∧ (∀ o ∈ [0x11, 0x12], running.faultAt (at0 .a) o (VForm.bits ⟨1, 2, 0, 0, 0⟩) = none)
    ∧ (∀ o ∈ [0x21, 0x23], running.faultAt ⟨0, .m, 0x10⟩ o memoryForm.bits = none)
    ∧ running.faultAt (at0 .m) 0x26 waitForm.bits = none
    ∧ (∀ o ∈ [0x30, 0x31, 0x32, 0x33, 0x34, 0x35, 0x36, 0x37, 0x38, 0x3A, 0x3B, 0x3C, 0x3D],
      running.faultAt (at0 .c) o (scalarForm 1).bits = none)
    ∧ running.faultAt (at0 .c) 0x39 (JForm.bits ⟨1, 0, 5⟩) = none := by decide +kernel

/-- The outcome of an operation is a next state, so that the frame speaks of one. -/
theorem met_operationFrame_next : ∃ t, exec (.sadd (at0 .c) (scalarForm 1)) running = .next t := ⟨_, rfl⟩

theorem met_subnormalsKept : bitsOf 1 Fmt.fp32.mb Fmt.fp32.eb = 0
    ∧ ((1 : Nat).log2 : Int) + (-140) < 1 - (Fmt.fp32.bias : Int) := by decide +kernel

theorem met_roundingIsExactOnValues : 0x3F800000 < 2 ^ Fmt.fp32.width
    ∧ Fmt.value .fp32 0x3F800000 = .fin false 0x800000 (-23) := by decide +kernel

theorem met_roundingUnits : (0 : Int) < 1 ∧ 2 * ((roundUnits .rne 3 0 1 : Int) * 2 - 3) = 2
    ∧ 2 * ((roundUnits .rne 1 0 1 : Int) * 2 - 1) = -2 ∧ (roundUnits .rtz 4 0 1 : Int) * 2 = 4 := by decide +kernel

/-- A partition's queue that is full. -/
def fullQueue : State := State.reset.setMg 0 { queue := List.replicate 4160 { chain := [], entry := List.replicate 64 0 } }

theorem met_lossyAppend : (fullQueue.mgOf 0).queue.length = 4160 := by decide +kernel

theorem met_groupIds : (given (taken 9 0 65536 .operator)).cmd.taken = [taken 9 0 65536 .operator]
    ∧ pkChip (taken 9 0 65536 .operator).bytes = (given (taken 9 0 65536 .operator)).ownChip ∧ (taken 9 0 65536 .operator).op = 9
    ∧ (taken 9 0 65536 .operator).arg = 65536 ∧ (given (taken 9 0 65536 .operator)).leaving 0 = false
    ∧ (given (taken 9 0 65536 .operator)).groupsOf 0 = [] := by decide +kernel

/-- Every group ID of partition 0 allocated. -/
theorem met_groupIds_all : ∀ g, g < 65536 → g ∈ ({ State.reset with groups := List.range 65536 } : State).groupsOf 0 := by
  intro g h
  simp only [State.groupsOf, List.mem_map, List.mem_filter, List.mem_range, beq_iff_eq]
  exact ⟨g, ⟨h, by omega⟩, by omega⟩

theorem met_raiseRecorded : State.reset.Inv ∧ State.faultSources.contains (0x01#6).toNat = true ∧ State.reset.sevOf (0x01#6).toNat ≤ 1
    ∧ bitOf (State.reset.rd .FC_STAT) 1 = false ∧ bitOf ((State.reset.setFld F.FC_STAT_STATUS 2).rd .FC_STAT) 1 = true :=
  ⟨reset_inv, by decide +kernel, by decide +kernel, by decide +kernel, by decide +kernel⟩

/-- A full event FIFO. -/
def fullFifo : State :=
  { State.reset with fc := { State.reset.fc with fifo := List.replicate 65600 ⟨0, 0, 1, 1, false, false, false, 0, []⟩ } }

theorem met_eventFifo : State.reset.Inv ∧ State.reset.fc.fifo.length ≤ 65600 ∧ fullFifo.Inv
    ∧ fullFifo.fc.fifo.length = 65600 := ⟨reset_inv, by decide, reset_inv, List.length_replicate⟩

theorem met_perstResets : State.reset.Inv ∧ (taken 1 0 0 .host).path = .host 0 0 ∧ 0 ∉ [6, 0x301, 0x302] :=
  ⟨reset_inv, rfl, by decide⟩

theorem met_watchdog : State.reset.Inv := reset_inv

theorem met_scramblerRoundTrip : (0 : Nat) < 2 ^ 58 ∧ 58 ≤ (List.replicate 58 true).length := by decide

theorem met_codewordSymbols : (List.replicate 5120 true).length = 5120 ∧ (List.replicate 544 1).length = 544 ∧ (270 : Nat) < 271
    ∧ (7 : Nat) < 8 := ⟨List.length_replicate, List.length_replicate, by decide, by decide⟩

/-- An error of one bit, and of two, in the word at 0x20000 of core 0. -/
theorem met_sramErrors : State.reset.Inv ∧ State.reset.injected 1 0 = 0 ∧ State.reset.upsetsIn 0 0x20000 8 = []
    ∧ (State.reset.upsetWord 0 0x4000 false).upsetsIn 0 0x20000 8 = [(0x4000, ⟨false, 0⟩)]
    ∧ (State.reset.upsetWord 0 0x4000 true).upsetsIn 0 0x20000 8 = [(0x4000, ⟨true, 0⟩)]
    ∧ 0x7FFF8 % 8 = 0 ∧ 0x7FFF8 + 8 ≤ 0x80000 ∧ (List.replicate 8 0#8).length = 8 :=
  ⟨reset_inv, by decide +kernel, by decide +kernel, by decide +kernel, by decide +kernel, by decide, by decide, by decide⟩

theorem met_sharedRouting : State.reset.Inv
    ∧ regAt (BitVec.ofNat 30 (RegName.addr .SLC_RT_FLOW 15)).toNat = some (.SLC_RT_FLOW, 15, 0, 0)
    ∧ ((0 : Fin 3), (1 : Fin 16)) ≠ (0, 0) := ⟨reset_inv, by decide +kernel, by decide⟩

/-- The schedule counter at its maximum. -/
def atEnd : State := State.reset.setCount (2 ^ 64 - 1)

theorem met_countEnd : atEnd.Inv ∧ atEnd.count = 2 ^ 64 - 1 := by
  refine ⟨?_, by decide +kernel⟩
  unfold State.Inv; decide +kernel

theorem met_measurementBlocks : State.reset.measured 20 = some (true, leBytes 4 (State.reset.rd .SEC_FUSE)) ∧ (15 : Nat) < 16
    ∧ (leBytes 4 (State.reset.rd .SEC_FUSE)).length < 0xFFFD := ⟨rfl, by decide, by decide +kernel⟩

/-! The slowest last -/

theorem met_nothingOutOfTurn : State.reset.seRuns 0 0 0 = false ∧ State.reset.seRuns 0 0 1 = false ∧ State.reset.portAt 0 = none
    ∧ State.reset.count % 2 ^ 20 ≠ 2 ^ 20 - 1 ∧ State.reset.openRequests 0 = []
    ∧ 2 ≤ (State.reset.setFld F.SCH_SYNC_CFG_SOURCE 2).source
    ∧ ((State.reset.slotsOf 0).find? fun k => k.entry == 0) = none ∧ State.reset.stageState ≠ 2
    ∧ ¬ (State.reset.boot.running ∧ State.reset.boot.fresh)
    ∧ ¬ (State.reset.partState 0 = 4 ∧ State.reset.flag F.SEC_PART_STAT_ZEROISING 0)
    ∧ lookupKey State.reset.pwr.waking 0 = none ∧ State.reset.coreState 0 ≠ 3
    ∧ (∀ c ∈ State.reset.copies, c.slice = 0 → c.phase ≠ .granted) := by decide +kernel

theorem test_payloadSize : illFormed (.fwdResponse (List.replicate 8193 0)) = some .payloadSize := by decide +kernel

/-- SHA3-256 of one byte 0x20, and the registers that show it right after reset (R346, R360). -/
theorem test_digest : leAt (sha3 [0x20#8]) 0 32
    = 0xA4D4F35B7D528F7A96D54EE803B26B23DAC5FA8BF9815AE526854DD5E693E860 := by decide +kernel
theorem test_digest_shown : ∀ k : Fin 4, State.reset.rd .CFG_DEV_DIGEST k
    = 0xA4D4F35B7D528F7A96D54EE803B26B23DAC5FA8BF9815AE526854DD5E693E860 / 2 ^ (64 * k.val) % 2 ^ 64 := by decide +kernel

end Sys2Proof.Tests
end

section
/-! SUPPORT. Every command keeps the canonical form of the stores; what a step is on each form of the queue. -/

namespace Sys2Proof.Machine

/-- Every command keeps the queue and the canonical form, each by the lemma of the definition that gives it its effect. -/
theorem exec_keeps {o s : State} (h : Keeps o s) : ∀ i : Instr, KeepsOut o (exec i s)
  | .registerWrite .. => execRegisterWrite_keeps h ..
  | .counterEnd => execCounterEnd_keeps h
  | .fmaskSliceWrite .. => execFmaskSliceWrite_keeps h ..
  | .fmaskPortWrite .. => execFmaskPortWrite_keeps h ..
  | .fmaskCoreWrite .. => execFmaskCoreWrite_keeps h ..
  | .mgWindowEnd => execMgWindowEnd_keeps h
  | .mgDrain .. => execMgDrain_keeps h ..
  | .mgDrainResend .. => execMgDrainResend_keeps h ..
  | .mgAckRx .. => execMgAckRx_keeps h ..
  | .mgRead => execMgRead_keeps h
  | .mgAck => execMgAck_keeps h
  | .mgCheckpoint => execMgCheckpoint_keeps h
  | .checkpointSigned .. => execCheckpointSigned_keeps h ..
  | .ctxAlloc => execCtxAlloc_keeps h
  | .groupAlloc => execGroupAlloc_keeps h
  | .groupFree => execGroupFree_keeps h
  | .ctxCommitGo .. => execCtxCommitGo_keeps h ..
  | .ctxArm .. => execCtxArm_keeps h ..
  | .ctxCancel .. => execCtxCancel_keeps h ..
  | .ctxAbort .. => execCtxAbort_keeps h ..
  | .ctxUnbind .. => execCtxUnbind_keeps h ..
  | .launchStart .. => execLaunchStart_keeps h ..
  | .abortFrameRx .. => execAbortFrameRx_keeps h ..
  | .ctxTimeout .. => execCtxTimeout_keeps h ..
  | .resultReorderRelease .. => execResultReorderRelease_keeps h ..
  | .epochCorrection => execEpochCorrection_keeps h
  | .syncInPulse .. => execSyncInPulse_keeps h ..
  | .schLoadArm => execSchLoadArm_keeps h
  | .timeReqSend => execTimeReqSend_keeps h
  | .timeReqRx .. => execTimeReqRx_keeps h ..
  | .timeRspRx .. => execTimeRspRx_keeps h ..
  | .exchangeMissed => execExchangeMissed_keeps h
  | .syncInLost => execSyncInLost_keeps h
  | .syncDrift => execSyncDrift_keeps h
  | .slotStart .. => execSlotStart_keeps h ..
  | .slotSpanEnd .. => execSlotSpanEnd_keeps h ..
  | .schedSlip .. => execSchedSlip_keeps h ..
  | .coreStart .. => execCoreStart_keeps h ..
  | .bundleIssue .. => execBundleIssue_keeps h ..
  | .drainPointIssue .. => execDrainPointIssue_keeps h ..
  | .fadd .. => execFadd_keeps h ..
  | .fsub .. => execFsub_keeps h ..
  | .fmul .. => execFmul_keeps h ..
  | .fmin .. => execFmin_keeps h ..
  | .fmax .. => execFmax_keeps h ..
  | .fdiv .. => execFdiv_keeps h ..
  | .fsqrt .. => execFsqrt_keeps h ..
  | .fcvt .. => execFcvt_keeps h ..
  | .unpk .. => execUnpk_keeps h ..
  | .iadd .. => execIadd_keeps h ..
  | .isub .. => execIsub_keeps h ..
  | .imin .. => execImin_keeps h ..
  | .imax .. => execImax_keeps h ..
  | .vand .. => execVand_keeps h ..
  | .vor .. => execVor_keeps h ..
  | .vxor .. => execVxor_keeps h ..
  | .mov .. => execMov_keeps h ..
  | .bcast .. => execBcast_keeps h ..
  | .padd .. => execPadd_keeps h ..
  | .phloxExp .. => execPhloxExp_keeps h ..
  | .phloxCvt .. => execPhloxCvt_keeps h ..
  | .phloxNorm .. => execPhloxNorm_keeps h ..
  | .dotBlk16 .. => execDotBlk16_keeps h ..
  | .dotBlk32 .. => execDotBlk32_keeps h ..
  | .dotpBlk16 .. => execDotpBlk16_keeps h ..
  | .dotpBlk32 .. => execDotpBlk32_keeps h ..
  | .ldV .. => execLdV_keeps h ..
  | .stV .. => execStV_keeps h ..
  | .ldS .. => execLdS_keeps h ..
  | .stS .. => execStS_keeps h ..
  | .sstart .. => execSstart_keeps h ..
  | .swait .. => execSwait_keeps h ..
  | .srel .. => execSrel_keeps h ..
  | .endOp .. => execEndOp_keeps h ..
  | .sadd .. => execSadd_keeps h ..
  | .ssub .. => execSsub_keeps h ..
  | .smul .. => execSmul_keeps h ..
  | .sand .. => execSand_keeps h ..
  | .sor .. => execSor_keeps h ..
  | .sxor .. => execSxor_keeps h ..
  | .shl .. => execShl_keeps h ..
  | .shr .. => execShr_keeps h ..
  | .sra .. => execSra_keeps h ..
  | .movi .. => execMovi_keeps h ..
  | .aadd .. => execAadd_keeps h ..
  | .mova .. => execMova_keeps h ..
  | .movs .. => execMovs_keeps h ..
  | .pset .. => execPset_keeps h ..
  | .br .. => execBr_keeps h ..
  | .loop .. => execLoop_keeps h ..
  | .seTileWrite .. => execSeTileWrite_keeps h ..
  | .seFrameQueue .. => execSeFrameQueue_keeps h ..
  | .haltReq .. => execHaltReq_keeps h ..
  | .coreHalt .. => execCoreHalt_keeps h ..
  | .resume .. => execResume_keeps h ..
  | .stepCore .. => execStepCore_keeps h ..
  | .rcRegfileWrite .. => execRcRegfileWrite_keeps h ..
  | .sramWindowWrite .. => execSramWindowWrite_keeps h ..
  | .frameRx .. => execFrameRx_keeps h ..
  | .origAdmit .. => execOrigAdmit_keeps h ..
  | .pointerHandover .. => execPointerHandover_keeps h ..
  | .copyCommit .. => execCopyCommit_keeps h ..
  | .cacheRefill .. => execCacheRefill_keeps h ..
  | .audit .. => execAudit_keeps h ..
  | .auditWrite .. => execAuditWrite_keeps h ..
  | .reclaim .. => execReclaim_keeps h ..
  | .sliceEmpty .. => execSliceEmpty_keeps h ..
  | .drainDeadline .. => execDrainDeadline_keeps h ..
  | .echoY5Rx .. => execEchoY5Rx_keeps h ..
  | .echoWindowEnd => execEchoWindowEnd_keeps h
  | .rateRecovery => execRateRecovery_keeps h
  | .nbrMaskWrite .. => execNbrMaskWrite_keeps h ..
  | .flush .. => execFlush_keeps h ..
  | .flushDone => execFlushDone_keeps h
  | .tagTimeout .. => execTagTimeout_keeps h ..
  | .frameTxStart .. => execFrameTxStart_keeps h ..
  | .tokenRefill => execTokenRefill_keeps h
  | .shpCommit .. => execShpCommit_keeps h ..
  | .queueSample => execQueueSample_keeps h
  | .clearMax .. => execClearMax_keeps h ..
  | .laserPoll .. => execLaserPoll_keeps h ..
  | .codewordRx .. => execCodewordRx_keeps h ..
  | .alignTimeout .. => execAlignTimeout_keeps h ..
  | .helloTimeout .. => execHelloTimeout_keeps h ..
  | .keepaliveLoss .. => execKeepaliveLoss_keeps h ..
  | .retrainTimeout .. => execRetrainTimeout_keeps h ..
  | .holdExpiry .. => execHoldExpiry_keeps h ..
  | .helloSend .. => execHelloSend_keeps h ..
  | .helloRx .. => execHelloRx_keeps h ..
  | .portEnWrite .. => execPortEnWrite_keeps h ..
  | .portRetrain .. => execPortRetrain_keeps h ..
  | .portLocate .. => execPortLocate_keeps h ..
  | .portTestWrite .. => execPortTestWrite_keeps h ..
  | .loopRefused .. => execLoopRefused_keeps h ..
  | .freqWindow .. => execFreqWindow_keeps h ..
  | .lsrCtrlWrite .. => execLsrCtrlWrite_keeps h ..
  | .ledFrame => execLedFrame_keeps h
  | .servicePress .. => execServicePress_keeps h ..
  | .locateExpiry => execLocateExpiry_keeps h
  | .ackRx .. => execAckRx_keeps h ..
  | .ackSend .. => execAckSend_keeps h ..
  | .nackRx .. => execNackRx_keeps h ..
  | .retryTimeout .. => execRetryTimeout_keeps h ..
  | .retryEpisodeExpiry .. => execRetryEpisodeExpiry_keeps h ..
  | .creditRx .. => execCreditRx_keeps h ..
  | .creditSend .. => execCreditSend_keeps h ..
  | .imgBegin => execImgBegin_keeps h
  | .imgChunk => execImgChunk_keeps h
  | .imgValidate => execImgValidate_keeps h
  | .validationDone => execValidationDone_keeps h
  | .imgStore => execImgStore_keeps h
  | .discard => execDiscard_keeps h
  | .commitArm .. => execCommitArm_keeps h ..
  | .commitNow .. => execCommitNow_keeps h ..
  | .commitCancel .. => execCommitCancel_keeps h ..
  | .imageCommit => execImageCommit_keeps h
  | .bootImageLoad => execBootImageLoad_keeps h
  | .sqTailWrite .. => execSqTailWrite_keeps h ..
  | .cqHeadWrite .. => execCqHeadWrite_keeps h ..
  | .qpEnWrite .. => execQpEnWrite_keeps h ..
  | .commandTake => execCommandTake_keeps h
  | .cmdRx .. => execCmdRx_keeps h ..
  | .nop => execNop_keeps h
  | .regRead => execRegRead_keeps h
  | .regWrite => execRegWrite_keeps h
  | .forwardCommand => execForwardCommand_keeps h
  | .fwdResponse .. => execFwdResponse_keeps h ..
  | .fwdTimeout .. => execFwdTimeout_keeps h ..
  | .perst => execPerst_keeps h
  | .spdmMsg => execSpdmMsg_keeps h
  | .spdmVdmRx .. => execSpdmVdmRx_keeps h ..
  | .secReport => execSecReport_keeps h
  | .secOpkey => execSecOpkey_keeps h
  | .debugSet => execDebugSet_keeps h
  | .partRemove => execPartRemove_keeps h
  | .removalDrained .. => execRemovalDrained_keeps h ..
  | .removalDeadline .. => execRemovalDeadline_keeps h ..
  | .retiringDone .. => execRetiringDone_keeps h ..
  | .zeroiseDone .. => execZeroiseDone_keeps h ..
  | .linkRekey => execLinkRekey_keeps h
  | .rekeyReqRx .. => execRekeyReqRx_keeps h ..
  | .rekeyAckRx .. => execRekeyAckRx_keeps h ..
  | .linkSessionRetry .. => execLinkSessionRetry_keeps h ..
  | .faultRaise .. => execFaultRaise_keeps h ..
  | .fcStatClear .. => execFcStatClear_keeps h ..
  | .safeExit => execSafeExit_keeps h
  | .sevWrite .. => execSevWrite_keeps h ..
  | .fcErrWrite .. => execFcErrWrite_keeps h ..
  | .errPulseEnd => execErrPulseEnd_keeps h
  | .fcInjGo .. => execFcInjGo_keeps h ..
  | .evtRead => execEvtRead_keeps h
  | .evtAck => execEvtAck_keeps h
  | .telSnapshot => execTelSnapshot_keeps h
  | .snapshotCapture => execSnapshotCapture_keeps h
  | .telRead => execTelRead_keeps h
  | .vinPowerUp .. => execVinPowerUp_keeps h ..
  | .vinPowerDown .. => execVinPowerDown_keeps h ..
  | .railUp .. => execRailUp_keeps h ..
  | .railWindowMiss .. => execRailWindowMiss_keeps h ..
  | .railTrip .. => execRailTrip_keeps h ..
  | .pllLock .. => execPllLock_keeps h ..
  | .smbusRegRead .. => execSmbusRegRead_keeps h ..
  | .smbusRegWrite .. => execSmbusRegWrite_keeps h ..
  | .railClear .. => execRailClear_keeps h ..
  | .powerCycle .. => execPowerCycle_keeps h ..
  | .warmReset .. => execWarmReset_keeps h ..
  | .pwrCommit .. => execPwrCommit_keeps h ..
  | .plevelSwitch .. => execPlevelSwitch_keeps h ..
  | .capLower .. => execCapLower_keeps h ..
  | .fastTrip .. => execFastTrip_keeps h ..
  | .capRaise .. => execCapRaise_keeps h ..
  | .thermSample .. => execThermSample_keeps h ..
  | .sliceWake .. => execSliceWake_keeps h ..
  | .wakeComplete .. => execWakeComplete_keeps h ..
  | .standbyReq .. => execStandbyReq_keeps h ..
  | .standbyExit .. => execStandbyExit_keeps h ..
  | .brownout => execBrownout_keeps h
  | .refclkLoss .. => execRefclkLoss_keeps h ..
  | .refclkReturn => execRefclkReturn_keeps h
  | .rstCmdWarm .. => execRstCmdWarm_keeps h ..
  | .rstCmdMp .. => execRstCmdMp_keeps h ..
  | .rstCmdSlice .. => execRstCmdSlice_keeps h ..
  | .powerOnReset => execPowerOnReset_keeps h
  | .deviceWarmReset => execDeviceWarmReset_keeps h
  | .sliceReset .. => execSliceReset_keeps h ..
  | .mpReset => execMpReset_keeps h
  | .wdtKick => execWdtKick_keeps h
  | .wdtExpiry => execWdtExpiry_keeps h
  | .romBoot .. => execRomBoot_keeps h ..
  | .healthConfirm => execHealthConfirm_keeps h
  | .confirmWriteDone => execConfirmWriteDone_keeps h
  | .confirmTimerExpiry => execConfirmTimerExpiry_keeps h
  | .recInfo => execRecInfo_keeps h
  | .recChunk => execRecChunk_keeps h
  | .recInstall => execRecInstall_keeps h
  | .recExit => execRecExit_keeps h
  | .fwBegin => execFwBegin_keeps h
  | .fwChunk => execFwChunk_keeps h
  | .fwEnd => execFwEnd_keeps h
  | .fwRelay => execFwRelay_keeps h
  | .fwDiscard => execFwDiscard_keeps h
  | .fwSvnCommit => execFwSvnCommit_keeps h
  | .settingsRead => execSettingsRead_keeps h
  | .settingsWrite => execSettingsWrite_keeps h
  | .relayResponse .. => execRelayResponse_keeps h ..
  | .relayRetry => execRelayRetry_keeps h
  | .sliceDrainStart .. => execSliceDrainStart_keeps h ..
  | .standbyEntered => execStandbyEntered_keeps h
  | .hostLinkUp .. => execHostLinkUp_keeps h ..
  | .tapAccess => execTapAccess_keeps h
  | .backgroundCommandDone .. => execBackgroundCommandDone_keeps h ..
  | .frameTxEnd .. => execFrameTxEnd_keeps h ..
  | .codeRegionReload .. => execCodeRegionReload_keeps h ..

theorem KeepsOut.inv {o t : State} {r : Host.Outcome State Fault Refusal} (h : KeepsOut o r) (i : o.Inv) (e : r = .next t) :
    t.Inv := by
  obtain ⟨u, hu, hk⟩ := h
  cases hu.symm.trans e
  exact hk.2 i

theorem step_nil {s : State} (h : s.pending = []) : step s = .next s.tick := by
  unfold step; rw [h]

theorem step_cons {s : State} {c : Instr} {rest : List Instr} (h : s.pending = c :: rest) :
    step s = exec c { s with pending := rest } := by
  unfold step; rw [h]

/-- The canonical form speaks of the registers, their shadows and core SRAM, not of the queue. -/
theorem State.inv_pending_iff {s : State} {q : List Instr} : ({ s with pending := q } : State).Inv ↔ s.Inv := Iff.rfl

end Sys2Proof.Machine
end

section
/-! SUPPORT. Ranges of written fields (R4): each field with a range takes the nearer bound, and no other bit changes. -/

namespace Sys2Proof.Machine

/-- The field of a range, as (low bit, width, least, greatest), ends before bit `b` or begins after it. -/
def AwayFrom (b : Nat) (e : Nat × Nat × Nat × Nat) : Prop := b < e.1 ∨ e.1 + e.2.1 ≤ b

/-- Two ranges are of fields that share no bit. -/
def FieldsApart (e g : Nat × Nat × Nat × Nat) : Prop := e.1 + e.2.1 ≤ g.1 ∨ g.1 + g.2.1 ≤ e.1

/-- A number with the field of each listed range replaced by the value that `x` gives for it. -/
def putFields (x : Nat × Nat × Nat × Nat → Nat) (l : List (Nat × Nat × Nat × Nat)) (v : Nat) : Nat :=
  l.foldl (fun a e => putBits a e.1 e.2.1 (x e)) v

theorem clampReg_eq_putFields (r : RegName) (v : Nat) :
    clampReg r v = putFields (fun e => clampTo e.2.2.1 e.2.2.2 (bitsOf v e.1 e.2.1)) (writeRanges r) v := rfl

section
variable {x : Nat × Nat × Nat × Nat → Nat} {l : List (Nat × Nat × Nat × Nat)}

theorem testBit_putFields_away {b : Nat} (h : ∀ e ∈ l, AwayFrom b e) (v : Nat) :
    (putFields x l v).testBit b = v.testBit b := by
  induction l generalizing v with
  | nil => rfl
  | cons e l ih =>
    obtain ⟨he, hl⟩ := List.forall_mem_cons.1 h
    have hb : ¬ (e.1 ≤ b ∧ b < e.1 + e.2.1) := by unfold AwayFrom at he; omega
    calc (putFields x l (putBits v e.1 e.2.1 (x e))).testBit b
        = (putBits v e.1 e.2.1 (x e)).testBit b := ih hl _
      _ = v.testBit b := by rw [testBit_putBits, if_neg hb]

theorem bitsOf_putFields_apart {g : Nat × Nat × Nat × Nat} (h : ∀ e ∈ l, FieldsApart g e) (v : Nat) :
    bitsOf (putFields x l v) g.1 g.2.1 = bitsOf v g.1 g.2.1 := by
  induction l generalizing v with
  | nil => rfl
  | cons e l ih =>
    obtain ⟨he, hl⟩ := List.forall_mem_cons.1 h
    exact (ih hl _).trans (bitsOf_putBits_apart he)

/-- Each listed field holds the value put there, since no later one shares a bit with it. -/
theorem bitsOf_putFields_mem (h : l.Pairwise FieldsApart) {e : Nat × Nat × Nat × Nat} (he : e ∈ l) (v : Nat) :
    bitsOf (putFields x l v) e.1 e.2.1 = x e % 2 ^ e.2.1 := by
  induction l generalizing v with
  | nil => cases he
  | cons g l ih =>
    obtain ⟨hg, hl⟩ := List.pairwise_cons.1 h
    rcases List.mem_cons.1 he with rfl | he
    · exact (bitsOf_putFields_apart hg _).trans (bitsOf_putBits_self ..)
    · exact ih hl he _

end

/-- The ranges of a register's fields share no bit. -/
theorem writeRanges_apart (r : RegName) : (writeRanges r).Pairwise FieldsApart := by
  unfold writeRanges FieldsApart
  split <;> decide

/-- Each range is one of values that its field holds. -/
theorem writeRanges_fit (r : RegName) : ∀ e ∈ writeRanges r, e.2.2.1 ≤ e.2.2.2 ∧ e.2.2.2 < 2 ^ e.2.1 := by
  unfold writeRanges
  split <;> decide

theorem clampTo_mem {lo hi : Nat} (h : lo ≤ hi) (v : Nat) : lo ≤ clampTo lo hi v ∧ clampTo lo hi v ≤ hi := by
  unfold clampTo; omega

theorem bitsOf_clampReg {r : RegName} {e : Nat × Nat × Nat × Nat} (he : e ∈ writeRanges r) (v : Nat) :
    bitsOf (clampReg r v) e.1 e.2.1 = clampTo e.2.2.1 e.2.2.2 (bitsOf v e.1 e.2.1) := by
  obtain ⟨hle, hlt⟩ := writeRanges_fit r e he
  rw [clampReg_eq_putFields, bitsOf_putFields_mem (writeRanges_apart r) he]
  exact Nat.mod_eq_of_lt (Nat.lt_of_le_of_lt (clampTo_mem hle _).2 hlt)

end Sys2Proof.Machine
end

section
/-! SUPPORT. The access codes of a plain register write (R8, R9), bit by bit. -/

namespace Sys2Proof.Machine

/-- A bit of a register has one access code. -/
theorem masks_apart (r : RegName) : r.mask .rw &&& r.mask .w1c = 0 ∧ r.mask .rw &&& r.mask .w1s = 0
    ∧ r.mask .w1c &&& r.mask .w1s = 0 :=
  of_decide_eq_true (by cases r <;> rfl)

theorem masks_add_eq_or (r : RegName) :
    r.mask .rw + r.mask .w1c + r.mask .w1s = r.mask .rw ||| r.mask .w1c ||| r.mask .w1s := by
  cases r <;> rfl

theorem mask_lt (r : RegName) (a : Access) : r.mask a < 2 ^ 64 :=
  of_decide_eq_true (by cases a <;> cases r <;> rfl)

/-- Masks that share no bit, at one bit. -/
theorem testBit_and_testBit_of_apart {m n : Nat} (h : m &&& n = 0) (b : Nat) : (m.testBit b && n.testBit b) = false := by
  rw [← Nat.testBit_and, h, Nat.zero_testBit]

theorem testBit_without {m : Nat} (hm : m < 2 ^ 64) (v b : Nat) :
    (without v m).testBit b = (v.testBit b && (decide (b < 64) && !m.testBit b)) := by
  rw [← Nat.testBit_two_pow_sub_succ hm, Nat.sub_add_eq, Nat.sub_right_comm]
  exact Nat.testBit_and ..

/-- A value written to a register, cut to its width and with its fields in their ranges. -/
def RegName.clamped (r : RegName) (v : Nat) : Nat := clampReg r (v % 2 ^ r.row.width)

/-- What a plain write of `v` puts in a register that reads `cur`. -/
def RegName.updated (r : RegName) (v cur : Nat) : Nat :=
  Nat.lor (Nat.lor (without cur (r.mask .rw + r.mask .w1c + r.mask .w1s)) (Nat.land (r.clamped v) (r.mask .rw)))
    (Nat.lor (Nat.land (without cur v) (r.mask .w1c)) (Nat.land (Nat.lor cur v) (r.mask .w1s)))

/-- Every bit of the value written, by the access codes. -/
theorem testBit_updated {r : RegName} {v b : Nat} (hv : v < 2 ^ 64) (hb : b < 64) (cur : Nat) :
    (r.updated v cur).testBit b =
      (((cur.testBit b && !((r.mask .rw).testBit b || (r.mask .w1c).testBit b || (r.mask .w1s).testBit b))
        || ((r.clamped v).testBit b && (r.mask .rw).testBit b))
      || ((cur.testBit b && !v.testBit b && (r.mask .w1c).testBit b)
        || ((cur.testBit b || v.testBit b) && (r.mask .w1s).testBit b))) := by
  have hm : r.mask .rw ||| r.mask .w1c ||| r.mask .w1s < 2 ^ 64 :=
    Nat.or_lt_two_pow (Nat.or_lt_two_pow (mask_lt r _) (mask_lt r _)) (mask_lt r _)
  have hk : (without cur (r.mask .rw + r.mask .w1c + r.mask .w1s)).testBit b
      = (cur.testBit b && (decide (b < 64) && !(r.mask .rw ||| r.mask .w1c ||| r.mask .w1s).testBit b)) := by
    rw [masks_add_eq_or, testBit_without hm]
  have hc := testBit_without hv cur b
  change (((without cur _ ||| r.clamped v &&& _) ||| (without cur v &&& _ ||| (cur ||| v) &&& _)) : Nat).testBit b = _
  simp [hk, hc, hb]

namespace State

theorem rdShadow_wrShadow_self {s : State} (h : s.Inv) (r : RegName) (v i j k : Nat) :
    (s.wrShadow r v i j k).rdShadow r i j k = v % 2 ^ 64 := by
  unfold rdShadow wrShadow
  rw [readKey_writeKey_self h.2.1, BitVec.xor_assoc, BitVec.xor_self, BitVec.xor_zero, BitVec.toNat_ofNat]

theorem rdShadow_wrShadow_ne {s : State} (h : s.Inv) {r q : RegName} {v i j k a b c : Nat}
    (n : q.addr a b c ≠ r.addr i j k) : (s.wrShadow r v i j k).rdShadow q a b c = s.rdShadow q a b c := by
  unfold rdShadow wrShadow
  rw [readKey_writeKey_ne h.2.1 n]

section
variable (s : State) (r : RegName) (v i j k : Nat)

/-- The shadow written by a plain write: its RWC bits new, the others as they were. -/
def updatedShadow : Nat :=
  Nat.lor (without (s.rdShadow r i j k) (r.mask .rwc)) (Nat.land (r.clamped v) (r.mask .rwc))

/-- A plain write is one write of the register, and one of its shadow where it has RWC fields. -/
theorem plainWrite_eq : s.plainWrite r v i j k =
    let s1 := s.wr r (r.updated v (s.rd r i j k)) i j k
    if r.mask .rwc = 0 then s1 else s1.wrShadow r (s.updatedShadow r v i j k) i j k := rfl

theorem rd_plainWrite (q : RegName) (a b c : Nat) : (s.plainWrite r v i j k).rd q a b c =
    (s.wr r (r.updated v (s.rd r i j k)) i j k).rd q a b c := by
  rw [plainWrite_eq]; dsimp only; split <;> rfl

/-- A plain write changes registers and shadows alone. -/
theorem plainWrite_frame : s.plainWrite r v i j k =
    { s with regs := (s.plainWrite r v i j k).regs, shadow := (s.plainWrite r v i j k).shadow } := by
  rw [plainWrite_eq]; dsimp only; split <;> rfl

end

section
variable {s : State} {r : RegName} {v i j k b : Nat}

theorem wr_inv (h : s.Inv) : (s.wr r v i j k).Inv := (wr_keeps (.refl s) ..).2 h

/-- Every other register, and its shadow, reads as before. -/
theorem plainWrite_ne (h : s.Inv) {q : RegName} {a c d : Nat} (n : q.addr a c d ≠ r.addr i j k) :
    (s.plainWrite r v i j k).rd q a c d = s.rd q a c d
    ∧ (s.plainWrite r v i j k).rdShadow q a c d = s.rdShadow q a c d := by
  refine ⟨by rw [rd_plainWrite, rd_wr_ne h n], ?_⟩
  rw [plainWrite_eq]
  dsimp only
  split
  · rfl
  · exact rdShadow_wrShadow_ne (wr_inv h) n

theorem testBit_rd_plainWrite (h : s.Inv) (hb : b < 64) : ((s.plainWrite r v i j k).rd r i j k).testBit b
    = (r.updated v (s.rd r i j k)).testBit b := by
  rw [rd_plainWrite, rd_wr_self h, Nat.testBit_mod_two_pow, decide_eq_true hb, Bool.true_and]

/-- An RWC bit pends as it was written. -/
theorem testBit_rdShadow_plainWrite (h : s.Inv) (hb : b < 64) (hm : (r.mask .rwc).testBit b = true) :
    ((s.plainWrite r v i j k).rdShadow r i j k).testBit b = (r.clamped v).testBit b := by
  have hne : r.mask .rwc ≠ 0 := fun h0 => by rw [h0, Nat.zero_testBit] at hm; cases hm
  have hs : (s.updatedShadow r v i j k).testBit b = (r.clamped v).testBit b := by
    change (without _ _ ||| _ &&& _ : Nat).testBit b = _
    rw [Nat.testBit_or, Nat.testBit_and, testBit_without (mask_lt r _), hm]
    simp
  rw [plainWrite_eq]
  dsimp only
  rw [if_neg hne, rdShadow_wrShadow_self (wr_inv h), Nat.testBit_mod_two_pow, decide_eq_true hb, Bool.true_and, hs]

/-- A WO bit reads as 0. -/
theorem testBit_plainRead_wo (hm : (r.mask .wo).testBit b = true) : (s.plainRead r i j k).testBit b = false := by
  unfold plainRead
  rw [testBit_without (mask_lt r _), hm]
  simp

theorem writeReg_plain (hs : s.writeSpecial r v i j k = none) (hc : s.writeControl r v i = none) :
    s.writeReg r v i j k = s.plainWrite r v i j k := by
  unfold writeReg
  rw [hs, hc]

end

end State

theorem exec_registerWrite {off : BitVec 30} {r : RegName} {i j k : Nat} (h : regAt off.toNat = some (r, i, j, k))
    (v : BitVec 64) (s : State) : exec (.registerWrite off v) s = .next (s.writeReg r v.toNat i j k) := by
  change execRegisterWrite off v s = _
  unfold execRegisterWrite
  rw [h]

/-- Every bit of a register after a plain write, by its access code. -/
theorem testBit_updated_cases (r : RegName) {v b : Nat} (hv : v < 2 ^ 64) (hb : b < 64) (cur : Nat) :
    ((r.mask .rw).testBit b → (r.updated v cur).testBit b = (r.clamped v).testBit b)
    ∧ ((r.mask .w1c).testBit b → (r.updated v cur).testBit b = (cur.testBit b && !v.testBit b))
    ∧ ((r.mask .w1s).testBit b → (r.updated v cur).testBit b = (cur.testBit b || v.testBit b))
    ∧ ((r.mask .rw).testBit b = false → (r.mask .w1c).testBit b = false → (r.mask .w1s).testBit b = false →
      (r.updated v cur).testBit b = cur.testBit b) := by
  obtain ⟨hrc, hre, hce⟩ := masks_apart r
  have hrc := testBit_and_testBit_of_apart hrc b
  have hre := testBit_and_testBit_of_apart hre b
  have hce := testBit_and_testBit_of_apart hce b
  rw [testBit_updated hv hb]
  refine ⟨fun hm => ?rw, fun hm => ?w1c, fun hm => ?w1s, fun hr hc he => ?kept⟩
  case rw =>
    rw [hm, Bool.true_and] at hrc hre
    simp [hm, hrc, hre]
  case w1c =>
    rw [hm, Bool.and_true] at hrc
    rw [hm, Bool.true_and] at hce
    simp [hm, hrc, hce]
  case w1s =>
    rw [hm, Bool.and_true] at hre hce
    simp [hm, hre, hce]
  case kept => simp [hr, hc, he]

end Sys2Proof.Machine
end

section
/-! SUPPORT. The statements of the scope chapter settled. -/

namespace Sys2Proof.Settled

open Sys2Proof.Machine

/-- Settles O33: the command at the front keeps the canonical form of the state it runs on, and on an empty queue the tick
does. -/
theorem stepKeepsInv : Obligations.StepKeepsInv := by
  intro s t hs e
  cases hq : s.pending with
  | nil =>
    rw [step_nil hq] at e
    exact (KeepsOut.next (State.tick_keeps (.refl s))).inv hs e
  | cons c rest =>
    rw [step_cons hq] at e
    exact (exec_keeps (.refl _) c).inv (State.inv_pending_iff.2 hs) e

/-- Settles O34, by induction on the run: the reset state is in canonical form, giving a command changes the queue alone, and
every step keeps the form. -/
theorem reachedInv : Obligations.ReachedInv := by
  intro s h
  induction h with
  | reset => exact State.reset_inv
  | command s c _ ih => exact State.inv_pending_iff.2 ih
  | step s t _ e ih => exact stepKeepsInv s t ih e

/-- Settles O37: a plain write is one write of the register and at most one of its shadow, and no two of the masks by which
it chooses the bits share one. -/
theorem registerAccess : Obligations.RegisterAccess := by
  intro s r v i j k hs
  refine ⟨fun off ho hsp hct => ?_, s.plainWrite_frame r _ i j k, fun q a b c n => State.plainWrite_ne hs n,
    fun b hb => ?_⟩
  · rw [exec_registerWrite ho, State.writeReg_plain hsp hct]
  · obtain ⟨hrw, hw1c, hw1s, hkept⟩ := testBit_updated_cases r v.isLt hb (s.rd r i j k)
    rw [State.testBit_rd_plainWrite hs hb]
    exact ⟨hrw, hw1c, hw1s, State.testBit_rdShadow_plainWrite hs hb, hkept, State.testBit_plainRead_wo⟩

/-- Settles O38: the ranges of a register share no bit and fit their fields, so that each field ends with its own bound. -/
theorem writeRanges : Obligations.WriteRanges := by
  intro r v
  refine ⟨fun e he => ?_, fun b hb => ?_⟩
  · rw [bitsOf_clampReg he]
    exact ⟨rfl, clampTo_mem (writeRanges_fit r e he).1 _⟩
  · exact testBit_putFields_away hb v

end Sys2Proof.Settled
end

section
/-! SUPPORT. The schedule counter: how it moves in a tick, and that no launch is due while it stands at its maximum. -/

namespace Sys2Proof.Machine

namespace State

@[simp] theorem setSync_count (s : State) (y : SyncX) : (s.setSync y).count = s.count := rfl
@[simp] theorem setSync_sync (s : State) (y : SyncX) : (s.setSync y).sync = y := rfl

/-- The canonical form speaks of the registers, their shadows and core SRAM, not of the time exchange. -/
theorem inv_setSync_iff {s : State} {y : SyncX} : (s.setSync y).Inv ↔ s.Inv := Iff.rfl

section
variable {s : State}

theorem setCount_count (h : s.Inv) (v : Nat) : (s.setCount v).count = min v (2 ^ 64 - 1) := by
  have hle : min v (2 ^ 64 - 1) < 2 ^ 64 := by omega
  exact (fld_setFld_self h F.SCH_COUNT_COUNT _ 0 0 0 (by decide)).trans (Nat.mod_eq_of_lt hle)

theorem advanceCount_of_hold_ne (h : s.sync.hold ≠ 0) :
    s.advanceCount = s.setSync { s.sync with hold := s.sync.hold - 1, since := s.count + 1 } := if_pos h

theorem advanceCount_of_hold_eq (h : s.sync.hold = 0) :
    s.advanceCount = (s.setSync { s.sync with since := s.count + 1 }).setCount (s.count + 1) := if_neg fun hne => hne h

/-- With no backward correction in force the count moves on by one, and not past its maximum. -/
theorem advanceCount_count (hs : s.Inv) (h : s.sync.hold = 0) :
    s.advanceCount.count = min (s.count + 1) (2 ^ 64 - 1) := by
  rw [advanceCount_of_hold_eq h, setCount_count (inv_setSync_iff.2 hs)]

/-- At its maximum the count holds, whether a backward correction is in force or not (R25). -/
theorem advanceCount_count_max (hs : s.Inv) (hmax : s.count = 2 ^ 64 - 1) : s.advanceCount.count = 2 ^ 64 - 1 := by
  by_cases h : s.sync.hold = 0
  · rw [advanceCount_count hs h, hmax]
    exact Nat.min_eq_right (Nat.le_succ _)
  · rw [advanceCount_of_hold_ne h, setSync_count, hmax]

theorem startDue_lt {c : Nat} (h : s.startDue c = true) : s.count < 2 ^ 64 - 1 := by
  unfold startDue at h
  exact of_decide_eq_true (Bool.and_eq_true_iff.1 h).1

/-- A launch that is not due changes nothing. -/
theorem launchStart_of_not_due {c : Nat} (h : s.startDue c ≠ true) : s.launchStart c = s :=
  if_neg fun ⟨_, _, hdue⟩ => h hdue

/-- While the reference clock is absent or the device is off nothing moves (R438). -/
theorem tick_of_not_clocked (h : s.clocked = false) : s.tick = s := by
  unfold tick
  rw [if_neg (by rw [h]; decide)]

end

end State

theorem exec_launchStart (c : Fin 4096) (s : State) : exec (.launchStart c) s = .next (s.launchStart c) := rfl

theorem exec_counterEnd (s : State) :
    exec .counterEnd s = .next (if s.count = 2 ^ 64 - 1 then s.report 0x0E 0 else s) := rfl

end Sys2Proof.Machine
end

section
/-! SUPPORT. Fault mask writes (R32): the bits that a write newly sets are the ones that act. -/

namespace Sys2Proof.Machine

theorem State.rd_lt (s : State) (r : RegName) (i j k : Nat) : s.rd r i j k < 2 ^ 64 := BitVec.isLt _

theorem exec_fmaskSliceWrite (v : BitVec 32) (s : State) :
    exec (.fmaskSliceWrite v) s = .next (s.writeMask32 .GLB_FMASK_SLICE 0 v.toNat State.maskSlice) := rfl

theorem exec_fmaskPortWrite (k : Fin 8) (v : BitVec 32) (s : State) :
    exec (.fmaskPortWrite k v) s = .next (s.writeMask32 .GLB_FMASK_PORT k v.toNat State.maskPort) := rfl

theorem exec_fmaskCoreWrite (k : Fin 16) (v : BitVec 32) (s : State) :
    exec (.fmaskCoreWrite k v) s = .next (s.writeMask32 .GLB_FMASK_CORE k v.toNat State.maskCore) := rfl

/-- The bits of a 32-bit write that the register does not hold yet are those newly set. -/
theorem filter_without_eq_newBits {w old : Nat} (hw : w ≤ 32) (ho : old < 2 ^ 64) (v : Nat) :
    (List.range w).filter (bitOf (without (v % 2 ^ 32) old)) = Claims.newBits w old v := by
  unfold Claims.newBits
  refine List.filter_congr fun b hb => ?_
  have hb32 : b < 32 := Nat.lt_of_lt_of_le (List.mem_range.1 hb) hw
  have hb64 : b < 64 := by omega
  rw [bitOf_eq, bitOf_eq, bitOf_eq, testBit_without ho, Nat.testBit_mod_two_pow, decide_eq_true hb32, decide_eq_true hb64,
    Bool.true_and, Bool.true_and]

namespace State
variable (s : State) (act : State → Nat → State)

/-- A write of a mask register of 32 units sets bits, and each bit newly set acts on its unit; the disabled-unit map follows. -/
theorem writeMask32_units {r : RegName} (hr : r ≠ .GLB_FMASK_SLICE) (hw : r.row.width = 32) (k v : Nat) :
    s.writeMask32 r k v act = ((Claims.newBits 32 (s.rd r k) v).foldl (fun a b => act a (32 * k + b))
      (s.wr r (Nat.lor (s.rd r k) (v % 2 ^ 32)) k)).showDisabled.noteTerms := by
  unfold writeMask32
  dsimp only
  rw [hw, if_neg hr, filter_without_eq_newBits (Nat.le_refl 32) (s.rd_lt ..)]

/-- The same of the one mask register of the 16 slices. -/
theorem writeMask32_slices (v : Nat) :
    s.writeMask32 .GLB_FMASK_SLICE 0 v act = ((Claims.newBits 16 (s.rd .GLB_FMASK_SLICE) v).foldl act
      (s.wr .GLB_FMASK_SLICE (Nat.lor (s.rd .GLB_FMASK_SLICE) (v % 2 ^ 16)))).showDisabled.noteTerms := by
  have hw : (RegName.row .GLB_FMASK_SLICE).width = 32 := rfl
  have hnew := filter_without_eq_newBits (w := 16) (by decide) (s.rd_lt .GLB_FMASK_SLICE 0 0 0) v
  unfold writeMask32
  dsimp only
  rw [hw, if_pos rfl, hnew]
  simp only [Nat.mul_zero, Nat.zero_add]

end State

end Sys2Proof.Machine
end

section
/-! SUPPORT. The statements about the schedule count and the chip window settled. -/

namespace Sys2Proof.Settled

open Sys2Proof.Machine

/-- Settles O59: the count's move is bounded by the maximum, and a launch is due only below it. -/
theorem countEnd : Obligations.CountEnd := by
  intro s hs hmax
  refine ⟨State.advanceCount_count_max hs hmax, fun c => ?_, ?_⟩
  · have hdue : s.startDue c ≠ true := fun h => absurd (State.startDue_lt h) (by omega)
    rw [exec_launchStart, State.launchStart_of_not_due hdue]
  · rw [exec_counterEnd, if_pos hmax]

/-- Settles O9: the window's writes, the MASK write and COUNTER_END are what their rows say; a fault mask write acts on the
bits it newly sets. -/
theorem windowWrites : Obligations.WindowWrites := by
  refine ⟨fun _ _ _ => rfl, fun _ _ _ _ => rfl, fun _ _ _ _ => rfl, fun v s => ?slice, fun k v s => ?port, fun k v s => ?core,
    fun _ _ _ _ => rfl, exec_counterEnd⟩
  case slice => rw [exec_fmaskSliceWrite, State.writeMask32_slices]
  case port => rw [exec_fmaskPortWrite, State.writeMask32_units _ _ (by decide) rfl]
  case core => rw [exec_fmaskCoreWrite, State.writeMask32_units _ _ (by decide) rfl]

/-- Settles O31: a step with no command waiting is a tick, and the count moves as `advanceCount` moves it. -/
theorem tickOnEmptyQueue : Obligations.TickOnEmptyQueue := by
  refine ⟨fun _ => step_nil, fun _ => State.tick_of_not_clocked, fun _ => State.advanceCount_count, fun s h => ?_⟩
  rw [State.advanceCount_of_hold_ne h]
  exact ⟨s.setSync_count _, congrArg SyncX.hold (s.setSync_sync _)⟩

end Sys2Proof.Settled
end

section
/-! SUPPORT. Byte strings (R6): how long they are, and the number read back from its place in a longer string. -/

namespace Sys2Proof.Machine

@[simp] theorem length_leBytes (n v : Nat) : (leBytes n v).length = n := by
  induction n generalizing v with
  | zero => rfl
  | succ n ih => rw [leBytes, List.length_cons, ih]

/-- A slice is as long as asked, for what lies past the end reads as zeros. -/
@[simp] theorem length_slice (bs : Bytes) (o n : Nat) : (slice bs o n).length = n := by
  simp only [slice, List.length_append, List.length_replicate, List.length_take]
  omega

theorem leNat_leBytes (n v : Nat) : leNat (leBytes n v) = v % 256 ^ n := by
  induction n generalizing v with
  | zero => rw [Nat.pow_zero, Nat.mod_one]; rfl
  | succ n ih =>
    calc leNat (leBytes (n + 1) v) = v % 256 + 256 * (v / 256 % 256 ^ n) := by
          rw [leBytes, leNat, ih, BitVec.toNat_ofNat]
      _ = v % 256 ^ (n + 1) := by rw [Nat.pow_succ', Nat.mod_mul]

theorem slice_append_middle (a b c : Bytes) : slice (a ++ b ++ c) a.length b.length = b := by
  simp [slice]

/-- A number written in n bytes after o others reads back there, modulo 256^n. -/
theorem leAt_leBytes {a : Bytes} {o : Nat} (h : a.length = o) (n v : Nat) (c : Bytes) :
    leAt (a ++ leBytes n v ++ c) o n = v % 256 ^ n := by
  have hs := slice_append_middle a (leBytes n v) c
  rw [length_leBytes, h] at hs
  rw [leAt, hs, leNat_leBytes]

end Sys2Proof.Machine
end

section
/-! SUPPORT. The record of a partition: reads after writes, and what an append does to its queue (R41, R48, R51). -/

namespace Sys2Proof.Machine

/-- A value other than the default reads back from any list, canonical or not. -/
theorem readKey_writeKey_of_ne_default {α : Type} [DecidableEq α] {d a : α} (h : a ≠ d) (m : List (Nat × α)) (x : Nat) :
    readKey d (writeKey d m x a) x = a := by
  rw [writeKey, if_neg h, readKey, lookupKey_insertKey_self, Option.getD_some]

/-- The 64 bytes of an entry as it is appended: its SEQ, what the engine gave it, LOST, and the start of the chain value. -/
def chainedEntry (seq : Nat) (e : Bytes) (lost : Bool) (head : Bytes) : Bytes :=
  leBytes 6 seq ++ slice e 6 16 ++ leBytes 2 (b2n lost) ++ slice e 24 32 ++ head.take 8

section
variable (seq : Nat) (e : Bytes) (lost : Bool) (head : Bytes)

theorem leAt_chainedEntry_seq : leAt (chainedEntry seq e lost head) 0 6 = seq % 2 ^ 48 := by
  have h := leAt_leBytes (a := []) rfl 6 seq (slice e 6 16 ++ leBytes 2 (b2n lost) ++ slice e 24 32 ++ head.take 8)
  change _ = seq % 256 ^ 6
  simpa only [chainedEntry, List.nil_append, List.append_assoc, List.length_nil] using h

theorem leAt_chainedEntry_lost : leAt (chainedEntry seq e lost head) 22 2 = b2n lost := by
  have hlen : (leBytes 6 seq ++ slice e 6 16).length = 22 := by simp
  have h := leAt_leBytes hlen 2 (b2n lost) (slice e 24 32 ++ head.take 8)
  have hlt : b2n lost % 256 ^ 2 = b2n lost := by cases lost <;> rfl
  rw [hlt] at h
  simpa only [chainedEntry, List.append_assoc] using h

end

namespace State

section
variable {s : State} {p : Nat}

/-- A record that holds an entry is not the one that unlisted partitions have, and so reads back as written. -/
theorem mgOf_setMg_of_queue_ne_nil {m : MgX} (h : m.queue ≠ []) : (s.setMg p m).mgOf p = m :=
  readKey_writeKey_of_ne_default (fun hm => h (congrArg MgX.queue hm)) _ _

@[simp] theorem mgOf_bump (f : Fld) (n i j k q : Nat) : (s.bump f n i j k).mgOf q = s.mgOf q := rfl

@[simp] theorem mgOf_setDigest (r : RegName) (d : Bytes) (q : Nat) : (s.setDigest r p d).mgOf q = s.mgOf q := rfl

/-- The oldest entry gives way, and the others keep their order. -/
theorem overwrite_queue (h : 1 < (s.mgOf p).queue.length) :
    ((s.overwrite p).mgOf p).queue = (s.mgOf p).queue.drop 1 := by
  have hne : (s.mgOf p).queue.drop 1 ≠ [] := fun h0 => by rw [List.drop_eq_nil_iff] at h0; omega
  unfold overwrite
  dsimp only
  rw [mgOf_bump, mgOf_setMg_of_queue_ne_nil hne]

/-- An append to a full queue overwrites the oldest entry first, and the entry appended says so. -/
theorem append_queue_of_full (h : 4160 ≤ (s.mgOf p).queue.length) (seq : Nat) (e : Bytes) :
    ((s.append p seq e).mgOf p).queue = (s.mgOf p).queue.drop 1 ++
      [⟨(s.overwrite p).partDigest .GLB_MG_HEAD_CHAIN p,
        chainedEntry seq e true ((s.overwrite p).partDigest .GLB_MG_HEAD_CHAIN p), !((s.overwrite p).mgOf p).appended⟩] := by
  rw [← overwrite_queue (Nat.lt_of_lt_of_le (by decide) h), chainedEntry]
  unfold append
  dsimp only
  rw [decide_eq_true h, if_pos rfl, mgOf_setDigest,
    mgOf_setMg_of_queue_ne_nil (List.append_ne_nil_of_right_ne_nil _ (List.cons_ne_nil _ _))]

end

end State

end Sys2Proof.Machine
end

section
/-! SUPPORT. The response to a command (R370), and the parts of the machine that its delivery leaves as they are. -/

namespace Sys2Proof.Machine

/-- The parts of a machine that are the same whether a command is answered or not. -/
structure BeyondAnswers where
  mem : List Host.Cell
  cores : List (Nat × CoreX)
  ctxs : List (Nat × CtxRun)
  mg : List (Nat × MgX)
  sync : SyncX
  image : Image
  taken : List TakenX
  work : List (TakenX × Work)

namespace State

/-- Those parts of a state. -/
def beyondAnswers (s : State) : BeyondAnswers := ⟨s.mem, s.cores, s.ctxs, s.mg, s.sync, s.image, s.cmd.taken, s.cmd.work⟩

section
variable (s : State)

@[simp] theorem wr_beyondAnswers (r : RegName) (v i j k : Nat) : (s.wr r v i j k).beyondAnswers = s.beyondAnswers := rfl
@[simp] theorem setFld_beyondAnswers (f : Fld) (v i j k : Nat) : (s.setFld f v i j k).beyondAnswers = s.beyondAnswers := rfl
@[simp] theorem bump_beyondAnswers (f : Fld) (n i j k : Nat) : (s.bump f n i j k).beyondAnswers = s.beyondAnswers := rfl
@[simp] theorem setPort_beyondAnswers (x : Nat) (q : PortX) : (s.setPort x q).beyondAnswers = s.beyondAnswers := rfl
@[simp] theorem setQueue_beyondAnswers (q : Nat) (x : QueueX) : (s.setQueue q x).beyondAnswers = s.beyondAnswers := rfl
@[simp] theorem emit_beyondAnswers (o : Output) : (s.emit o).beyondAnswers = s.beyondAnswers := rfl
@[simp] theorem report_beyondAnswers (src inst : Nat) (info : Bytes) (inj : Bool) :
    (s.report src inst info inj).beyondAnswers = s.beyondAnswers := rfl

/-- A lookup through the flowlet table changes the table, in its port, and counts. -/
theorem adaptive_beyondAnswers (n x : Nat) (f : Frame) : (s.adaptive n x f).1.beyondAnswers = s.beyondAnswers := by
  unfold adaptive
  dsimp only
  repeat' split
  all_goals simp only [setPort_beyondAnswers, bump_beyondAnswers]

/-- Every other lookup changes nothing. -/
theorem route_beyondAnswers (n x : Nat) (f : Frame) : (s.route n x f).1.beyondAnswers = s.beyondAnswers := by
  have hadaptive := s.adaptive_beyondAnswers n x f
  unfold route
  dsimp only
  repeat' split
  case isFalse.isFalse.isFalse.isFalse => exact hadaptive
  all_goals rfl

/-- A frame of the Y5's own making becomes a copy that asks for buffers, or is counted as dropped. -/
theorem originate_beyondAnswers (n : Nat) (f : Frame) : (s.originate n f).beyondAnswers = s.beyondAnswers := by
  have hroute := s.route_beyondAnswers n 256 (s.ownFrame n f)
  unfold originate
  dsimp only
  split <;> exact hroute

/-- A completion goes into its ring and out of the Y5, or is counted as lost. -/
theorem deliverHost_beyondAnswers (q gen : Nat) (b : Bytes) : (s.deliverHost q gen b).beyondAnswers = s.beyondAnswers := by
  unfold deliverHost
  dsimp only
  repeat' split
  all_goals simp only [bump_beyondAnswers, emit_beyondAnswers, setFld_beyondAnswers, setQueue_beyondAnswers]

theorem deliver_beyondAnswers (c : TakenX) (b : Bytes) : (s.deliver c b).beyondAnswers = s.beyondAnswers := by
  unfold deliver
  split
  · exact s.deliverHost_beyondAnswers ..
  · exact s.originate_beyondAnswers ..

theorem respond_beyondAnswers (c : TakenX) (status arg : Nat) (payload : Bytes) :
    (s.respond c status arg payload).beyondAnswers = s.beyondAnswers := by
  unfold respond
  dsimp only
  rw [deliver_beyondAnswers]
  split
  · exact s.report_beyondAnswers ..
  · rfl

theorem foldl_respond_beyondAnswers (l : List TakenX) (status : Nat) :
    (l.foldl (fun a c => a.respond c status) s).beyondAnswers = s.beyondAnswers := by
  induction l generalizing s with
  | nil => rfl
  | cons c l ih => rw [List.foldl_cons, ih, respond_beyondAnswers]

theorem dropValidation_beyondAnswers : s.dropValidation.beyondAnswers = s.beyondAnswers := by
  unfold dropValidation
  split
  · rw [setFld_beyondAnswers, setFld_beyondAnswers]
  · rfl

/-- An MP reset drops the commands in hand and the packages; the answers it gives and the registers it writes change nothing
else of these parts (R441). -/
theorem mpReset_beyondAnswers (cause : Nat) : (s.mpReset cause).beyondAnswers =
    ⟨s.mem, s.cores, s.ctxs, s.mg, s.sync, { s.image with packages := [] }, [], []⟩ := by
  unfold mpReset
  dsimp only
  rw [noteCause, wr_beyondAnswers, setFld_beyondAnswers, setFld_beyondAnswers, setFld_beyondAnswers,
    dropValidation_beyondAnswers, foldl_respond_beyondAnswers]
  rfl

end

end State

/-- A row that executes the oldest taken command under an opcode answers that command. -/
theorem answers_of_run {i : Instr} {op : Nat} {f : State → TakenX → State} (h : ∀ s, exec i s = .next (s.run op f)) :
    Answers i op f := fun s => (h s).trans rfl

end Sys2Proof.Machine
end

section
/-! SUPPORT. The statements about the record engine and the MP reset settled. -/

namespace Sys2Proof.Settled

open Sys2Proof.Machine

/-- Settles O47: the entry appended follows the others less the oldest, and its SEQ and LOST read back from their places. -/
theorem lossyAppend : Obligations.LossyAppend := by
  intro s p seq e hfull
  refine ⟨_, State.append_queue_of_full (Nat.le_of_eq hfull.symm) seq e, ?lost, ?seq⟩
  case lost => exact leAt_chainedEntry_lost ..
  case seq => exact leAt_chainedEntry_seq ..

/-- Settles O53: each part named reads off what the reset leaves beyond its answers. -/
theorem mpResetKeeps : Obligations.MpResetKeeps := by
  intro s cause
  exact BeyondAnswers.mk.inj (s.mpReset_beyondAnswers cause)

/-- Settles O11: the engine's rows are what the record's operations say, and its three commands answer the oldest taken one. -/
theorem marigoldRows : Obligations.MarigoldRows := by
  refine ⟨fun _ => rfl, fun _ _ => rfl, fun _ _ _ => rfl, fun _ _ _ => rfl, fun _ _ => rfl, ?read, ?ack, ?checkpoint⟩
  case read => exact answers_of_run fun _ => rfl
  case ack => exact answers_of_run fun _ => rfl
  case checkpoint => exact answers_of_run fun _ => rfl

end Sys2Proof.Settled
end

section
/-! SUPPORT. Whole units chosen under a rounding mode (R68): the units below a value, and when the next is taken. -/

namespace Sys2Proof.Machine

/-- A remainder of zero is rounded away under no mode. -/
theorem roundUp_zero (mode : Rnd) (t sh : Nat) : roundUp mode t 0 sh = false := by
  cases mode with
  | rne => simp [roundUp, Nat.ne_of_lt (Nat.two_pow_pos sh)]
  | rtz => rfl
  | sr r => simp [roundUp]

theorem roundUp_rne {t rem sh : Nat} :
    roundUp .rne t rem sh = true ↔ 2 ^ sh < 2 * rem ∨ 2 * rem = 2 ^ sh ∧ t % 2 = 1 := by
  simp [roundUp]

/-- At its own exponent a magnitude is whole. -/
@[simp] theorem roundUnits_self (mode : Rnd) (m : Nat) (e : Int) : roundUnits mode m e e = m := by
  simp [roundUnits]

section

variable {mode : Rnd} {m : Nat} {e q : Int}

theorem roundUnits_of_le (h : q ≤ e) : roundUnits mode m e q = m * 2 ^ (e - q).toNat := if_pos h

theorem roundUnits_of_lt (h : e < q) :
    roundUnits mode m e q =
      if roundUp mode (m / 2 ^ (q - e).toNat) (m % 2 ^ (q - e).toNat) (q - e).toNat then m / 2 ^ (q - e).toNat + 1
      else m / 2 ^ (q - e).toNat := if_neg (Int.not_le.2 h)

/-- Toward zero, the whole units below are taken. -/
theorem roundUnits_rtz (h : e < q) : roundUnits .rtz m e q = m / 2 ^ (q - e).toNat := by
  rw [roundUnits_of_lt h]
  exact if_neg Bool.false_ne_true

/-- Every mode takes the units that `rtz` takes, or the next. -/
theorem roundUnits_eq_rtz_or_succ (h : e < q) (mode : Rnd) :
    roundUnits mode m e q = roundUnits .rtz m e q ∨ roundUnits mode m e q = roundUnits .rtz m e q + 1 := by
  rw [roundUnits_rtz h, roundUnits_of_lt h]
  split
  next => exact .inr rfl
  next => exact .inl rfl

/-- Every mode takes a whole number of units as it is. -/
theorem roundUnits_of_mod_eq_zero (h : e < q) (hw : m % 2 ^ (q - e).toNat = 0) (mode : Rnd) :
    roundUnits mode m e q = roundUnits .rtz m e q := by
  rw [roundUnits_rtz h, roundUnits_of_lt h, hw, roundUp_zero]
  exact if_neg Bool.false_ne_true

/-- To nearest even, the remainder decides, and at half a unit the parity of the units below. -/
theorem roundUnits_rne (h : e < q) :
    roundUnits .rne m e q =
      if 2 ^ (q - e).toNat < 2 * (m % 2 ^ (q - e).toNat)
          ∨ 2 * (m % 2 ^ (q - e).toNat) = 2 ^ (q - e).toNat ∧ roundUnits .rtz m e q % 2 = 1
      then roundUnits .rtz m e q + 1 else roundUnits .rtz m e q := by
  rw [roundUnits_rtz h, roundUnits_of_lt h]
  simp only [roundUp_rne]

/-- A magnitude below 2^(q + k) is at most 2^k units of 2^q, rounded up or not. -/
theorem roundUnits_le_two_pow {k : Nat} (h : (m.log2 : Int) + e < q + k) : roundUnits mode m e q ≤ 2 ^ k := by
  have hm : m < 2 ^ (m.log2 + 1) := Nat.lt_log2_self
  rcases Int.lt_or_le e q with hlt | hle
  · have hk : m < 2 ^ (q - e).toNat * 2 ^ k := by
      rw [← Nat.pow_add]
      exact Nat.lt_of_lt_of_le hm (Nat.pow_le_pow_right Nat.two_pos (by omega))
    have hbelow := Nat.div_lt_of_lt_mul hk
    have hnext := roundUnits_eq_rtz_or_succ (m := m) hlt mode
    rw [roundUnits_rtz hlt] at hnext
    omega
  · calc roundUnits mode m e q = m * 2 ^ (e - q).toNat := roundUnits_of_le hle
      _ ≤ 2 ^ (m.log2 + 1) * 2 ^ (e - q).toNat := Nat.mul_le_mul_right _ (Nat.le_of_lt hm)
      _ = 2 ^ (m.log2 + 1 + (e - q).toNat) := (Nat.pow_add ..).symm
      _ ≤ 2 ^ k := Nat.pow_le_pow_right Nat.two_pos (by omega)

end

end Sys2Proof.Machine
end

section
/-! SUPPORT. The values of the encodings of a float format (R58), and one rounding into it (R60, R68). -/

namespace Sys2Proof.Machine

section

variable {f : Fmt} {bits m : Nat} {neg : Bool} {e : Int} {mode : Rnd}

/-- An encoding is its exponent field, its mantissa field and its sign. -/
theorem Fmt.encoding_eq (hf : f ≠ .int8) (hb : bits < 2 ^ f.width) :
    bitsOf bits f.mb f.eb * 2 ^ f.mb + bitsOf bits 0 f.mb + (if bitOf bits (f.width - 1) then 2 ^ (f.width - 1) else 0)
      = bits := by
  have hw : f.width = f.mb + f.eb + 1 := by
    cases f with
    | int8 => exact absurd rfl hf
    | _ => rfl
  have hmag : bitsOf bits f.mb f.eb * 2 ^ f.mb + bitsOf bits 0 f.mb = bits % 2 ^ (f.mb + f.eb) := by
    rw [Nat.pow_add, Nat.mod_mul, bitsOf, bitsOf, Nat.pow_zero, Nat.div_one, Nat.mul_comm, Nat.add_comm]
  have htop : bits / 2 ^ (f.mb + f.eb) < 2 := Nat.div_lt_of_lt_mul (by rwa [hw, Nat.pow_succ] at hb)
  have hsign : (if bitOf bits (f.mb + f.eb) then 2 ^ (f.mb + f.eb) else 0)
      = 2 ^ (f.mb + f.eb) * (bits / 2 ^ (f.mb + f.eb)) := by
    rw [bitOf, Nat.mod_eq_of_lt htop]
    rcases Nat.le_one_iff_eq_zero_or_eq_one.1 (Nat.le_of_lt_succ htop) with h | h <;> simp [h]
  rw [hw, Nat.add_sub_cancel, hmag, hsign, Nat.mod_add_div]

/-- An exponent field of zero gives a subnormal value or zero. -/
theorem Fmt.value_of_exponent_zero (hf : f ≠ .int8) (h : bitsOf bits f.mb f.eb = 0) :
    f.value bits = .fin (bitOf bits (f.width - 1)) (bitsOf bits 0 f.mb) (1 - (f.bias : Int) - f.mb) := by
  have htop : (0 : Nat) ≠ 2 ^ f.eb - 1 := by
    cases f with
    | int8 => exact absurd rfl hf
    | _ => decide
  simp [Fmt.value, hf, h, htop]

/-- A finite value's exponent field is not that of an infinity or NaN, and its encoding is not the NaN of E4M3. -/
theorem Fmt.finite_of_value (hf : f ≠ .int8) (hv : f.value bits = .fin neg m e) :
    ¬ (bitsOf bits f.mb f.eb = 2 ^ f.eb - 1 ∧ f.hasInf)
    ∧ ¬ (f = .e4m3 ∧ bitsOf bits f.mb f.eb = 2 ^ f.eb - 1 ∧ bitsOf bits 0 f.mb = 7)
    ∧ (bitsOf bits f.mb f.eb ≠ 0 → neg = bitOf bits (f.width - 1) ∧ m = 2 ^ f.mb + bitsOf bits 0 f.mb
      ∧ e = (bitsOf bits f.mb f.eb : Int) - f.bias - f.mb) := by
  simp only [Fmt.value, if_neg hf] at hv
  split at hv
  · cases hv
  split at hv
  · cases hv
  split at hv
  · cases hv
  next hinf hnan =>
    refine ⟨hinf, hnan, fun hex => ?_⟩
    rw [if_neg hex] at hv
    cases hv
    exact ⟨rfl, rfl, rfl⟩

/-- The magnitude of a finite value's encoding is at most that of the largest (R58). -/
theorem Fmt.magnitude_le_maxFinite (hf : f ≠ .int8) (hv : f.value bits = .fin neg m e) :
    bitsOf bits f.mb f.eb * 2 ^ f.mb + bitsOf bits 0 f.mb ≤ f.maxFinite := by
  have hex := bitsOf_lt bits f.mb f.eb
  have hman := bitsOf_lt bits 0 f.mb
  obtain ⟨hinf, hnan, -⟩ := Fmt.finite_of_value hf hv
  cases f with
  | int8 => exact absurd rfl hf
  | _ =>
    simp [Fmt.mb, Fmt.eb, Fmt.hasInf, Fmt.maxFinite] at hex hman hinf hnan ⊢
    omega

theorem Fmt.two_pow_mb_le_maxFinite (hf : f ≠ .int8) : 2 ^ f.mb ≤ f.maxFinite := by
  cases f with
  | int8 => exact absurd rfl hf
  | _ => decide

/-- A zero keeps its sign (R63). -/
theorem roundTo_zero (hf : f ≠ .int8) :
    roundTo f mode (.fin neg 0 e) = ⟨if neg then 2 ^ (f.width - 1) else 0, false⟩ := by
  cases f with
  | int8 => exact absurd rfl hf
  | _ => rfl

/-- One rounding in units of 2^q, where `q` is the unit of the value's magnitude and the result is in range. -/
theorem roundTo_of_le_maxFinite {q : Int} (hf : f ≠ .int8) (hm : m ≠ 0)
    (hq : max ((m.log2 : Int) + e) (1 - (f.bias : Int)) - f.mb = q)
    (h : (q - (1 - (f.bias : Int) - f.mb)).toNat * 2 ^ f.mb + roundUnits mode m e q ≤ f.maxFinite) :
    roundTo f mode (.fin neg m e)
      = ⟨(q - (1 - (f.bias : Int) - f.mb)).toNat * 2 ^ f.mb + roundUnits mode m e q
          + (if neg then 2 ^ (f.width - 1) else 0), false⟩ := by
  subst hq
  cases f with
  | int8 => exact absurd rfl hf
  | _ => exact (if_neg hm).trans (if_pos h)

/-- Below the normal range the result is the whole units of the smallest subnormal (R60). -/
theorem roundTo_subnormal (hf : f ≠ .int8) (hm : m ≠ 0) (h : (m.log2 : Int) + e < 1 - (f.bias : Int)) :
    roundTo f mode (.fin neg m e)
      = ⟨roundUnits mode m e (1 - (f.bias : Int) - f.mb) + (if neg then 2 ^ (f.width - 1) else 0), false⟩ := by
  have hunits : roundUnits mode m e (1 - (f.bias : Int) - f.mb) ≤ 2 ^ f.mb := roundUnits_le_two_pow (by omega)
  have hmax := Nat.le_trans hunits (Fmt.two_pow_mb_le_maxFinite hf)
  rw [roundTo_of_le_maxFinite hf hm (q := 1 - (f.bias : Int) - f.mb) (by omega) (by simpa using hmax)]
  simp

/-- A normal value whose encoding is in range rounds to its exponent field and its mantissa field. -/
theorem roundTo_normal {ex man : Nat} (hf : f ≠ .int8) (hex : ex ≠ 0) (hman : man < 2 ^ f.mb)
    (h : ex * 2 ^ f.mb + man ≤ f.maxFinite) :
    roundTo f mode (.fin neg (2 ^ f.mb + man) ((ex : Int) - f.bias - f.mb))
      = ⟨ex * 2 ^ f.mb + man + (if neg then 2 ^ (f.width - 1) else 0), false⟩ := by
  have hm : 2 ^ f.mb + man ≠ 0 := by have := Nat.two_pow_pos f.mb; omega
  have hlog : (2 ^ f.mb + man).log2 = f.mb := (Nat.log2_eq_iff hm).2 ⟨by omega, by rw [Nat.pow_succ]; omega⟩
  have henc : ((ex : Int) - f.bias - f.mb - (1 - (f.bias : Int) - f.mb)).toNat * 2 ^ f.mb
      + roundUnits mode (2 ^ f.mb + man) ((ex : Int) - f.bias - f.mb) ((ex : Int) - f.bias - f.mb)
      = ex * 2 ^ f.mb + man := by
    obtain ⟨k, rfl⟩ := Nat.exists_eq_succ_of_ne_zero hex
    rw [roundUnits_self, show ((k.succ : Int) - f.bias - f.mb - (1 - (f.bias : Int) - f.mb)).toNat = k by omega]
    rw [Nat.succ_mul, Nat.add_assoc]
  rw [roundTo_of_le_maxFinite hf hm (q := (ex : Int) - f.bias - f.mb) (by rw [hlog]; omega) (by rwa [henc]), henc]

/-- The values of a float format's encodings round to them. -/
theorem roundTo_value_float (hf : f ≠ .int8) (hb : bits < 2 ^ f.width) (hv : f.value bits = .fin neg m e) :
    roundTo f mode (.fin neg m e) = ⟨bits, false⟩ := by
  have henc := Fmt.encoding_eq hf hb
  have hman := bitsOf_lt bits 0 f.mb
  by_cases hex : bitsOf bits f.mb f.eb = 0
  case neg =>
    have hmax := Fmt.magnitude_le_maxFinite hf hv
    obtain ⟨-, -, hnormal⟩ := Fmt.finite_of_value hf hv
    obtain ⟨rfl, rfl, rfl⟩ := hnormal hex
    rw [roundTo_normal hf hex hman hmax, henc]
  case pos =>
    rw [hex, Nat.zero_mul, Nat.zero_add] at henc
    rw [Fmt.value_of_exponent_zero hf hex] at hv
    cases hv
    by_cases hm : bitsOf bits 0 f.mb = 0
    case pos =>
      rw [hm, Nat.zero_add] at henc
      rw [hm, roundTo_zero hf, henc]
    case neg =>
      have hlog := (Nat.log2_lt hm).2 hman
      rw [roundTo_subnormal hf hm (by omega), roundUnits_self, henc]

end

/-! INT8 (R58) -/

theorem signedOf_bounds {w : Nat} (v : Nat) :
    -((2 ^ w : Nat) : Int) ≤ 2 * signedOf w v ∧ 2 * signedOf w v < ((2 ^ w : Nat) : Int) := by
  have hmod := Nat.mod_lt v (Nat.two_pow_pos w)
  unfold signedOf
  dsimp only
  split <;> omega

theorem unsignedOf_signedOf {w v : Nat} (h : v < 2 ^ w) : unsignedOf w (signedOf w v) = v := by
  unfold unsignedOf signedOf
  rw [Nat.mod_eq_of_lt h]
  dsimp only
  split
  · rw [Int.sub_emod_right, ← Int.natCast_emod, Nat.mod_eq_of_lt h, Int.toNat_natCast]
  · rw [← Int.natCast_emod, Nat.mod_eq_of_lt h, Int.toNat_natCast]

/-- An integer in the range of INT8 rounds to its two's complement. -/
theorem roundTo_int8_of_bounds {i : Int} (mode : Rnd) (hlo : -128 ≤ i) (hhi : i < 128) :
    roundTo .int8 mode (.fin (decide (i < 0)) i.natAbs 0) = ⟨unsignedOf 8 i, false⟩ := by
  simp only [roundTo, roundUnits_self]
  by_cases hneg : i < 0
  · rw [if_pos (decide_eq_true hneg), if_neg (by omega), show -(i.natAbs : Int) = i by omega]
  · rw [if_neg (by simpa using hneg), if_neg (by omega)]
    simp only [unsignedOf, Rounded.mk.injEq, and_true]
    omega

theorem roundTo_value_int8 {bits m : Nat} {neg : Bool} {e : Int} (mode : Rnd) (hb : bits < 2 ^ 8)
    (hv : Fmt.int8.value bits = .fin neg m e) : roundTo .int8 mode (.fin neg m e) = ⟨bits, false⟩ := by
  obtain ⟨hlo, hhi⟩ := signedOf_bounds (w := 8) bits
  have hi := roundTo_int8_of_bounds mode (i := signedOf 8 bits) (by omega) (by omega)
  rw [unsignedOf_signedOf hb] at hi
  cases hv
  exact hi

end Sys2Proof.Machine
end

section
/-! SUPPORT. The statements of the number formats settled. -/

namespace Sys2Proof.Settled

open Sys2Proof.Machine

/-- Settles O44: the value of an exponent field of zero, and the rounding whose unit is the smallest subnormal. -/
theorem subnormalsKept : Obligations.SubnormalsKept :=
  ⟨fun _ _ hf hex => Fmt.value_of_exponent_zero hf hex, fun _ _ _ _ _ hf hm hlow => roundTo_subnormal hf hm hlow⟩

/-- Settles O45: the value's last place is the unit it is rounded in, so that every mode keeps it whole. -/
theorem roundingIsExactOnValues : Obligations.RoundingIsExactOnValues := by
  intro f mode bits neg m e hb hv
  by_cases hf : f = .int8
  case pos => subst hf; exact roundTo_value_int8 mode hb hv
  case neg => exact roundTo_value_float hf hb hv

/-- Settles O46: the value is the units below it and a remainder of less than a unit, and the remainder decides. -/
theorem roundingUnits : Obligations.RoundingUnits := by
  intro m e q h u near
  have hsplit : (roundUnits .rtz m e q : Int) * u + (m % 2 ^ (q - e).toNat : Nat) = m := by
    rw [roundUnits_rtz h]
    exact congrArg Nat.cast (Nat.div_add_mod' m (2 ^ (q - e).toNat))
  have hrem : ((m % 2 ^ (q - e).toNat : Nat) : Int) < u :=
    Int.ofNat_lt.2 (Nat.mod_lt m (Nat.two_pow_pos (q - e).toNat))
  have hnext : (roundUnits .rtz m e q + 1 : Int) * u = roundUnits .rtz m e q * u + u := by
    rw [Int.add_mul, Int.one_mul]
  refine ⟨?nearest, by omega, fun r => ⟨roundUnits_eq_rtz_or_succ h _, fun hw => ?whole⟩⟩
  case whole => exact roundUnits_of_mod_eq_zero h (by omega) _
  case nearest =>
    have hrne := roundUnits_rne (m := m) h
    split at hrne
    next hup =>
      have hnear : near = (roundUnits .rtz m e q + 1 : Int) := congrArg Nat.cast hrne
      rw [← hnear] at hnext
      omega
    next hdown =>
      have hnear : near = (roundUnits .rtz m e q : Int) := congrArg Nat.cast hrne
      rw [← hnear] at hsplit
      omega

end Sys2Proof.Settled
end

section
/-! SUPPORT. The step of an inbound stream engine (R179 to R181), an equation for each way it can go. -/

namespace Sys2Proof.Machine

theorem exec_seTileWrite (n : Fin 512) (k : Fin 4) (s : State) : exec (.seTileWrite n k) s = .next (s.seWrite n k) := rfl

theorem exec_seFrameQueue (n : Fin 512) (k : Fin 4) (s : State) : exec (.seFrameQueue n k) s = .next (s.seQueue n k) := rfl

namespace State
variable {s : State} {n k : Nat}

theorem seWrite_of_not_runs (hruns : ¬ s.seRuns n k 0) : s.seWrite n k = s := if_neg hruns

/-- The tiles of an absent input are passed one at a time, as slots come free (R112; log entry 85). -/
theorem seWrite_of_absent (hruns : s.seRuns n k 0)
    (habsent : ¬ s.targetPresent (s.fld F.RC_SE_STAT_CTX n k) ((s.engine n k).first + s.seCount n k)
      (s.fld F.RC_SE_STAT_TARGET n k)) :
    s.seWrite n k = if s.seCount n k - s.seRel n k < seSlots (s.engine n k) then s.seAdvance n k 1 else s := by
  unfold seWrite
  simp only [if_pos hruns, if_pos habsent, decide_eq_true_eq]

section
variable (hruns : s.seRuns n k 0)
  (hpresent : ¬ ¬ s.targetPresent (s.fld F.RC_SE_STAT_CTX n k) ((s.engine n k).first + s.seCount n k)
    (s.fld F.RC_SE_STAT_TARGET n k))
include hruns hpresent

theorem seWrite_of_inFrame_none (hframe : s.inFrame n k = none) : s.seWrite n k = s := by
  unfold seWrite
  simp only [if_pos hruns, if_neg hpresent, hframe]

/-- A frame whose length is not that of its tiles halts the core; a tile of a good frame is written when a slot is free. -/
theorem seWrite_of_inFrame_some {q : Copy} (hframe : s.inFrame n k = some q) :
    s.seWrite n k =
      if q.frame.len ≠ s.tilesIn q.frame * (s.engine n k).tileBytes then
        (s.setCopy { q with faulty := true }).seFault n k 0x0A 2 (s.engine n k).bundle
      else if s.seCount n k - s.seRel n k < seSlots (s.engine n k) then
        ((s.writeSram n (seSlot (s.engine n k) ((s.engine n k).first + s.seCount n k))
            (Machine.slice q.frame.payload
              (((s.engine n k).first + s.seCount n k - q.frame.tile) * (s.engine n k).tileBytes)
              (s.engine n k).tileBytes)).seAdvance n k 1).tookTile n q ((s.engine n k).first + s.seCount n k)
      else s := by
  unfold seWrite
  simp only [if_pos hruns, if_neg hpresent, hframe, decide_eq_true_eq]

end

end State

end Sys2Proof.Machine
end

section
/-! SUPPORT. The statement about the stream engines settled. -/

namespace Sys2Proof.Settled

open Sys2Proof.Machine

/-- Settles O8: an inbound engine goes one of the ways that its target and its inbound queue leave it; an outbound engine's
step is the definition's own text. -/
theorem streamEngines : Obligations.StreamEngines := by
  refine ⟨fun n k s => ?inbound, fun n k s => ?outbound⟩
  case outbound => exact exec_seFrameQueue n k s
  case inbound =>
    rw [exec_seTileWrite]
    refine congrArg Host.Outcome.next ?_
    split
    next hruns =>
      dsimp only
      split
      next habsent => exact State.seWrite_of_absent hruns habsent
      next hpresent =>
        split
        next hframe => exact State.seWrite_of_inFrame_none hruns hpresent hframe
        next q hframe => exact State.seWrite_of_inFrame_some hruns hpresent hframe
    next hruns => exact State.seWrite_of_not_runs hruns

end Sys2Proof.Settled
end

section
/-! SUPPORT. The oldest taken command under its opcode (R370), and the group IDs of a partition (R111). -/

namespace Sys2Proof.Machine

namespace State

section
variable {s : State} {c : TakenX} {rest : List TakenX}

/-- The row of the oldest taken command's opcode takes that command, when it is for this chip. -/
theorem run_of_taken (htaken : s.cmd.taken = c :: rest) (hchip : pkChip c.bytes = s.ownChip) {op : Nat} (hop : c.op = op)
    (f : State → TakenX → State) : s.run op f = f { s with cmd := { s.cmd with taken := rest } } c := by
  unfold run
  rw [htaken]
  exact if_pos ⟨hop, hchip⟩

end

/-- The search from a finds g, given steps enough, when the list holds every number from a up to g and not g itself. -/
theorem freeGroup_eq_of_held_below {l : List Nat} {g : Nat} (hfree : g ∉ l) {steps a : Nat} (ha : a ≤ g)
    (hsteps : g ≤ a + steps) (hheld : ∀ h, a ≤ h → h < g → h ∈ l) : freeGroup l steps a = g := by
  induction steps generalizing a with
  | zero => exact Nat.le_antisymm ha hsteps
  | succ k ih =>
    unfold freeGroup
    rcases Nat.eq_or_lt_of_le ha with rfl | hlt
    · rw [if_neg (mt List.contains_iff_mem.1 hfree)]
    · rw [if_pos (List.contains_iff_mem.2 (hheld a (Nat.le_refl a) hlt))]
      exact ih hlt (by omega) fun h hle => hheld h (Nat.le_of_succ_le hle)

/-- A list that holds every number below g has at least g entries: without its g - 1 it holds those below that. -/
theorem le_length_of_held_below {l : List Nat} {g : Nat} (hheld : ∀ h, h < g → h ∈ l) : g ≤ l.length := by
  induction g generalizing l with
  | zero => exact Nat.zero_le _
  | succ g ih =>
    have hg : g ∈ l := hheld g (Nat.lt_succ_self g)
    have hrest : g ≤ (l.erase g).length :=
      ih fun h hlt => (List.mem_erase_of_ne (Nat.ne_of_lt hlt)).2 (hheld h (Nat.lt_succ_of_lt hlt))
    have hpos : 0 < l.length := List.length_pos_of_mem hg
    rw [List.length_erase_of_mem hg] at hrest
    omega

/-- As many steps as a list has entries find the lowest number that it does not hold. -/
theorem freeGroup_length {l : List Nat} {g : Nat} (hfree : g ∉ l) (hheld : ∀ h, h < g → h ∈ l) :
    freeGroup l l.length 0 = g :=
  freeGroup_eq_of_held_below hfree (Nat.zero_le g) (Nat.le_trans (le_length_of_held_below hheld) (Nat.le_add_left ..))
    fun h _ => hheld h

variable (s : State) (p q : Nat) {g h : Nat}

/-- A group ID of a partition is stored as one number, above it the partition. -/
theorem mem_groupsOf_iff (hh : h < 65536) : h ∈ s.groupsOf q ↔ q * 65536 + h ∈ s.groups := by
  simp only [groupsOf, List.mem_map, List.mem_filter, beq_iff_eq]
  constructor
  · rintro ⟨k, ⟨hk, rfl⟩, rfl⟩
    rwa [Nat.mul_comm, Nat.div_add_mod]
  · exact fun hk => ⟨_, ⟨hk, by omega⟩, by omega⟩

theorem lt_of_mem_groupsOf (hh : h ∈ s.groupsOf q) : h < 65536 := by
  obtain ⟨k, -, rfl⟩ := List.mem_map.1 hh
  exact Nat.mod_lt k (by decide)

theorem mem_groups_addGroup_iff (k : Nat) : k ∈ (s.addGroup p g).groups ↔ k = p * 65536 + g ∨ k ∈ s.groups := by
  simp only [addGroup, List.mem_append, List.mem_cons, List.mem_filter, decide_eq_true_eq]
  constructor
  · rintro (⟨hk, -⟩ | rfl | ⟨hk, -⟩)
    · exact .inr hk
    · exact .inl rfl
    · exact .inr hk
  · rintro (rfl | hk)
    · exact .inr (.inl rfl)
    · rcases Nat.lt_trichotomy k (p * 65536 + g) with hlt | heq | hgt
      · exact .inl ⟨hk, hlt⟩
      · exact .inr (.inl heq)
      · exact .inr (.inr ⟨hk, hgt⟩)

/-- Marking an ID in one partition holds that ID there, and changes nothing else of what any partition holds. -/
theorem mem_groupsOf_addGroup_iff (hg : g < 65536) (hh : h < 65536) :
    h ∈ (s.addGroup p g).groupsOf q ↔ (q = p ∧ h = g) ∨ h ∈ s.groupsOf q := by
  have hkey : q * 65536 + h = p * 65536 + g ↔ q = p ∧ h = g := by omega
  rw [mem_groupsOf_iff _ _ hh, mem_groups_addGroup_iff, hkey, mem_groupsOf_iff _ _ hh]

end State

/-- GROUP_ALLOC of the lowest free ID looks for the lowest number g that the partition does not hold: the ID given when it is
one of the 65,536, and the sign that none is free when it is not. -/
theorem exec_groupAlloc_lowest {s : State} {c : TakenX} {rest : List TakenX} (htaken : s.cmd.taken = c :: rest)
    (hchip : pkChip c.bytes = s.ownChip) (hop : c.op = 9) (harg : c.arg = 65536) (hstays : s.leaving c.part = false) {g : Nat}
    (hfree : g ∉ s.groupsOf c.part) (hheld : ∀ h, h < g → h ∈ s.groupsOf c.part) :
    exec .groupAlloc s = .next (
      let a : State := { s with cmd := { s.cmd with taken := rest } }
      if 65536 ≤ g then a.respond c 0x43 else (a.addGroup c.part g).respond c 0 g) := by
  let a : State := { s with cmd := { s.cmd with taken := rest } }
  have hstays' : ¬ a.leaving c.part = true := ne_true_of_eq_false hstays
  have hlowest : bitOf 65536 16 = true := rfl
  have hlow : State.freeGroup (a.groupsOf c.part) (a.groupsOf c.part).length 0 = g := State.freeGroup_length hfree hheld
  have hnot : ¬ (a.groupsOf c.part).contains g = true := mt List.contains_iff_mem.1 hfree
  change execGroupAlloc s = _
  unfold execGroupAlloc
  rw [State.run_of_taken htaken hchip hop]
  dsimp only
  rw [harg, if_neg (by decide), if_neg hstays', hlow, if_pos hlowest, if_neg hnot]

end Sys2Proof.Machine
end

section
/-! SUPPORT. The writes of a context's commands (R118, R120): those of one tick, and those before and after. -/

namespace Sys2Proof.Machine

/-- A write acts on what the context was before the last write of its tick, when nothing changed the context in between, and
otherwise on the context as it is. -/
theorem State.writeCtx_eq_command (s : State) (c : Nat) (w : CtxBits) : s.writeCtx c w = Claims.command s c w := by
  unfold writeCtx Claims.command
  by_cases hready : s.flag F.GLB_STATUS_MP_READY = true
  · rw [if_pos hready, if_neg (not_not_intro hready)]
    cases s.ctxWrites.find? fun e => e.1 == c with
    | none => rfl
    | some e => rfl
  · rw [if_neg hready, if_pos hready]

end Sys2Proof.Machine
end

section
/-! SUPPORT. The statements about group IDs, context commands and resource commands settled. -/

namespace Sys2Proof.Settled

open Sys2Proof.Machine

/-- Settles O48: the lowest number that the partition does not hold is an ID, or, when it holds all 65,536, the number after
them. -/
theorem groupIds : Obligations.GroupIds := by
  refine ⟨fun s c rest htaken hchip hop harg hstays => ⟨fun g hg hfree hheld => ?given, fun hall => ?exhausted⟩,
    fun s p q g h hg hh => s.mem_groupsOf_addGroup_iff p q hg hh⟩
  case given =>
    rw [exec_groupAlloc_lowest htaken hchip hop harg hstays hfree hheld]
    exact congrArg Host.Outcome.next (if_neg (Nat.not_le_of_lt hg))
  case exhausted =>
    have hfree : 65536 ∉ s.groupsOf c.part := fun hmem => absurd (s.lt_of_mem_groupsOf _ hmem) (Nat.lt_irrefl _)
    exact exec_groupAlloc_lowest htaken hchip hop harg hstays hfree hall

/-- Settles O10: the five fields are written as one kind of write, and each event of a launch is what its row says. -/
theorem contextEvents : Obligations.ContextEvents := by
  have hcommand (s : State) (c : Nat) (w : CtxBits) :
      (.next (s.writeCtx c w) : Host.Outcome State Fault Refusal) = .next (Claims.command s c w) :=
    congrArg Host.Outcome.next (s.writeCtx_eq_command c w)
  exact ⟨fun c w s => hcommand s c { w with go := true }, fun c w s => hcommand s c { w with arm := true },
    fun c w s => hcommand s c { w with cancel := true }, fun c w s => hcommand s c { w with abort := true },
    fun c w s => hcommand s c { w with unbind := true }, exec_launchStart, fun _ _ _ _ _ => rfl, fun _ _ => rfl,
    fun _ _ => rfl⟩

/-- Settles O20: each packet's row executes the oldest taken command under the packet's opcode. -/
theorem resourceCommands : Obligations.ResourceCommands := by
  exact ⟨answers_of_run fun _ => rfl, answers_of_run fun _ => rfl, answers_of_run fun _ => rfl,
    answers_of_run fun _ => rfl, answers_of_run fun _ => rfl, answers_of_run fun _ => rfl⟩

end Sys2Proof.Settled
end

section
/-! SUPPORT. The statements about the schedule counter and about traffic settled. -/

namespace Sys2Proof.Settled

open Sys2Proof.Machine

/-- Settles O12: four rows are an operation by its name, each other row is the branches of its operation, and no row stops the
machine. -/
theorem scheduleEvents : Obligations.ScheduleEvents := by
  refine ⟨fun _ => ?epochCorrection, fun _ _ => ?pulse, fun _ => ?loadArm, fun _ => ?request, fun _ _ _ _ => ?answer,
    fun _ _ _ _ => ?response, fun _ => ?exchangeMissed, fun _ => ?pulseLost, fun _ => ?drift, fun _ _ _ => ?slotStart,
    fun _ _ => ?spanEnd, fun _ _ => ?slip⟩
  case epochCorrection | pulse | response | slotStart => rfl
  case loadArm | request | answer => rfl
  case exchangeMissed | pulseLost | drift => rfl
  case spanEnd | slip => rfl

/-- Settles O13: the rows of a fixed count act on that count alone (R142), and every row is the branches of its operation. -/
theorem trafficEvents : Obligations.TrafficEvents := by
  refine ⟨fun _ _ _ _ => ?echo, fun _ => ?echoWindow, fun _ => ?rateRecovery, fun _ _ => ?flush, fun _ => ?flushDone,
    fun _ _ _ => ?tagTimeout, fun _ => ?tokenRefill, fun _ _ => ?shaperCommit, fun _ => ?queueSample, fun _ _ => ?clearMax⟩
  case echoWindow | rateRecovery | tokenRefill | queueSample => rfl
  case echo | flush | flushDone | tagTimeout => rfl
  case shaperCommit | clearMax => rfl

end Sys2Proof.Settled
end

section
/-! SUPPORT. Bytes of core SRAM after a write of a range, and after writes through the chip window (R164, R168). -/

namespace Sys2Proof.Machine

namespace State

theorem sram_of_mem_eq {s t : State} (h : t.mem = s.mem) (n a : Nat) : t.sram n a = s.sram n a := by
  unfold sram
  rw [h]

/-- Bytes of core SRAM are read from it alone. -/
theorem sramBytes_of_mem_eq {s t : State} (h : t.mem = s.mem) (n a count : Nat) :
    t.sramBytes n a count = s.sramBytes n a count := by
  induction count generalizing a with
  | zero => rfl
  | succ c ih => rw [sramBytes, sramBytes, sram_of_mem_eq h, ih]

/-- New check bits are no bytes of core SRAM. -/
theorem writeSram_mem (s : State) (n a : Nat) (bs : Bytes) : (s.writeSram n a bs).mem = (s.setSramBytes n a bs).mem := rfl

section
variable {s : State} {n m a c : Nat}

/-- A byte before or after those written reads as before. -/
theorem sram_setSramBytes_away {bs : Bytes} (h : s.Inv)
    (away : sramKey m c < sramKey n a ∨ sramKey n a + bs.length ≤ sramKey m c) :
    (s.setSramBytes n a bs).sram m c = s.sram m c := by
  induction bs generalizing s a with
  | nil => rfl
  | cons b bs ih =>
    rw [List.length_cons] at away
    have hnext : sramKey n (a + 1) = sramKey n a + 1 := (Nat.add_assoc ..).symm
    calc ((s.setSram n a b).setSramBytes n (a + 1) bs).sram m c
        = (s.setSram n a b).sram m c := ih ((setSram_keeps (.refl s) n a b).2 h) (by omega)
      _ = s.sram m c := sram_setSram_ne h (by omega)

/-- A range written reads back. -/
theorem sramBytes_setSramBytes_self (h : s.Inv) (bs : Bytes) : (s.setSramBytes n a bs).sramBytes n a bs.length = bs := by
  induction bs generalizing s a with
  | nil => rfl
  | cons b bs ih =>
    have hs : (s.setSram n a b).Inv := (setSram_keeps (.refl s) n a b).2 h
    have hfirst : ((s.setSram n a b).setSramBytes n (a + 1) bs).sram n a = b := by
      rw [sram_setSramBytes_away hs (.inl (Nat.lt_succ_self (sramKey n a)))]
      exact sram_setSram_self h n a b
    rw [List.length_cons, sramBytes, setSramBytes, hfirst, ih hs]

theorem sram_writeSram_away {bs : Bytes} (h : s.Inv)
    (away : sramKey m c < sramKey n a ∨ sramKey n a + bs.length ≤ sramKey m c) :
    (s.writeSram n a bs).sram m c = s.sram m c :=
  (sram_of_mem_eq (writeSram_mem s n a bs) m c).trans (sram_setSramBytes_away h away)

theorem sramBytes_writeSram_self (h : s.Inv) (bs : Bytes) : (s.writeSram n a bs).sramBytes n a bs.length = bs :=
  (sramBytes_of_mem_eq (writeSram_mem s n a bs) ..).trans (sramBytes_setSramBytes_self h bs)

theorem writeWindow_of_code (ha : a < 0x10000) (b : Bytes) :
    s.writeWindow n a b = s.setFld F.RC_STATUS_WIN_REFUSED 1 n := by
  unfold writeWindow
  rw [if_pos ha]

theorem writeWindow_of_data (ha : 0x10000 ≤ a) (hlive : s.liveParam n a = none) (b : Bytes) :
    s.writeWindow n a b = s.writeSram n a b := by
  unfold writeWindow
  rw [if_neg (Nat.not_lt_of_le ha), hlive]

/-- A word written through the window changes no byte of the code region, none outside the word and none of another core. -/
theorem sram_writeWindow_away {b : Bytes} (h : s.Inv) (hb : b.length ≤ 4) (ha : a + 4 ≤ 0x80000) (hc : c < 0x80000)
    (away : m ≠ n ∨ c < a ∨ a + 4 ≤ c ∨ c < 0x10000) : (s.writeWindow n a b).sram m c = s.sram m c := by
  unfold writeWindow
  split
  next => exact sram_of_mem_eq (setFld_mem ..) m c
  next hcode =>
    split
    next => exact sram_of_mem_eq (setFld_mem ..) m c
    next => exact sram_writeSram_away h (by unfold sramKey; omega)

/-- The same of consecutive words. -/
theorem sram_writeWindows_away {words : Nat} {b : Bytes} (h : s.Inv) (ha : a + 4 * words ≤ 0x80000) (hc : c < 0x80000)
    (away : m ≠ n ∨ c < a ∨ a + 4 * words ≤ c ∨ c < 0x10000) : (s.writeWindows n a words b).sram m c = s.sram m c := by
  induction words generalizing s a b with
  | zero => rfl
  | succ w ih =>
    have hone : (s.writeWindow n a (b.take 4)).Inv := (writeWindow_keeps (.refl s) ..).2 h
    calc ((s.writeWindow n a (b.take 4)).writeWindows n (a + 4) w (b.drop 4)).sram m c
        = (s.writeWindow n a (b.take 4)).sram m c := ih hone (by omega) (by omega)
      _ = s.sram m c := sram_writeWindow_away h (List.length_take_le ..) (by omega) hc (by omega)

end

end State

theorem exec_sramWindowWrite (n : Fin 512) (addr : BitVec 19) (words : List (BitVec 32)) (s : State) :
    exec (.sramWindowWrite n addr words) s = .next (s.writeWindows n (addr.toNat / 4 * 4)
      (min words.length (0x20000 - addr.toNat / 4)) (words.flatMap fun w => leBytes 4 w.toNat)) := rfl

/-- One word given is one word written. -/
theorem exec_sramWindowWrite_word (n : Fin 512) (addr : BitVec 19) (w : BitVec 32) (s : State) :
    exec (.sramWindowWrite n addr [w]) s = .next (s.writeWindow n (addr.toNat / 4 * 4) (leBytes 4 w.toNat)) := by
  have hone : min [w].length (0x20000 - addr.toNat / 4) = 1 := by
    have haddr := addr.isLt
    rw [List.length_singleton]
    omega
  rw [exec_sramWindowWrite, hone]
  rfl

end Sys2Proof.Machine
end

section
/-! SUPPORT. Bit errors in the words of core SRAM (R167): what a read counts and raises, and what a write leaves of them. -/

namespace Sys2Proof.Machine

/-- A saturating count fits its width. -/
theorem satAdd_lt (w v n : Nat) : satAdd w v n < 2 ^ w :=
  Nat.lt_of_le_of_lt (Nat.min_le_right ..) (Nat.sub_one_lt (Nat.ne_of_gt (Nat.two_pow_pos w)))

namespace State

/-- Bytes set, before their check bits, leave the errors of core SRAM as they are. -/
theorem setSramBytes_upsets (s : State) (n a : Nat) (bs : Bytes) : (s.setSramBytes n a bs).upsets = s.upsets := by
  induction bs generalizing s a with
  | nil => rfl
  | cons b bs ih => exact ih (s.setSram n a b) (a + 1)

/-- A write of a whole word of core SRAM leaves no error in it. -/
theorem upsetsIn_writeSram_word (s : State) (n : Nat) {a : Nat} (ha : a % 8 = 0) {bs : Bytes} (hbs : bs.length = 8) :
    (s.writeSram n a bs).upsetsIn n a 8 = [] := by
  unfold upsetsIn writeSram clearUpsets
  simp only [setSramBytes_upsets, hbs, List.filter_filter, List.filter_eq_nil_iff]
  intro u _
  simp only [Bool.and_eq_true, Bool.or_eq_true, decide_eq_true_eq]
  rintro ⟨⟨⟨hlow, hhigh⟩, -⟩, hkept⟩
  unfold wordKey at hlow hhigh
  omega

section
variable {s : State} {n a len : Nat}

theorem noteRead_of_no_injection (h : s.injected 1 n = 0) : s.noteRead n a len = s.noteUpsets n a len := by
  unfold noteRead
  rw [h]
  rfl

theorem noteUpsets_of_none (h : s.upsetsIn n a len = []) : s.noteUpsets n a len = s := by
  unfold noteUpsets
  rw [h]
  rfl

theorem noteUpsets_of_correctable {k free : Nat} (h : s.upsetsIn n a len = [(k, ⟨false, free⟩)]) :
    s.noteUpsets n a len = s.bump F.RC_ECC_CORR 1 n := by
  unfold noteUpsets
  rw [h]
  rfl

theorem noteUpsets_of_uncorrectable {k free : Nat} (h : s.upsetsIn n a len = [(k, ⟨true, free⟩)]) :
    s.noteUpsets n a len = (s.bump F.RC_ECC_UNCORR 1 n).report 0x19 n := by
  unfold noteUpsets
  rw [h]
  rfl

/-- With no injection armed, a read is bad when one of its words holds an error that SECDED does not correct. -/
theorem badRead_of_no_injection (h : s.injected 1 n = 0) :
    s.badRead n a len = (s.upsetsIn n a len).any (·.2.both) := by
  unfold badRead badWord
  rw [h, Option.isSome_map, List.isSome_find?]
  exact Bool.or_false _

variable {f : Fld}

/-- A count raised reads back, saturated at its width. -/
theorem fld_bump_self {i j k : Nat} (h : s.Inv) (hw : f.lo + f.w ≤ 64) (m : Nat) :
    (s.bump f m i j k).fld f i j k = satAdd f.w (s.fld f i j k) m :=
  (fld_setFld_self h f _ i j k hw).trans (Nat.mod_eq_of_lt (satAdd_lt ..))

/-- The ECC counters of a core stand elsewhere than the schedule count. -/
theorem count_bump_ecc (h : s.Inv) (hf : f.reg = .RC_ECC) (m : Nat) : (s.bump f m n).count = s.count := by
  refine fld_setFld_ne h ?_
  rw [hf]
  simp only [RegName.addr, RegName.row, F.SCH_COUNT_COUNT]
  omega

/-- A raise is left for the collector after those before it, with the count at the source (R407). -/
theorem report_wires (s : State) (src inst : Nat) :
    (s.report src inst).fc.wires = s.fc.wires ++ [⟨src, inst, s.count, List.replicate 16 0#8, false⟩] := rfl

end

end State

end Sys2Proof.Machine
end

section
/-! SUPPORT. Operands read from an operation's word (R198, R200, R219 to R224), in the terms of its format's fields. -/

namespace Sys2Proof.Machine

theorem bit_eq_one_iff (b : BitVec 1) : b.toNat = 1 ↔ b = 1#1 := BitVec.toNat_inj (y := 1#1)

namespace OpIn

/-- A signed immediate is the one of the field, extended by EXT when the X bit is 1 (R200). -/
theorem signedImm_eq_imm {o : OpIn} {lo w x v : Nat} {b : BitVec 1} (hx : bitsOf o.w x 1 = b.toNat)
    (hv : bitsOf o.w lo w = v) : o.signedImm lo w x = Claims.imm w b v o.ext := by
  unfold signedImm Claims.imm f
  simp only [hx, hv, bit_eq_one_iff]

variable (s : State) (n e : Nat)

/-- The second operand of a scalar operation, from the fields of format R (R224). -/
theorem operand2_eq_second (f : RForm) : operand2 ⟨s, n, f.bits, e⟩ = Claims.second s n e f := by
  have himm : immSel ⟨s, n, f.bits, e⟩ = true ↔ f.i = 1#1 := by
    rw [← bit_eq_one_iff, ← f.bitsOf_i]
    exact beq_iff_eq
  unfold operand2 Claims.second
  rw [signedImm_eq_imm f.bitsOf_x f.bitsOf_low]
  simp only [himm, rb, OpIn.f, RForm.bitsOf_rb]

/-- The address of a load or store, from the fields of format M (R219). -/
theorem address_eq_place (f : MForm) : address ⟨s, n, f.bits, e⟩ (2 ^ f.size.toNat) = Claims.place s n e f := by
  unfold address Claims.place
  rw [signedImm_eq_imm f.bitsOf_x f.bitsOf_ofs]
  simp only [OpIn.f, MForm.bitsOf_a]

theorem size_eq (f : MForm) : size ⟨s, n, f.bits, e⟩ = 2 ^ f.size.toNat := congrArg (2 ^ ·) f.bitsOf_size

/-- N of SWAIT and SREL, from the fields of their format (R221, R222). -/
theorem tileCount_eq (f : WaitForm) : tileCount ⟨s, n, f.bits, e⟩ =
    if f.i = 1#1 then f.imm.toNat + (if f.x = 1#1 then e * 2 ^ 13 else 0) else s.sreg n f.sb.toNat := by
  have himm : unsignedImm ⟨s, n, f.bits, e⟩ 0 13 13 = f.imm.toNat + if f.x = 1#1 then e * 2 ^ 13 else 0 := by
    unfold unsignedImm
    simp only [OpIn.f, WaitForm.bitsOf_x, WaitForm.bitsOf_imm, bit_eq_one_iff]
    split <;> rfl
  unfold tileCount
  simp only [himm, OpIn.f, WaitForm.bitsOf_i, WaitForm.bitsOf_sb, bit_eq_one_iff]

end OpIn

section
variable (s : State) (n e : Nat)

/-- A load reads the words at its address, and goes on or halts the core as their check comes out (R167, R219). -/
theorem loadOp_eq_loadOut (f : MForm) (d : Bytes → Dst) :
    loadOp ⟨s, n, f.bits, e⟩ d = Claims.loadOut s n (Claims.place s n e f) (2 ^ f.size.toNat) d := by
  unfold loadOp Claims.loadOut
  rw [OpIn.size_eq, OpIn.address_eq_place]

theorem storeOp_eq_storeOut (f : MForm) (bs : Bytes) :
    storeOp ⟨s, n, f.bits, e⟩ bs = Claims.storeOut s n (Claims.place s n e f) bs := by
  unfold storeOp Claims.storeOut
  rw [OpIn.size_eq, OpIn.address_eq_place]

/-- A scalar result computed on RA and the second operand (R224). -/
theorem scalarOp_eq_scalarOut (f : RForm) (w : Nat) (g : Nat → Nat → Nat) :
    scalarOp ⟨s, n, f.bits, e⟩ w g = Claims.scalarOut w g s n e f := by
  unfold scalarOp Claims.scalarOut
  rw [OpIn.operand2_eq_second]
  simp only [OpIn.rd, OpIn.ra, OpIn.f, RForm.bitsOf_rd, RForm.bitsOf_ra]

end

end Sys2Proof.Machine
end

section
/-! SUPPORT. A scalar result from its issue to its write cycle (R173): what its core has in flight, and what the write changes. -/

namespace Sys2Proof.Machine

/-- On a core that issues, an operation that meets no fault has its effect. -/
theorem IssuesAs.exec_eq {F : Type} {i : IssueAt → F → Instr} {opcode : Nat} {bits : F → Nat}
    {eff : State → Nat → Nat → F → State} (h : IssuesAs i opcode bits eff) {p : IssueAt} {f : F} {s : State}
    (hissues : s.issues p.core) (hfault : s.faultAt p opcode (bits f) = none) :
    exec (i p f) s = .next ((eff s p.core p.ext.toNat f).tagSlot p.core (s.core p.core).writes.length (slotNum p.slot)) := by
  unfold State.issues at hissues
  rw [h, if_pos hissues, hfault]

theorem sadd_issuesAs : IssuesAs .sadd 0x30 RForm.bits (Claims.scalarOut 1 (· + ·)) :=
  issuesAs_of (fun _ _ _ => rfl) rfl fun s n e f => scalarOp_eq_scalarOut s n e f 1 (· + ·)

/-- The scalar registers of a core stand at offsets of their own, apart from its cycle too. -/
theorem scalar_addr_ne {n j k : Nat} (h : j ≠ k) : RegName.addr .RC_S n j ≠ RegName.addr .RC_S n k := by
  simp only [RegName.addr, RegName.row]
  omega

theorem scalar_addr_ne_cycle (n k : Nat) : RegName.addr .RC_S n k ≠ RegName.addr .RC_CYCLE n := by
  simp only [RegName.addr, RegName.row]
  omega

namespace State

/-- The record of a core with something in flight reads back as it was put. -/
theorem core_setCore_of_writes {c : CoreX} (h : c.writes ≠ []) (s : State) (n : Nat) : (s.setCore n c).core n = c := by
  have hc : c ≠ {} := fun hc => h (congrArg CoreX.writes hc)
  unfold core setCore readKey writeKey
  rw [if_neg hc, lookupKey_insertKey_self]
  rfl

variable (s : State) (n : Nat)

theorem core_later (w : Nat) (d : Dst) : (s.later n w d).core n =
    { s.core n with writes := (s.core n).writes ++ [⟨s.cycle n + w, s.fld F.RC_PC_PC n, d, 0⟩] } :=
  core_setCore_of_writes (List.append_ne_nil_of_right_ne_nil _ (List.cons_ne_nil _ _)) s n

/-- A write issued joins what its core has in flight, under the slot of its operation. -/
theorem core_tagSlot_later (w : Nat) (d : Dst) (slot : Nat) :
    ((s.later n w d).tagSlot n (s.core n).writes.length slot).core n =
      { s.core n with writes := (s.core n).writes ++ [⟨s.cycle n + w, s.fld F.RC_PC_PC n, d, slot⟩] } := by
  unfold tagSlot
  rw [core_later, core_setCore_of_writes (by simp)]
  simp

variable {s n}

/-- When all a core has in flight is one write due in the next cycle, the cycle makes it. -/
theorem tickCore_of_one_write {w : PendWrite} (hstores : (s.core n).stores = []) (hwrites : (s.core n).writes = [w])
    (hdue : w.due = s.cycle n + 1) : s.tickCore n =
      ((s.setFld F.RC_CYCLE_CYCLE (s.cycle n + 1) n).setCore n { s.core n with writes := [], stores := [] }).makeWrite n
        w.dst := by
  have hclash : clash [w] w 0 = false := rfl
  unfold tickCore
  simp [hstores, hwrites, hdue, hclash]

section
variable {k v bundle slot : Nat} (hs : s.Inv) (hstores : (s.core n).stores = [])
  (hwrites : (s.core n).writes = [⟨s.cycle n + 1, bundle, .scalar k v, slot⟩])
include hs hstores hwrites

/-- A scalar register holds its result in the cycle of the write, and every other one what it held. -/
theorem sreg_tickCore_of_scalar_write (j : Nat) :
    (s.tickCore n).sreg n j = if j = k then v % 2 ^ 64 else s.sreg n j := by
  let ticked := (s.setFld F.RC_CYCLE_CYCLE (s.cycle n + 1) n).setCore n { s.core n with writes := [], stores := [] }
  have hticked : ticked.Inv := (setCore_keeps (setFld_keeps (.refl s) ..) ..).2 hs
  have hkept : ticked.sreg n j = s.sreg n j := rd_wr_ne hs (scalar_addr_ne_cycle n j)
  rw [tickCore_of_one_write hstores hwrites rfl]
  change (ticked.wr .RC_S v n k).rd .RC_S n j = _
  split
  next h => rw [h, rd_wr_self hticked]
  next h => exact (rd_wr_ne hticked (scalar_addr_ne h)).trans hkept

omit hs in
theorem mem_tickCore_of_scalar_write : (s.tickCore n).mem = s.mem := by
  rw [tickCore_of_one_write hstores hwrites rfl]
  rfl

end

/-- A scalar result of write cycle 1, issued with nothing else in flight, stands in RD one cycle on; every other scalar
register and core SRAM are as they were. -/
theorem tickCore_of_scalarOut (hs : s.Inv) (hwrites : (s.core n).writes = []) (hstores : (s.core n).stores = [])
    (g : Nat → Nat → Nat) (e slot : Nat) (f : RForm) {t : State}
    (ht : t = (Claims.scalarOut 1 g s n e f).tagSlot n (s.core n).writes.length slot) :
    (∀ j, (t.tickCore n).sreg n j =
      if j = f.rd.toNat then g (s.sreg n f.ra.toNat) (Claims.second s n e f) % 2 ^ 64 else s.sreg n j)
    ∧ (t.tickCore n).mem = s.mem := by
  subst ht
  have hflight := s.core_tagSlot_later n 1
    (.scalar f.rd.toNat (g (s.sreg n f.ra.toNat) (Claims.second s n e f) % 2 ^ 64)) slot
  have htstores := (congrArg CoreX.stores hflight).trans hstores
  have htwrites := (congrArg CoreX.writes hflight).trans (congrArg (· ++ _) hwrites)
  have hreg := sreg_tickCore_of_scalar_write ((setCore_keeps (setCore_keeps (.refl s) ..) ..).2 hs) htstores htwrites
  refine ⟨fun j => ?_, mem_tickCore_of_scalar_write htstores htwrites⟩
  rw [← Nat.mod_mod (g _ _)]
  exact hreg j

end State

end Sys2Proof.Machine
end

section
/-! SUPPORT. Rows of the cores whose effect stays in the records of the cores (R166, R173). -/

namespace Sys2Proof.Machine

/-- An operation whose effect differs from the state it read in the records of the cores alone. -/
def OpDef.InCores (d : OpDef) : Prop := ∀ o : OpIn, ∃ cs, d.effect o = { o.s with cores := cs }

/-- A row that issues one operation stays in the records of the cores when the operation's effect does. -/
theorem onlyCores_of_inCores {F : Type} {i : IssueAt → F → Instr} {opcode : Nat} {bits : F → Nat} {d : OpDef}
    (hx : ∀ p f s, exec (i p f) s = .next (s.issueOne p opcode (bits f))) (hd : opOf opcode = some d)
    (he : d.InCores) : OnlyCores i opcode bits :=
  onlyCores_of (issuesAs_of hx hd fun _ _ _ _ => rfl) fun _ _ _ _ => he _

theorem State.later_inCores (s : State) (n w : Nat) (d : Dst) : ∃ cs, s.later n w d = { s with cores := cs } := ⟨_, rfl⟩

/-- An operation without overflow or limited conversions leaves the flags of its context. -/
theorem State.noteOp_none (s : State) (n : Nat) : s.noteOp n false 0 = s := by
  unfold State.noteOp
  cases s.runCtx n <;> rfl

/-- A register result that reports no overflow is a write in flight and nothing else. -/
theorem vectorResult_of_no_overflow (o : OpIn) (w : Nat) (bs : Bytes) :
    vectorResult o w (bs, false) = o.s.later o.n w (.vec o.vd (maskLanes o.lanes bs)) := State.noteOp_none _ _

theorem vectorResult_inCores (o : OpIn) (w : Nat) (bs : Bytes) :
    ∃ cs, vectorResult o w (bs, false) = { o.s with cores := cs } := by
  rw [vectorResult_of_no_overflow]
  exact State.later_inCores ..

theorem opSrel_inCores : opSrel.InCores := by
  intro o
  simp only [opSrel]
  split
  · exact State.later_inCores ..
  · exact ⟨_, rfl⟩

end Sys2Proof.Machine
end

section
/-! SUPPORT. A drain point that a row of its own issues (R176, R221, R223). -/

namespace Sys2Proof.Machine

theorem exec_swait (p : IssueAt) (f : WaitForm) (s : State) : exec (.swait p f) s = .next (s.drainOne p 0x25 f.bits) := rfl

theorem exec_endOp (p : IssueAt) (f : ZForm) (s : State) : exec (.endOp p f) s = .next (s.drainOne p 0x2F f.bits) := rfl

/-- A drain point that issues has its effect once its core no longer waits: END ends the program, SWAIT does nothing more. -/
theorem State.drainOne_eq_drainPoint (s : State) (p : IssueAt) {opcode : Nat} (w : Nat) {g : State → State}
    (hg : ∀ t : State, (if opcode = 0x2F then t.endProgram p.core (s.fld F.RC_PC_PC p.core) else t) = g t) :
    s.drainOne p opcode w = Claims.drainPoint opcode w g p s := by
  unfold State.drainOne State.drainRow Claims.drainPoint State.faultAt
  dsimp only
  cases s.rowFault p.core p.ext.toNat ⟨slotNum p.slot, opcode, w⟩ with
  | none => simp only [hg]
  | some r => rfl

end Sys2Proof.Machine
end

section
/-! SUPPORT. The register file of a core as the chip window shows it (R191, R400). -/

namespace Sys2Proof.Machine

theorem isRegfile_iff {r : RegName} : isRegfile r = true ↔ r = .RC_S ∨ r = .RC_A ∨ r = .RC_P ∨ r = .RC_V := by
  simp [isRegfile]

/-- A write of a register of the register file is one by the file's own rule, whichever command brings it. -/
theorem State.writeReg_regfile (s : State) {r : RegName} (hr : isRegfile r = true) (v i j k : Nat) :
    s.writeReg r v i j k = s.writeRegfile r v i j k := by
  rcases isRegfile_iff.1 hr with rfl | rfl | rfl | rfl <;> rfl

theorem exec_rcRegfileWrite {n : Fin 512} {off : BitVec 16} {r : RegName} {i j k : Nat}
    (h : regAt (0x2000000 + n * 0x10000 + off.toNat) = some (r, i, j, k)) (hr : isRegfile r = true) (v : BitVec 64)
    (s : State) : exec (.rcRegfileWrite n off v) s = .next (s.writeRegfile r v.toNat i j k) := by
  change execRcRegfileWrite n off v s = _
  unfold execRcRegfileWrite
  rw [h]
  exact congrArg Host.Outcome.next (if_pos hr)

/-- Elsewhere than in IDLE and HALTED, or LOCKED, a core shows its register file as 0. -/
theorem State.readReg_regfile_hidden (s : State) {r : RegName} (hr : isRegfile r = true) {i : Nat}
    (hidden : ¬ ((s.coreState i = 1 ∨ s.coreState i = 5) ∧ s.debugState i ≠ 0)) (j k : Nat) : s.readReg r i j k = 0 := by
  unfold State.readReg
  rw [if_pos hr, if_neg hidden]

end Sys2Proof.Machine
end

section
/-! SUPPORT. The statements about the reduction cores settled. -/

namespace Sys2Proof.Settled

open Sys2Proof.Machine

/-- Settles O4: each row issues its operation, whose operands are the fields of its format. -/
theorem memoryAndStreamResults : Obligations.MemoryAndStreamResults := by
  refine ⟨issuesAs_of (fun _ _ _ => rfl) rfl fun s n e f => ?ldV, issuesAs_of (fun _ _ _ => rfl) rfl fun s n e f => ?ldS,
    issuesAs_of (fun _ _ _ => rfl) rfl fun s n e f => ?stV, issuesAs_of (fun _ _ _ => rfl) rfl fun s n e f => ?stS,
    issuesAs_of (fun _ _ _ => rfl) rfl fun s n e f => ?sstart, issuesAs_of (fun _ _ _ => rfl) rfl fun s n e f => ?srel⟩
  case ldV => simp only [opLdV, loadOp_eq_loadOut, OpIn.vd, OpIn.f, MForm.bitsOf_r]
  case ldS => simp only [opLdS, loadOp_eq_loadOut, OpIn.f, MForm.bitsOf_scalar]
  case stV => simp only [opStV, storeOp_eq_storeOut, OpIn.size_eq, OpIn.vd, OpIn.f, MForm.bitsOf_r]
  case stS => simp only [opStS, storeOp_eq_storeOut, OpIn.size_eq, OpIn.f, MForm.bitsOf_scalar]
  case sstart => rfl
  case srel => simp only [opSrel, OpIn.tileCount_eq, OpIn.k, OpIn.f, WaitForm.bitsOf_k]

/-- Settles O40: the words written lie in one run of one core, and of the code region none is written. -/
theorem sramWindow : Obligations.SramWindow := by
  refine ⟨fun n m addr a words s t hs hexec away => ?frame, fun n addr w s hs haddr hlive => ?data,
    fun n addr w s haddr => ?code⟩
  case frame =>
    have haddr := addr.isLt
    have ha := a.isLt
    have hmn : (m : Nat) ≠ n ↔ m ≠ n := Fin.val_ne_iff
    rw [exec_sramWindowWrite] at hexec
    cases hexec
    exact State.sram_writeWindows_away hs (by omega) ha (by omega)
  case data =>
    have hword : (leBytes 4 w.toNat).length = 4 := length_leBytes 4 w.toNat
    have hback := State.sramBytes_writeSram_self (n := n) (a := addr.toNat / 4 * 4) hs (leBytes 4 w.toNat)
    rw [hword] at hback
    refine ⟨_, exec_sramWindowWrite_word n addr w s, ?_⟩
    rw [State.writeWindow_of_data (by omega) hlive, hback, leNat_leBytes]
    exact Nat.mod_eq_of_lt w.isLt
  case code => rw [exec_sramWindowWrite_word, State.writeWindow_of_code (by omega)]

/-- Settles O57: with no injection armed the words' own errors decide; a whole word written takes its errors away. -/
theorem sramErrors : Obligations.SramErrors := by
  intro s n a len hs hinj
  have hnote : s.noteRead n a len = s.noteUpsets n a len := State.noteRead_of_no_injection hinj
  have hbad := State.badRead_of_no_injection (a := a) (len := len) hinj
  refine ⟨fun hnone => ?clean, fun k free hone => ?correctable, fun k free hone => ?uncorrectable,
    fun bs ha _ hbs => s.upsetsIn_writeSram_word n ha hbs⟩
  case clean =>
    rw [hnote, hbad, hnone]
    exact ⟨State.noteUpsets_of_none hnone, rfl⟩
  case correctable =>
    rw [hnote, hbad, hone, State.noteUpsets_of_correctable hone]
    exact ⟨rfl, State.fld_bump_self hs (by decide) 1, State.fld_setFld_apart hs rfl (by decide) (by decide), rfl⟩
  case uncorrectable =>
    rw [hnote, hbad, hone, State.noteUpsets_of_uncorrectable hone]
    refine ⟨rfl, State.fld_bump_self hs (by decide) 1, State.fld_setFld_apart hs rfl (by decide) (by decide), ?_⟩
    rw [State.report_wires, State.bump_fc, State.count_bump_ecc hs rfl]

/-- Settles O42: ADD puts one write in flight, due in the next cycle, and that cycle makes it and nothing else. -/
theorem scalarWriteLands : Obligations.ScalarWriteLands := by
  intro p f s hs hissues hfault hwrites hstores
  obtain ⟨hreg, hmem⟩ := State.tickCore_of_scalarOut hs hwrites hstores (· + ·) p.ext.toNat (slotNum p.slot) f rfl
  exact ⟨_, sadd_issuesAs.exec_eq hissues hfault, (hreg _).trans (if_pos rfl), fun k _ hk => (hreg k).trans (if_neg hk),
    hmem⟩

/-- Settles O35: the reset state lists digests alone, in rising order and none of them 0. -/
theorem resetInv : Obligations.ResetInv := State.reset_inv

/-- Settles O43: vector and scalar results, stores and releases are all kept in the record of the core until their cycle. -/
theorem operationFrame : Obligations.OperationFrame := by
  refine ⟨?iadd, ?isub, ?imin, ?imax, ?vand, ?vor, ?vxor, ?mov, ?bcast, ?stV, ?stS, ?srel, ?sadd, ?ssub, ?smul, ?sand, ?sor,
    ?sxor, ?shl, ?shr, ?sra, ?movi, ?aadd, ?mova, ?movs, ?pset⟩
  case iadd | isub | imin | imax | vand | vor | vxor | mov | bcast =>
    exact onlyCores_of_inCores (fun _ _ _ => rfl) rfl fun o => vectorResult_inCores o 1 _
  case stV | stS => exact onlyCores_of_inCores (fun _ _ _ => rfl) rfl fun _ => ⟨_, rfl⟩
  case srel => exact onlyCores_of_inCores (fun _ _ _ => rfl) rfl opSrel_inCores
  case sadd | ssub | smul | sand | sor | sxor | shl | shr | sra | movi | aadd | mova | movs | pset =>
    exact onlyCores_of_inCores (fun _ _ _ => rfl) rfl fun _ => State.later_inCores ..

/-- Settles O7: SWAIT and END are the one rule of a drain point, whose effect is theirs; each other command is its
definition's own branches (an operation on a core out of turn and END under STEP are the model's choice: log entries 12, 29,
30 and 78). -/
theorem coreControl : Obligations.CoreControl := by
  refine ⟨fun _ _ => ?start, fun _ _ => ?bundle, fun _ _ => ?drainPoint, fun p f s => ?swait, fun p f s => ?endOp,
    fun _ _ => ?haltReq, fun _ _ => ?halt, fun _ _ => ?resume, fun _ _ => ?step⟩
  case start | bundle | drainPoint | haltReq | halt | resume | step => rfl
  case swait => rw [exec_swait, State.drainOne_eq_drainPoint s p f.bits fun t => if_neg (by decide)]
  case endOp => rw [exec_endOp, State.drainOne_eq_drainPoint s p f.bits fun t => if_pos rfl]

/-- Settles O39: both commands write by the one rule of the register file, and a read shows it in IDLE and HALTED alone. -/
theorem registerFileGate : Obligations.RegisterFileGate := by
  refine ⟨fun n off v r i j k s hat hr => ?fileWrite, fun off v r i j k s hat hr => ?windowWrite,
    fun s r i j k hr hstate => ?read⟩
  case fileWrite =>
    rw [exec_rcRegfileWrite hat hr]
    rfl
  case windowWrite =>
    rw [exec_registerWrite hat, State.writeReg_regfile s hr]
    rfl
  case read => exact State.readReg_regfile_hidden s hr (by omega) j k

end Sys2Proof.Settled
end

section
/-! SUPPORT. Results of vector operations (R172, R204 to R206), from the fields of format V. -/

namespace Sys2Proof.Machine

section
variable (s : State) (n e : Nat) (f : VForm)

namespace OpIn

theorem vd_eq : vd ⟨s, n, f.bits, e⟩ = f.vd.toNat := f.bitsOf_vd

theorem a_eq : a ⟨s, n, f.bits, e⟩ = s.vreg n f.va.toNat := congrArg (s.vreg n) f.bitsOf_va

theorem b_eq : b ⟨s, n, f.bits, e⟩ = s.vreg n f.vb.toNat := congrArg (s.vreg n) f.bitsOf_vb

theorem lanes_eq : lanes ⟨s, n, f.bits, e⟩ = s.preg n f.pm.toNat := congrArg (s.preg n) f.bitsOf_pm

theorem code_eq : code ⟨s, n, f.bits, e⟩ = f.fn.toNat % 16 := f.bitsOf_code

end OpIn

/-- A register result writes the lanes of PM of VD (R172). -/
theorem vectorResult_eq_vecOut (w : Nat) (r : Bytes × Bool) :
    vectorResult ⟨s, n, f.bits, e⟩ w r = Claims.vecOut s n w f r := by
  unfold vectorResult Claims.vecOut
  rw [OpIn.vd_eq, OpIn.lanes_eq]

/-- A float operation of two operands computes on the elements of VA and VB (R205). -/
theorem floatOp_eq_vecOut (fm : Fmt) (w : Nat) (g : FV → FV → FV) (reports : Bool) :
    floatOp ⟨s, n, f.bits, e⟩ fm w g reports = Claims.vecOut s n w f
      (Claims.floats fm (s.preg n f.pm.toNat) g reports (s.vreg n f.va.toNat) (s.vreg n f.vb.toNat)) := by
  unfold floatOp Claims.floats
  rw [vectorResult_eq_vecOut, OpIn.lanes_eq, OpIn.a_eq, OpIn.b_eq]

/-- FMIN and FMAX choose between the elements of VA and VB in the format of the code, and report no overflow (R97, R205). -/
theorem minMaxOp_eq_vecOut (isMax : Bool) :
    minMaxOp ⟨s, n, f.bits, e⟩ isMax = Claims.vecOut s n 2 f
      (elementwise (fmtOf (f.fn.toNat % 16)) (s.preg n f.pm.toNat) fun i =>
        ⟨minMax (fmtOf (f.fn.toNat % 16)) isMax (elemAt (fmtOf (f.fn.toNat % 16)) (s.vreg n f.va.toNat) i)
          (elemAt (fmtOf (f.fn.toNat % 16)) (s.vreg n f.vb.toNat) i), false⟩) := by
  unfold minMaxOp
  rw [vectorResult_eq_vecOut, OpIn.lanes_eq, OpIn.a_eq, OpIn.b_eq, OpIn.code_eq]

theorem intWidth_eq : intWidth ⟨s, n, f.bits, e⟩ = 8 * 2 ^ (f.fn.toNat % 4) := congrArg (8 * 2 ^ ·) f.bitsOf_width

/-- The comparison of IMIN and IMAX is signed when bit 2 of FN is 1 (R206). -/
theorem intLt_eq (x y : Nat) : intLt ⟨s, n, f.bits, e⟩ x y =
    if f.fn.toNat / 4 % 2 = 1 then
      decide (signedOf (8 * 2 ^ (f.fn.toNat % 4)) x < signedOf (8 * 2 ^ (f.fn.toNat % 4)) y)
    else decide (x < y) := by
  unfold intLt OpIn.f
  rw [intWidth_eq, f.bitsOf_signed]

/-- On elements of whole bytes, the elements of 256 bytes are those of 2,048 bits (R171, R206). -/
theorem intOp_eq_vecOut {w : Nat} (hw : 8 ∣ w) (g : Nat → Nat → Nat) :
    intOp ⟨s, n, f.bits, e⟩ w g =
      Claims.vecOut s n 1 f (Claims.elems w g (s.vreg n f.va.toNat) (s.vreg n f.vb.toNat), false) := by
  have hcount : 256 / (w / 8) = 2048 / w := by
    obtain ⟨k, rfl⟩ := hw
    rw [Nat.mul_div_cancel_left k (by decide), Nat.mul_div_mul_left 256 k (m := 8) (by decide)]
  unfold intOp Claims.elems
  rw [vectorResult_eq_vecOut, OpIn.a_eq, OpIn.b_eq, hcount]

end

end Sys2Proof.Machine
end

section
/-! SUPPORT. Scalar rows and branch rows of the cores (R224, R225): what a row does, from what its operation computes. -/

namespace Sys2Proof.Machine

/-- A row whose operation is a scalar one combines RA and the second operand (R224). -/
theorem scalarOp_issuesAs {i : IssueAt → RForm → Instr} {opcode w : Nat} {d : OpDef} {g : Nat → Nat → Nat}
    (hx : ∀ p f s, exec (i p f) s = .next (s.issueOne p opcode f.bits)) (hd : opOf opcode = some d)
    (he : ∀ o, d.effect o = scalarOp o w g) : IssuesAs i opcode RForm.bits (Claims.scalarOut w g) :=
  issuesAs_of hx hd fun s n e f => (he _).trans (scalarOp_eq_scalarOut s n e f w g)

theorem exec_br (p : IssueAt) (f : BForm) (s : State) : exec (.br p f) s = .next (s.branchOne p 0x3E f.bits) := rfl

theorem exec_loop (p : IssueAt) (f : BForm) (s : State) : exec (.loop p f) s = .next (s.branchOne p 0x3F f.bits) := rfl

section
variable (s : State) (n e : Nat) (f : BForm)

theorem branchOf_br : branchOf 0x3E ⟨s, n, f.bits, e⟩ =
    if brTaken f.cond.toNat (s.sreg n f.ra.toNat) then some f.target.toNat else none := by
  simp [branchOf, OpIn.f]

/-- LOOP goes to its target unless RA is 1 (R225). -/
theorem branchOf_loop : branchOf 0x3F ⟨s, n, f.bits, e⟩ =
    if decide (s.sreg n f.ra.toNat ≠ 1) then some f.target.toNat else none := by
  simp [branchOf, OpIn.f]

theorem opLoop_effect : opLoop.effect ⟨s, n, f.bits, e⟩ =
    s.later n 1 (.scalar f.ra.toNat ((s.sreg n f.ra.toNat + 2 ^ 64 - 1) % 2 ^ 64)) := by
  simp only [opLoop, OpIn.rd, OpIn.f, BForm.bitsOf_ra]

end

namespace State

section
variable {s : State} {p : IssueAt} {opcode w : Nat}

theorem issueOne_of_fault (hissues : s.issues p.core) {r : Nat × Nat × Nat} (hfault : s.faultAt p opcode w = some r) :
    s.issueOne p opcode w = s.issueFault p.core ⟨[⟨slotNum p.slot, opcode, w⟩], 0, p.ext.toNat, 6⟩ r := by
  unfold issues at hissues
  unfold faultAt at hfault
  simp only [issueOne, if_pos hissues, hfault]

theorem issueOne_of_no_fault (hissues : s.issues p.core) (hfault : s.faultAt p opcode w = none) {d : OpDef}
    (hd : opOf opcode = some d) : s.issueOne p opcode w =
      (d.effect ⟨s, p.core, w, p.ext.toNat⟩).tagSlot p.core (s.core p.core).writes.length (slotNum p.slot) := by
  unfold issues at hissues
  unfold faultAt at hfault
  simp only [issueOne, if_pos hissues, hfault, issueOp, hd]

theorem branchOne_of_not_issues (h : ¬ s.issues p.core) : s.branchOne p opcode w = s := by
  unfold issues at h
  unfold branchOne issueOne
  rw [if_neg h, if_neg fun hall => h ⟨hall.1, hall.2.1⟩]

/-- Once its operation has issued, a branch that does not halt the core has the next bundle at its target two cycles on when it
is taken, and the one that follows one cycle on when it is not (R225). -/
theorem branchOne_of_issues (hissues : s.issues p.core) {taken : Bool} {target : Nat}
    (hto : branchOf opcode ⟨s, p.core, w, p.ext.toNat⟩ = if taken then some target else none) :
    s.branchOne p opcode w =
      let n : Nat := p.core
      let t := s.issueOne p opcode w
      if (t.core n).halting ≠ none then t
      else if taken then ((t.setCore n { t.core n with pcOver := false }).setFld F.RC_PC_PC target n).runCycles n 2
      else t.runCycles n 1 := by
  obtain ⟨hrun, hcertain⟩ := hissues
  unfold branchOne
  generalize s.issueOne p opcode w = t
  dsimp only
  rw [hto]
  cases hhalt : (t.core p.core).halting with
  | some r =>
    rw [if_neg fun h => nomatch h.2.2]
    exact (if_pos (Option.some_ne_none r)).symm
  | none =>
    rw [if_pos ⟨hrun, hcertain, rfl⟩, if_neg (not_not_intro rfl)]
    cases taken <;> rfl

end

/-- A branch row does what its operation's effect and target are, on a core that issues it without a fault. -/
theorem branchOne_eq_branch {opcode : Nat} {d : OpDef} {taken : State → Nat → BForm → Bool}
    {eff : State → Nat → BForm → State} (hd : opOf opcode = some d)
    (he : ∀ s n e f, d.effect ⟨s, n, BForm.bits f, e⟩ = eff s n f)
    (hto : ∀ s n e f, branchOf opcode ⟨s, n, BForm.bits f, e⟩ = if taken s n f then some f.target.toNat else none)
    (p : IssueAt) (f : BForm) (s : State) : s.branchOne p opcode f.bits = Claims.branch opcode taken eff p f s := by
  unfold Claims.branch
  by_cases hissues : s.issues p.core
  case neg => exact (branchOne_of_not_issues hissues).trans (if_neg hissues).symm
  case pos =>
    refine (branchOne_of_issues hissues (hto ..)).trans (Eq.trans ?_ (if_pos hissues).symm)
    cases hfault : s.faultAt p opcode f.bits with
    | some r => rw [issueOne_of_fault hissues hfault]
    | none => rw [issueOne_of_no_fault hissues hfault hd, he]

end State

end Sys2Proof.Machine
end

section
/-! SUPPORT. The statements about the core instruction set settled. -/

namespace Sys2Proof.Settled

open Sys2Proof.Machine

/-- Settles O1: each row is the one float operation of its definition, on the registers its fields name; FDIV and FSQRT occupy
the divide unit besides. -/
theorem floatResults : Obligations.FloatResults := by
  refine ⟨issuesAs_of (fun _ _ _ => rfl) rfl fun s n e f => ?fadd, issuesAs_of (fun _ _ _ => rfl) rfl fun s n e f => ?fsub,
    issuesAs_of (fun _ _ _ => rfl) rfl fun s n e f => ?fmul, issuesAs_of (fun _ _ _ => rfl) rfl fun s n e f => ?fdiv,
    issuesAs_of (fun _ _ _ => rfl) rfl fun s n e f => ?fsqrt, issuesAs_of (fun _ _ _ => rfl) rfl fun s n e f => ?fmin,
    issuesAs_of (fun _ _ _ => rfl) rfl fun s n e f => ?fmax⟩
  case fadd => simp only [opFadd, floatOp_eq_vecOut, OpIn.code_eq]
  case fsub => simp only [opFsub, floatOp_eq_vecOut, OpIn.code_eq]
  case fmul => simp only [opFmul, floatOp_eq_vecOut]
  case fdiv => simp only [opFdiv, floatOp_eq_vecOut]
  case fsqrt => simp only [opFsqrt, floatOp_eq_vecOut]
  case fmin => exact minMaxOp_eq_vecOut s n e f false
  case fmax => exact minMaxOp_eq_vecOut s n e f true

/-- Settles O2: each row but BCAST is the one integer operation of its definition, on elements of whole bytes; BCAST repeats the
low word of its register in every lane. -/
theorem integerResults : Obligations.IntegerResults := by
  refine ⟨issuesAs_of (fun _ _ _ => rfl) rfl fun s n e f => ?iadd, issuesAs_of (fun _ _ _ => rfl) rfl fun s n e f => ?isub,
    issuesAs_of (fun _ _ _ => rfl) rfl fun s n e f => ?imin, issuesAs_of (fun _ _ _ => rfl) rfl fun s n e f => ?imax,
    issuesAs_of (fun _ _ _ => rfl) rfl fun s n e f => ?vand, issuesAs_of (fun _ _ _ => rfl) rfl fun s n e f => ?vor,
    issuesAs_of (fun _ _ _ => rfl) rfl fun s n e f => ?vxor, issuesAs_of (fun _ _ _ => rfl) rfl fun s n e f => ?mov,
    issuesAs_of (fun _ _ _ => rfl) rfl fun s n e f => ?bcast⟩
  case iadd => simp only [opIadd, intWidth_eq, intOp_eq_vecOut, Nat.dvd_mul_right]
  case isub => simp only [opIsub, intWidth_eq, intOp_eq_vecOut, Nat.dvd_mul_right]
  case imin => simp only [opImin, intWidth_eq, intLt_eq, intOp_eq_vecOut, Nat.dvd_mul_right]
  case imax => simp only [opImax, intWidth_eq, intLt_eq, intOp_eq_vecOut, Nat.dvd_mul_right]
  case vand | vor | vxor | mov =>
    rw [← intOp_eq_vecOut s n e f (by decide)]
    rfl
  case bcast => simp only [opBcast, vectorResult_eq_vecOut, OpIn.f, VForm.bitsOf_source]

/-- Settles O5: each row is the one scalar operation of its definition. -/
theorem scalarResults : Obligations.ScalarResults := by
  refine ⟨sadd_issuesAs, ?ssub, ?smul, ?sand, ?sor, ?sxor, ?shl, ?shr, ?sra⟩
  case ssub | smul | sand | sor | sxor | shl | shr | sra =>
    exact scalarOp_issuesAs (fun _ _ _ => rfl) rfl fun _ => rfl

/-- Settles O6: each move writes one register that its fields name, and BR and LOOP are the one rule of a branch (that a core
out of turn stays as it is is the model's choice, log entry 12). -/
theorem moveAndBranchResults : Obligations.MoveAndBranchResults := by
  refine ⟨issuesAs_of (fun _ _ _ => rfl) rfl fun s n e f => ?movi, issuesAs_of (fun _ _ _ => rfl) rfl fun s n e f => ?aadd,
    issuesAs_of (fun _ _ _ => rfl) rfl fun s n e f => ?mova, issuesAs_of (fun _ _ _ => rfl) rfl fun s n e f => ?movs,
    issuesAs_of (fun _ _ _ => rfl) rfl fun s n e f => ?pset, fun p f s => ?br, fun p f s => ?loop⟩
  case movi =>
    have himm : OpIn.signedImm ⟨s, n, f.bits, e⟩ 0 20 20 = Claims.imm 20 f.x f.imm.toNat e :=
      OpIn.signedImm_eq_imm f.bitsOf_x f.bitsOf_imm
    simp only [opMovi, himm, OpIn.rd, OpIn.f, JForm.bitsOf_rd]
  case aadd => simp only [opAadd, OpIn.operand2_eq_second, OpIn.f, RForm.bitsOf_address, RForm.bitsOf_fromAddress]
  case mova => simp only [opMova, OpIn.ra, OpIn.f, RForm.bitsOf_address, RForm.bitsOf_ra]
  case movs => simp only [opMovs, OpIn.rd, OpIn.f, RForm.bitsOf_rd, RForm.bitsOf_fromAddress]
  case pset => simp only [opPset, OpIn.ra, OpIn.f, RForm.bitsOf_predicate, RForm.bitsOf_ra]
  case br => rw [exec_br, State.branchOne_eq_branch rfl (fun _ _ _ _ => rfl) branchOf_br]
  case loop => rw [exec_loop, State.branchOne_eq_branch rfl opLoop_effect branchOf_loop]

end Sys2Proof.Settled
end

section
/-! SUPPORT. The last byte of a copy at a slice's write port (R236): what COPY_COMMIT does for each number of copies there. -/

namespace Sys2Proof.Machine

section
variable {s : State} {n : Fin 16} {a b : Copy} {rest : List Copy}

theorem exec_copyCommit_of_idle (second : Bool) (hport : s.writing n = []) :
    exec (.copyCommit n second) s = .next s := by
  change execCopyCommit n second s = .next s
  rw [execCopyCommit, hport]

theorem exec_copyCommit_first (hport : s.writing n = a :: rest) :
    exec (.copyCommit n false) s = .next ((s.written a).unpark a.frame.ctx) := by
  change execCopyCommit n false s = _
  rw [execCopyCommit, hport]
  rfl

theorem exec_copyCommit_second_of_alone (hport : s.writing n = [a]) : exec (.copyCommit n true) s = .next s := by
  change execCopyCommit n true s = .next s
  rw [execCopyCommit, hport]
  rfl

/-- The later of two copies of one flow does not overtake the earlier. -/
theorem exec_copyCommit_second (hport : s.writing n = a :: b :: rest) :
    exec (.copyCommit n true) s = .next (if sameFlow a b then s else (s.written b).unpark b.frame.ctx) := by
  change execCopyCommit n true s = _
  rw [execCopyCommit, hport]
  rfl

end

end Sys2Proof.Machine
end

section
/-! SUPPORT. The statement about admission, pointers, copies, caches, audits and draining settled. -/

namespace Sys2Proof.Settled

open Sys2Proof.Machine

/-- Settles O14: COPY_COMMIT is split by the copies at the write port, and every other row is the branches of its operation.
That requests are decided at ORIG_ADMIT and at POINTER_HANDOVER is the model's choice (log entry 10). -/
theorem bufferEvents : Obligations.BufferEvents := by
  refine ⟨fun _ _ => ?requests, fun _ _ => ?handOver, fun n second s => ?commit, fun _ _ _ => ?refill, fun _ _ => ?audit,
    fun _ _ => ?auditWrite, fun _ _ _ => ?reclaim, fun _ _ => ?sliceEmpty, fun _ _ => ?deadline⟩
  case requests | handOver => rfl
  case commit =>
    match hport : s.writing n, second with
    | [], _ => exact exec_copyCommit_of_idle _ hport
    | _ :: _, false => exact exec_copyCommit_first hport
    | [_], true => exact exec_copyCommit_second_of_alone hport
    | _ :: _ :: _, true => exact exec_copyCommit_second hport
  case refill | reclaim => rfl
  case audit | auditWrite => rfl
  case sliceEmpty | deadline => rfl

end Sys2Proof.Settled
end

section
/-! SUPPORT. Registers of which every slice holds a copy (R261, R271): a write made in each slice in turn. -/

namespace Sys2Proof.Machine

namespace State

section
variable {β : Type} {w : State → Nat → State} (hinv : ∀ {a : State} (n : Nat), a.Inv → (w a n).Inv)
include hinv

/-- What no listed slice's write changes reads as before the writes. -/
theorem read_foldl_frame {read : State → β} {s : State} (h : s.Inv) {l : List Nat}
    (hkept : ∀ n ∈ l, ∀ {a : State}, a.Inv → read (w a n) = read a) : read (l.foldl w s) = read s := by
  induction l generalizing s with
  | nil => rfl
  | cons n l ih =>
    obtain ⟨hn, hl⟩ := List.forall_mem_cons.1 hkept
    exact (ih (hinv n h) hl).trans (hn h)

/-- When a slice's write puts a value in its own copy and leaves the other copies, every slice written reads the value: its
last write put it there. -/
theorem read_foldl_mem {read : State → Nat → β} {x : β}
    (hself : ∀ {a : State} (n : Nat), a.Inv → read (w a n) n = x)
    (hother : ∀ {a : State} {n m : Nat}, a.Inv → m ≠ n → read (w a n) m = read a m)
    {s : State} (h : s.Inv) {l : List Nat} {m : Nat} (hm : m ∈ l) : read (l.foldl w s) m = x := by
  induction l generalizing s with
  | nil => cases hm
  | cons n l ih =>
    by_cases hl : m ∈ l
    · exact ih (hinv n h) hl
    · have hmn : m = n := (List.mem_cons.1 hm).resolve_right hl
      have hrest : read (l.foldl w (w s n)) m = read (w s n) m :=
        read_foldl_frame hinv (read := fun a => read a m) (hinv n h)
          fun k hk _ ha => hother ha fun hmk => hl (hmk ▸ hk)
      calc read ((n :: l).foldl w s) m = read (w s n) m := hrest
        _ = x := by rw [hmn]; exact hself n h

end

section
variable {s : State} {v i j k a b c : Nat}

theorem setFld_inv (h : s.Inv) (f : Fld) : (s.setFld f v i j k).Inv := (setFld_keeps (.refl s) ..).2 h

theorem plainWrite_inv (h : s.Inv) (r : RegName) : (s.plainWrite r v i j k).Inv := (plainWrite_keeps (.refl s) ..).2 h

/-- A field whose bits are all RW reads as the value written, cut to its ranges (R4, R8). -/
theorem fld_plainWrite_rw (h : s.Inv) (hv : v < 2 ^ 64) {f : Fld} (hf : f.lo + f.w ≤ 64)
    (hrw : ∀ b < f.w, (f.reg.mask .rw).testBit (f.lo + b) = true) :
    (s.plainWrite f.reg v i j k).fld f i j k = bitsOf (f.reg.clamped v) f.lo f.w := by
  apply Nat.eq_of_testBit_eq
  intro b
  unfold fld
  rw [testBit_bitsOf, testBit_bitsOf]
  by_cases hb : b < f.w
  · have hlt : f.lo + b < 64 := by omega
    rw [testBit_rd_plainWrite h hlt, (testBit_updated_cases f.reg hv hlt _).1 (hrw b hb)]
  · rw [decide_eq_false hb, Bool.false_and, Bool.false_and]

/-- A field of another register, or of another place of it, reads as before. -/
theorem fld_plainWrite_ne (h : s.Inv) {f : Fld} {r : RegName} (n : f.reg.addr a b c ≠ r.addr i j k) :
    (s.plainWrite r v i j k).fld f a b c = s.fld f a b c := by
  unfold fld
  rw [(plainWrite_ne h n).1]

end

end State

/-! SLCn_RT_FLOW -/

theorem rtFlow_addr_ne {m n : Nat} (h : m ≠ n) : RegName.addr .SLC_RT_FLOW m ≠ RegName.addr .SLC_RT_FLOW n := by
  simp only [RegName.addr, RegName.row]
  omega

namespace State

/-- A write of SLCn_RT_FLOW is one plain write in each slice, whatever the slice addressed. -/
theorem writeReg_rtFlow (s : State) (v i j k : Nat) : s.writeReg .SLC_RT_FLOW v i j k =
    (List.range 16).foldl (fun a n => a.plainWrite .SLC_RT_FLOW v n 0 0) s := rfl

/-- An RW field of SLCn_RT_FLOW reads in every slice as the value written to the register of any. -/
theorem fld_writeReg_rtFlow {s : State} (h : s.Inv) {v i j k m : Nat} (hv : v < 2 ^ 64) (hm : m < 16) {f : Fld}
    (hreg : f.reg = .SLC_RT_FLOW) (hf : f.lo + f.w ≤ 64)
    (hrw : ∀ b < f.w, (RegName.mask .SLC_RT_FLOW .rw).testBit (f.lo + b) = true) :
    (s.writeReg .SLC_RT_FLOW v i j k).fld f m = bitsOf (RegName.clamped .SLC_RT_FLOW v) f.lo f.w := by
  rw [← hreg] at hrw
  rw [writeReg_rtFlow, ← hreg]
  refine read_foldl_mem (w := fun a n => a.plainWrite f.reg v n 0 0) (read := fun a n => a.fld f n)
    (fun n ha => plainWrite_inv ha _) (fun n ha => fld_plainWrite_rw ha hv hf hrw) (fun ha hmn => ?_) h (List.mem_range.2 hm)
  exact fld_plainWrite_ne ha (by rw [hreg]; exact rtFlow_addr_ne hmn)

end State

/-! MASK of a neighbour entry -/

/-- The neighbour entries of the slices stand at offsets of their own. -/
theorem nbrm_addr_inj {m n : Nat} {d d' : Fin 3} {v v' : Fin 16}
    (h : RegName.addr .SLC_NBRM m d' v' = RegName.addr .SLC_NBRM n d v) : m = n ∧ (d', v') = (d, v) := by
  simp only [RegName.addr, RegName.row] at h
  rw [Prod.mk.injEq, Fin.ext_iff, Fin.ext_iff]
  omega

namespace State

/-- A FLUSH changes no register (R273). -/
theorem fld_flushNow (s : State) (f : Fld) (a b c : Nat) : s.flushNow.fld f a b c = s.fld f a b c := rfl

/-- The registers after a MASK write, with a FLUSH of the same tick or without, are those of its writes in the slices. -/
theorem fld_writeMask (s : State) (d v mask : Nat) (f : Fld) (a b c : Nat) : (s.writeMask d v mask).fld f a b c =
    ((List.range 16).foldl (fun t n => t.setFld F.SLC_NBRM_MASK mask n d v) s).fld f a b c := by
  unfold writeMask
  dsimp only
  rw [apply_ite fun t : State => t.fld f a b c, fld_flushNow, ite_self]

section
variable {s : State} {m : Nat} {d : Fin 3} {v : Fin 16} (mask : Nat)

theorem fld_writeMask_self (h : s.Inv) (hm : m < 16) :
    (s.writeMask d v mask).fld F.SLC_NBRM_MASK m d v = mask % 2 ^ 8 := by
  rw [fld_writeMask]
  exact read_foldl_mem (read := fun a n => a.fld F.SLC_NBRM_MASK n d v) (fun n ha => setFld_inv ha _)
    (fun n ha => fld_setFld_self ha _ _ _ _ _ (by decide))
    (fun ha hmn => fld_setFld_ne ha fun e => hmn (nbrm_addr_inj e).1) h (List.mem_range.2 hm)

theorem fld_writeMask_other (h : s.Inv) {d' : Fin 3} {v' : Fin 16} (hne : (d', v') ≠ (d, v)) :
    (s.writeMask d v mask).fld F.SLC_NBRM_MASK m d' v' = s.fld F.SLC_NBRM_MASK m d' v' := by
  rw [fld_writeMask]
  refine read_foldl_frame (read := fun a => a.fld F.SLC_NBRM_MASK m d' v') (fun n ha => setFld_inv ha _) h
    fun n _ _ ha => ?_
  exact fld_setFld_ne ha fun e => hne (nbrm_addr_inj e).2

end

end State

theorem exec_nbrMaskWrite (d : Fin 3) (v : Fin 16) (mask : Fin 256) (s : State) :
    exec (.nbrMaskWrite d v mask) s = .next (s.writeMask d v mask) := rfl

end Sys2Proof.Machine
end

section
/-! SUPPORT. The statement about the routing registers that the slices share settled. -/

namespace Sys2Proof.Settled

open Sys2Proof.Machine

/-- Settles O58: both writes are made in each slice in turn, and the copies of the slices stand at offsets of their own. That
they stand in all slices at once is the model's choice (log entry 14). -/
theorem sharedRouting : Obligations.SharedRouting := by
  refine ⟨fun off v n s hs hat => ⟨_, exec_registerWrite hat v s, fun m hm => ⟨?idle, ?max⟩⟩,
    fun d v mask s hs => ⟨_, exec_nbrMaskWrite d v mask s, fun m hm => ?written, fun m d' v' _ hne => ?others⟩⟩
  case idle => exact State.fld_writeReg_rtFlow hs v.isLt hm (f := F.SLC_RT_FLOW_IDLE_TK) rfl (by decide) (by decide)
  case max => exact State.fld_writeReg_rtFlow hs v.isLt hm (f := F.SLC_RT_FLOW_MAX) rfl (by decide) (by decide)
  case written => exact (State.fld_writeMask_self _ hs hm).trans (Nat.mod_eq_of_lt mask.isLt)
  case others => exact State.fld_writeMask_other _ hs hne

end Sys2Proof.Settled
end

section
/-! SUPPORT. Registers read after the writes of others, and where registers stand (R378). -/

namespace Sys2Proof.Machine

/-- A register stands at its base or after it. -/
theorem RegName.base_le_addr (r : RegName) (i j k : Nat) : r.row.base ≤ r.addr i j k := by
  unfold RegName.addr
  omega

theorem RegName.addr_fst (r : RegName) (i : Nat) : r.addr i = r.row.base + i * r.row.s1 := by
  rw [RegName.addr, Nat.zero_mul, Nat.zero_mul]
  rfl

theorem bitsOf_of_lt {v w : Nat} (h : v < 2 ^ w) : bitsOf v 0 w = v := by
  rw [bitsOf, Nat.pow_zero, Nat.div_one, Nat.mod_eq_of_lt h]

namespace State

section
variable {s : State} (h : s.Inv)
include h

theorem rd_setFld_ne {f : Fld} {q : RegName} {v i j k a b c : Nat} (hne : q.addr a b c ≠ f.reg.addr i j k) :
    (s.setFld f v i j k).rd q a b c = s.rd q a b c := rd_wr_ne h hne

theorem rd_bump_ne {f : Fld} {q : RegName} {n i j k a b c : Nat} (hne : q.addr a b c ≠ f.reg.addr i j k) :
    (s.bump f n i j k).rd q a b c = s.rd q a b c := rd_setFld_ne h hne

theorem bump_inv (f : Fld) (n i j k : Nat) : (s.bump f n i j k).Inv := setFld_inv h _

end

/-- A field is read from its register alone. -/
theorem fld_eq_of_rd_eq {s t : State} {f : Fld} {i j k : Nat} (h : t.rd f.reg i j k = s.rd f.reg i j k) :
    t.fld f i j k = s.fld f i j k := by
  rw [fld, h, fld]

end State

end Sys2Proof.Machine
end

section
/-! SUPPORT. The scrambler and the descrambler (R296): their states, and what they do bit by bit. -/

namespace Sys2Proof.Machine

/-- The state of the scrambler, or of the descrambler, once a bit sent or received has come in (R296). -/
def pcsShift (st : Nat) (b : Bool) : Nat := (2 * st + b2n b) % 2 ^ 58

/-- What the two taps of a state add to a bit (R296). -/
def pcsTaps (st : Nat) : Bool := bitOf st 38 != bitOf st 57

/-- One bit through a register: the state after it, and a bit put before those given out so far. -/
def bitStep (next : Nat → Bool → Nat) (out : Nat → Bool → Bool) (a : Nat × List Bool) (b : Bool) : Nat × List Bool :=
  (next a.1 b, out a.1 b :: a.2)

/-- Bits through a register from a state: the state after them, and the bits given out. -/
def bitRun (next : Nat → Bool → Nat) (out : Nat → Bool → Bool) (st : Nat) (l : List Bool) : Nat × List Bool :=
  let r := l.foldl (bitStep next out) (st, [])
  (r.1, r.2.reverse)

section
variable {next : Nat → Bool → Nat} {out : Nat → Bool → Bool} (st : Nat) (l m : List Bool)

/-- The bits given out stand before those that a run begins with. -/
theorem foldl_bitStep (given : List Bool) : l.foldl (bitStep next out) (st, given)
    = ((bitRun next out st l).1, (bitRun next out st l).2.reverse ++ given) := by
  induction l generalizing st given with
  | nil => rfl
  | cons b l ih =>
    unfold bitRun
    simp only [List.foldl_cons, bitStep, ih, List.reverse_append, List.reverse_reverse, List.append_assoc,
      List.reverse_cons, List.reverse_nil, List.nil_append, List.cons_append]

/-- A run goes on from the state in which it stopped. -/
theorem bitRun_append : bitRun next out st (l ++ m) = ((bitRun next out (bitRun next out st l).1 m).1,
    (bitRun next out st l).2 ++ (bitRun next out (bitRun next out st l).1 m).2) := by
  rw [bitRun, List.foldl_append, foldl_bitStep st l, foldl_bitStep]
  simp only [List.reverse_append, List.reverse_reverse, List.reverse_nil, List.nil_append]

end

section
variable (st : Nat) (b : Bool) (l m : List Bool)

/-- The scrambler goes on from the bits sent, the descrambler from the bits received, and both add their taps (R296). -/
theorem scramble_eq_bitRun :
    scramble st l = bitRun (fun a c => pcsShift a (c != pcsTaps a)) (fun a c => c != pcsTaps a) st l := rfl

theorem descramble_eq_bitRun : descramble st l = bitRun pcsShift (fun a c => c != pcsTaps a) st l := rfl

theorem scramble_append : scramble st (l ++ m)
    = ((scramble (scramble st l).1 m).1, (scramble st l).2 ++ (scramble (scramble st l).1 m).2) := by
  simp only [scramble_eq_bitRun, bitRun_append]

theorem descramble_append : descramble st (l ++ m)
    = ((descramble (descramble st l).1 m).1, (descramble st l).2 ++ (descramble (descramble st l).1 m).2) := by
  simp only [descramble_eq_bitRun, bitRun_append]

theorem scramble_cons : scramble st (b :: l) =
    ((scramble (pcsShift st (b != pcsTaps st)) l).1, (b != pcsTaps st) :: (scramble (pcsShift st (b != pcsTaps st)) l).2) :=
  scramble_append st [b] l

theorem descramble_cons : descramble st (b :: l) =
    ((descramble (pcsShift st b) l).1, (b != pcsTaps st) :: (descramble (pcsShift st b) l).2) :=
  descramble_append st [b] l

/-- From a common state both take in the same bits, those sent, and the taps added twice are no change. -/
theorem descramble_scramble : descramble st (scramble st l).2 = ((scramble st l).1, l) := by
  induction l generalizing st with
  | nil => rfl
  | cons b l ih =>
    have htwice : ((b != pcsTaps st) != pcsTaps st) = b := by cases b <;> cases pcsTaps st <;> rfl
    rw [scramble_cons, descramble_cons, ih, htwice]

/-- The descrambler's state is made of the bits received. -/
theorem descramble_state : (descramble st l).1 = l.foldl pcsShift st := by
  induction l generalizing st with
  | nil => rfl
  | cons b l ih => rw [descramble_cons, List.foldl_cons, ih]

end

theorem pcsShift_lt (st : Nat) (b : Bool) : pcsShift st b < 2 ^ 58 := Nat.mod_lt _ (Nat.two_pow_pos 58)

theorem foldl_pcsShift_lt {st : Nat} (h : st < 2 ^ 58) (l : List Bool) : l.foldl pcsShift st < 2 ^ 58 := by
  induction l generalizing st with
  | nil => exact h
  | cons b l ih => exact ih (pcsShift_lt st b)

/-- States that agree in their low n bits agree in all 58 once the bits that make up the rest have come in. -/
theorem foldl_pcsShift_modEq {n a b : Nat} (h : a ≡ b [MOD 2 ^ n]) {l : List Bool} (hl : n + l.length = 58) :
    l.foldl pcsShift a ≡ l.foldl pcsShift b [MOD 2 ^ 58] := by
  induction l generalizing n a b with
  | nil => exact hl ▸ h
  | cons c l ih =>
    have hdvd : 2 ^ (n + 1) ∣ 2 ^ 58 := Nat.pow_dvd_pow 2 (by rw [List.length_cons] at hl; omega)
    have hshift (st : Nat) : pcsShift st c ≡ 2 * st + b2n c [MOD 2 ^ (n + 1)] :=
      (Nat.mod_modEq _ _).of_dvd hdvd
    have hdouble : 2 * a + b2n c ≡ 2 * b + b2n c [MOD 2 ^ (n + 1)] := by
      rw [Nat.pow_succ']
      exact (h.mul_left' 2).add_right _
    exact ih ((hshift a).trans (hdouble.trans (hshift b).symm)) (by rw [List.length_cons] at hl; omega)

/-- After 58 bits received the state is the last 58 of them, wherever it started. -/
theorem descramble_state_eq_of_length (a b : Nat) {l : List Bool} (hl : 58 ≤ l.length) :
    (descramble a l).1 = (descramble b l).1 := by
  have hsplit : l.take (l.length - 58) ++ l.drop (l.length - 58) = l := List.take_append_drop ..
  have hlast : 0 + (l.drop (l.length - 58)).length = 58 := by rw [List.length_drop]; omega
  have hmod : l.foldl pcsShift a ≡ l.foldl pcsShift b [MOD 2 ^ 58] := by
    rw [← hsplit, List.foldl_append, List.foldl_append]
    exact foldl_pcsShift_modEq (n := 0) Nat.modEq_one hlast
  have hlt (st : Nat) : l.foldl pcsShift st < 2 ^ 58 := by
    match l, hl with
    | c :: l, _ => exact foldl_pcsShift_lt (pcsShift_lt st c) l
  rw [descramble_state, descramble_state]
  exact hmod.eq_of_lt_of_lt (hlt a) (hlt b)

end Sys2Proof.Machine
end

section
/-! SUPPORT. Codewords (R294 to R299): bits and symbols, the parity symbols, PAM4 levels and interleaving. -/

namespace Sys2Proof.Machine

/-! Bits and symbols -/

@[simp] theorem length_bitsMsb (w v : Nat) : (bitsMsb w v).length = w := by
  rw [bitsMsb, List.length_map, List.length_range]

theorem b2n_lt (b : Bool) : b2n b < 2 := by cases b <;> decide

theorem bitOf_double_zero (v : Nat) (b : Bool) : bitOf (2 * v + b2n b) 0 = b := by
  have hlow : (2 * v + b2n b) / 2 ^ 0 % 2 = b2n b := by have := b2n_lt b; omega
  rw [bitOf, hlow]
  cases b <;> rfl

theorem bitOf_double_succ (v : Nat) (b : Bool) (i : Nat) : bitOf (2 * v + b2n b) (i + 1) = bitOf v i := by
  have hhalf : (2 * v + b2n b) / 2 = v := by have := b2n_lt b; omega
  rw [bitOf, bitOf, Nat.pow_succ', ← Nat.div_div_eq_div_mul, hhalf]

/-- The bits of a number with one bit added below end with that bit. -/
theorem bitsMsb_double (w v : Nat) (b : Bool) : bitsMsb (w + 1) (2 * v + b2n b) = bitsMsb w v ++ [b] := by
  have hhigh : ∀ i ∈ List.range w, bitOf (2 * v + b2n b) (w - i) = bitOf v (w - 1 - i) := fun i hi => by
    have hsucc : w - i = w - 1 - i + 1 := by have := List.mem_range.1 hi; omega
    rw [hsucc, bitOf_double_succ]
  rw [bitsMsb, List.range_succ, List.map_append, List.map_singleton, Nat.add_sub_cancel, Nat.sub_self, bitOf_double_zero,
    List.map_congr_left hhigh, bitsMsb]

theorem msbNat_concat (l : List Bool) (b : Bool) : msbNat (l ++ [b]) = 2 * msbNat l + b2n b := by
  rw [msbNat, List.foldl_append, List.foldl_cons, List.foldl_nil, msbNat]

/-- A number made of bits has those bits. -/
theorem bitsMsb_msbNat (l : List Bool) : bitsMsb l.length (msbNat l) = l := by
  induction l using List.reverseRecOn with
  | nil => rfl
  | append_singleton l b ih => rw [List.length_append, List.length_singleton, msbNat_concat, bitsMsb_double, ih]

theorem msbNat_lt (l : List Bool) : msbNat l < 2 ^ l.length := by
  induction l using List.reverseRecOn with
  | nil => decide
  | append_singleton l b ih =>
    have hb := b2n_lt b
    rw [List.length_append, List.length_singleton, msbNat_concat, Nat.pow_succ']
    omega

section
variable {α : Type} {n k : Nat} {l : List α}

@[simp] theorem length_cuts (n k : Nat) (l : List α) : (cuts n k l).length = k := by
  induction k generalizing l with
  | zero => rfl
  | succ k ih => rw [cuts, List.length_cons, ih]

theorem length_drop_of_cut (hl : l.length = n * (k + 1)) : (l.drop n).length = n * k := by
  rw [List.length_drop, hl, Nat.mul_succ, Nat.add_sub_cancel]

/-- A list cut all up is its pieces in turn. -/
theorem flatten_cuts (hl : l.length = n * k) : (cuts n k l).flatten = l := by
  induction k generalizing l with
  | zero => exact (List.length_eq_zero_iff.1 hl).symm
  | succ k ih => rw [cuts, List.flatten_cons, ih (length_drop_of_cut hl), List.take_append_drop]

theorem length_of_mem_cuts (hl : l.length = n * k) : ∀ c ∈ cuts n k l, c.length = n := by
  induction k generalizing l with
  | zero => exact fun _ hc => absurd hc List.not_mem_nil
  | succ k ih =>
    have hfirst : (l.take n).length = n := List.length_take_of_le (by rw [hl]; exact Nat.le_mul_of_pos_right n k.succ_pos)
    exact List.forall_mem_cons.2 ⟨hfirst, ih (length_drop_of_cut hl)⟩

end

/-- The symbols of n bits that a list of bits holds have those bits again. -/
theorem flatMap_bitsMsb_cuts {n k : Nat} {l : List Bool} (hl : l.length = n * k) :
    ((cuts n k l).map msbNat).flatMap (bitsMsb n) = l := by
  have hback : ∀ c ∈ cuts n k l, bitsMsb n (msbNat c) = c := fun c hc => by
    have h := bitsMsb_msbNat c
    rwa [length_of_mem_cuts hl c hc] at h
  calc ((cuts n k l).map msbNat).flatMap (bitsMsb n) = ((cuts n k l).map fun c => bitsMsb n (msbNat c)).flatten := by
        rw [List.flatMap_def, List.map_map]; rfl
    _ = (cuts n k l).flatten := by rw [List.map_congr_left hback, List.map_id']
    _ = l := flatten_cuts hl

/-! Parity symbols -/

theorem gfDouble_lt {a : Nat} (ha : a < 1024) : gfDouble a < 1024 := by
  unfold gfDouble
  split
  next => exact Nat.xor_lt_two_pow (n := 10) (Nat.mod_lt _ (by decide)) (by decide)
  next hbit =>
    rw [bitOf, beq_iff_eq] at hbit
    omega

theorem gfMulBits_lt (k : Nat) {a : Nat} (ha : a < 1024) (b : Nat) : gfMulBits k a b < 1024 := by
  induction k generalizing a b with
  | zero => exact Nat.zero_lt_succ 1023
  | succ k ih =>
    have hterm : (if b % 2 = 1 then a else 0) < 1024 := by split <;> omega
    exact Nat.xor_lt_two_pow (n := 10) hterm (ih (gfDouble_lt ha) (b / 2))

/-- A list of symbols of 10 bits, as long as given. -/
structure Symbols (n : Nat) (l : List Nat) : Prop where
  length : l.length = n
  lt : ∀ y ∈ l, y < 1024

theorem Symbols.append {n m : Nat} {l r : List Nat} (hl : Symbols n l) (hr : Symbols m r) : Symbols (n + m) (l ++ r) :=
  ⟨by rw [List.length_append, hl.length, hr.length], List.forall_mem_append.2 ⟨hl.lt, hr.lt⟩⟩

theorem Symbols.xor {n : Nat} {l r : List Nat} (hl : Symbols n l) (hr : Symbols n r) :
    Symbols n (List.zipWith Nat.xor l r) := by
  refine ⟨by rw [List.length_zipWith, hl.length, hr.length, Nat.min_self], fun y hy => ?_⟩
  rw [← List.map_uncurry_zip_eq_zipWith] at hy
  obtain ⟨⟨a, b⟩, hab, rfl⟩ := List.mem_map.1 hy
  obtain ⟨ha, hb⟩ := List.of_mem_zip hab
  exact Nat.xor_lt_two_pow (n := 10) (hl.lt a ha) (hr.lt b hb)

/-- A step of the division keeps a remainder of as many symbols as the generator has lower coefficients. -/
theorem rsStep_symbols {n : Nat} {g r : List Nat} (hg : g.length = n + 1) (hr : Symbols (n + 1) r) {m : Nat} (hm : m < 1024) :
    Symbols (n + 1) (rsStep g r m) := by
  have hhead : r.headD 0 < 1024 := by
    cases r with
    | nil => decide
    | cons a r => exact hr.lt a List.mem_cons_self
  have hfactor : Nat.xor m (r.headD 0) < 1024 := Nat.xor_lt_two_pow (n := 10) hm hhead
  have hrest : Symbols n (r.drop 1) :=
    ⟨by rw [List.length_drop, hr.length, Nat.add_sub_cancel], fun y hy => hr.lt y (List.mem_of_mem_drop hy)⟩
  have hzero : Symbols 1 [0] := ⟨rfl, by decide⟩
  have hproduct : Symbols (n + 1) (g.map (gfMul (Nat.xor m (r.headD 0)))) := by
    refine ⟨by rw [List.length_map, hg], fun y hy => ?_⟩
    obtain ⟨b, -, rfl⟩ := List.mem_map.1 hy
    exact gfMulBits_lt 10 hfactor b
  exact (hrest.append hzero).xor hproduct

theorem rsParity_symbols {l : List Nat} (hl : ∀ y ∈ l, y < 1024) : Symbols 30 (rsParity l) := by
  have hgen : (rsGenerator.drop 1).length = 29 + 1 := by decide +kernel
  have hfold : ∀ r, Symbols (29 + 1) r → Symbols (29 + 1) (l.foldl (rsStep (rsGenerator.drop 1)) r) := by
    induction l with
    | nil => exact fun _ hr => hr
    | cons m l ih =>
      obtain ⟨hm, hl⟩ := List.forall_mem_cons.1 hl
      exact fun r hr => ih hl _ (rsStep_symbols hgen hr hm)
  exact hfold _ ⟨rfl, fun y hy => by rw [List.eq_of_mem_replicate hy]; decide⟩

/-! Codewords -/

section
variable {header : Nat} {p : List Bool} (hp : p.length = 5120)
include hp

theorem length_codeword_bits : (bitsMsb 20 header ++ p).length = 10 * 514 := by
  rw [List.length_append, length_bitsMsb, hp]

/-- The 514 symbols before the parity ones. -/
theorem codewordOf_message_symbols : Symbols 514 ((cuts 10 514 (bitsMsb 20 header ++ p)).map msbNat) := by
  refine ⟨by rw [List.length_map, length_cuts], fun y hy => ?_⟩
  obtain ⟨c, hc, rfl⟩ := List.mem_map.1 hy
  have h := msbNat_lt c
  rwa [length_of_mem_cuts (length_codeword_bits hp) c hc] at h

theorem codewordOf_symbols : Symbols 544 (codewordOf header p) :=
  (codewordOf_message_symbols hp).append (rsParity_symbols (codewordOf_message_symbols hp).lt)

/-- The first 514 symbols are the header and the payload, most significant bit first (R294). -/
theorem codewordOf_message_bits : ((codewordOf header p).take 514).flatMap (bitsMsb 10) = bitsMsb 20 header ++ p := by
  have hmsg := (codewordOf_message_symbols (header := header) hp).length
  rw [codewordOf, List.take_left' hmsg, flatMap_bitsMsb_cuts (length_codeword_bits hp)]

end

theorem length_pamLevels (l : List Nat) : (pamLevels l).length = 5 * l.length := by
  induction l with
  | nil => rfl
  | cons y l ih =>
    change ((List.range 5).map _ ++ pamLevels l).length = _
    rw [List.length_append, List.length_map, List.length_range, ih, List.length_cons]
    omega

/-! Interleaving -/

section
variable {a b : List Nat} (h : a.length = b.length)
include h

theorem length_inTurn : (inTurn a b).length = 2 * a.length := by
  induction a generalizing b with
  | nil => rw [List.length_eq_zero_iff.1 h.symm]; rfl
  | cons x a ih =>
    match b, h with
    | y :: b, h =>
      rw [inTurn, List.length_cons, List.length_cons, ih (Nat.succ.inj h), List.length_cons]
      omega

/-- Lists of one length taken in turn: one in the even places, the other in the odd ones. -/
theorem getElem?_inTurn (i : Nat) : (inTurn a b)[2 * i]? = a[i]? ∧ (inTurn a b)[2 * i + 1]? = b[i]? := by
  induction a generalizing b i with
  | nil => rw [List.length_eq_zero_iff.1 h.symm]; exact ⟨rfl, rfl⟩
  | cons x a ih =>
    match b, h, i with
    | y :: b, h, 0 => exact ⟨rfl, rfl⟩
    | y :: b, h, i + 1 => exact ih (Nat.succ.inj h) i

end

section
variable {a b : List Nat} (ha : a.length = 544) (hb : b.length = 544)
include ha hb

theorem length_interleaved : (inTurn (a.drop 2) (b.drop 2)).length = 1084 := by
  rw [length_inTurn (by rw [List.length_drop, List.length_drop, ha, hb]), List.length_drop, ha]

theorem getElem?_interleaved (i : Nat) : (inTurn (a.drop 2) (b.drop 2))[2 * i]? = a[2 + i]?
    ∧ (inTurn (a.drop 2) (b.drop 2))[2 * i + 1]? = b[2 + i]? := by
  have h := getElem?_inTurn (a := a.drop 2) (b := b.drop 2) (by rw [List.length_drop, List.length_drop, ha, hb]) i
  rwa [List.getElem?_drop, List.getElem?_drop] at h

theorem interleave_headers : (interleave a b).1.take 2 = a.take 2 ∧ (interleave a b).2.take 2 = b.take 2 :=
  ⟨List.take_left' (List.length_take_of_le (by omega)), List.take_left' (List.length_take_of_le (by omega))⟩

theorem length_interleave : (interleave a b).1.length = 544 ∧ (interleave a b).2.length = 544 := by
  have h := length_interleaved ha hb
  simp only [interleave, List.length_append, List.length_take, List.length_drop, h, ha, hb]
  decide

/-- Past the header, the first of the pair holds the first 271 symbols of each codeword in turn. -/
theorem getElem?_interleave_fst {i : Nat} (hi : i < 271) : (interleave a b).1[2 + 2 * i]? = a[2 + i]?
    ∧ (interleave a b).1[3 + 2 * i]? = b[2 + i]? := by
  have htake : (a.take 2).length = 2 := List.length_take_of_le (by omega)
  have hplace {j : Nat} (hj : j < 542) : (interleave a b).1[2 + j]? = (inTurn (a.drop 2) (b.drop 2))[j]? := by
    rw [interleave, List.getElem?_append_right (by omega), htake, Nat.add_sub_cancel_left, List.getElem?_take_of_lt hj]
  obtain ⟨heven, hodd⟩ := getElem?_interleaved ha hb i
  have hthree : 3 + 2 * i = 2 + (2 * i + 1) := by omega
  exact ⟨(hplace (by omega)).trans heven, by rw [hthree, hplace (by omega), hodd]⟩

/-- The second holds the others. -/
theorem getElem?_interleave_snd (i : Nat) : (interleave a b).2[2 + 2 * i]? = a[273 + i]?
    ∧ (interleave a b).2[3 + 2 * i]? = b[273 + i]? := by
  have htake : (b.take 2).length = 2 := List.length_take_of_le (by omega)
  have hplace (j : Nat) : (interleave a b).2[2 + j]? = (inTurn (a.drop 2) (b.drop 2))[542 + j]? := by
    rw [interleave, List.getElem?_append_right (by omega), htake, Nat.add_sub_cancel_left, List.getElem?_drop]
  obtain ⟨heven, hodd⟩ := getElem?_interleaved ha hb (271 + i)
  rw [Nat.mul_add, ← Nat.add_assoc] at heven hodd
  have hthree : 3 + 2 * i = 2 + (2 * i + 1) := by omega
  exact ⟨(hplace _).trans heven, by rw [hthree, hplace]; exact hodd⟩

end

/-- A header is valid but in a link-down idle, whose P is inverted (R295, R304). -/
theorem headerOk_pcsHeader : ∀ (am down : Bool) (i : Nat), i < 8 → State.headerOk (pcsHeader am down i) = !down := by decide

end Sys2Proof.Machine
end

section
/-! SUPPORT. The statements about the PCS, the link, the laser modules and the ports settled. -/

namespace Sys2Proof.Settled

open Sys2Proof.Machine

/-- Settles O55: both sides go on from the bits on the wire, so that from a common state the taps cancel, and 58 bits received
are a whole state. -/
theorem scramblerRoundTrip : Obligations.ScramblerRoundTrip :=
  ⟨fun st l _ => descramble_scramble st l, scramble_append, descramble_append,
    fun a b _ => descramble_state_eq_of_length a b⟩

/-- Settles O56: a codeword's first symbols are its bits cut into tens, and two lists taken in turn alternate. -/
theorem codewordSymbols : Obligations.CodewordSymbols := by
  refine ⟨fun header p hp => ?codeword, fun a b ha hb => ?pair, headerOk_pcsHeader⟩
  case codeword =>
    obtain ⟨hlength, hlt⟩ := codewordOf_symbols (header := header) hp
    exact ⟨hlength, hlt, codewordOf_message_bits hp, by rw [length_pamLevels, hlength]⟩
  case pair =>
    obtain ⟨hheader, hheader'⟩ := interleave_headers ha hb
    obtain ⟨hlength, hlength'⟩ := length_interleave ha hb
    refine ⟨hheader, hheader', hlength, hlength', fun i hi => ?_⟩
    obtain ⟨hfirst, hfirst'⟩ := getElem?_interleave_fst ha hb hi
    exact ⟨hfirst, hfirst', getElem?_interleave_snd ha hb i⟩

/-- Settles O15: the start and the end of a frame are an operation by its name, every other row the branches of its operation.
That sequenced frames, and link frames other than hellos, are taken in UP alone is the model's choice (log entry 67). -/
theorem linkEvents : Obligations.LinkEvents := by
  refine ⟨fun _ _ => ?txStart, fun _ _ => ?txEnd, fun _ _ _ _ _ => ?frameRx, fun _ _ _ => ?ackRx, fun _ _ => ?ackSend,
    fun _ _ _ _ => ?nackRx, fun _ _ => ?retryTimeout, fun _ _ => ?episodeExpiry, fun _ _ _ => ?creditRx,
    fun _ _ _ => ?creditSend⟩
  case txStart | txEnd => rfl
  case frameRx => rfl
  case ackRx | ackSend | nackRx => rfl
  case retryTimeout | episodeExpiry => rfl
  case creditRx | creditSend => rfl

/-- Settles O16: every row is the branches of its operation. The code of ModuleReady and what the receiver of the PCS leaves
open are the model's choice (log entries 19 and 99). -/
theorem opticsAndService : Obligations.OpticsAndService := by
  refine ⟨fun _ _ _ => ?laserPoll, fun _ _ _ _ => ?laserControl, fun _ _ _ => ?codewordRx, fun _ => ?ledFrame,
    fun _ _ => ?press, fun _ => ?locateExpiry⟩
  case laserPoll | laserControl => rfl
  case codewordRx => rfl
  case ledFrame | press | locateExpiry => rfl

/-- Settles O17: a hello received is an operation by its name, every other row the branches of its operation. Which hello
HELLO_TIMEOUT counts from is the model's choice (log entry 100). -/
theorem portEvents : Obligations.PortEvents := by
  refine ⟨fun _ _ => ?alignTimeout, fun _ _ => ?helloTimeout, fun _ _ => ?keepaliveLoss, fun _ _ => ?retrainTimeout,
    fun _ _ => ?holdExpiry, fun _ _ => ?loopRefused, fun _ _ _ => ?freqWindow, fun _ _ => ?helloSend, fun _ _ _ _ => ?helloRx,
    fun _ _ _ _ => ?enable, fun _ _ _ => ?retrain, fun _ _ _ _ => ?locate, fun _ _ _ _ => ?test⟩
  case alignTimeout | helloTimeout | keepaliveLoss | retrainTimeout => rfl
  case holdExpiry | loopRefused | freqWindow => rfl
  case helloSend | helloRx => rfl
  case enable | retrain | locate | test => rfl

end Sys2Proof.Settled
end

section
/-! SUPPORT. What a device right after reset reads (R360, R378). -/

namespace Sys2Proof.Machine

theorem lookupKey_eq_none {α : Type} {m : List (Nat × α)} {x : Nat} (h : ∀ e ∈ m, e.1 ≠ x) : lookupKey m x = none := by
  induction m with
  | nil => rfl
  | cons e m ih =>
    obtain ⟨he, hm⟩ := List.forall_mem_cons.1 h
    rw [lookupKey, if_neg (Ne.symm he), ih hm, ite_self]

namespace State

/-- The words that differ from their reset values are those of the digests. -/
theorem reset_regs_within : ∀ e ∈ reset.regs, 0x400040 ≤ e.1 ∧ e.1 < 0x400300 := by decide

/-- A register outside the digests reads its reset value. -/
theorem rd_reset {r : RegName} {i j k : Nat} (h : r.addr i j k < 0x400040 ∨ 0x400300 ≤ r.addr i j k) :
    reset.rd r i j k = (r.resetAt i).toNat := by
  have hunlisted : lookupKey reset.regs (r.addr i j k) = none := lookupKey_eq_none fun e he => by
    have := reset_regs_within e he
    omega
  rw [rd, readKey, hunlisted, Option.getD_none, BitVec.zero_xor]

/-- CFG_DEV_DIGEST shows the digest of the empty image, H(0x20) (R346). -/
theorem rd_reset_devDigest : ∀ k : Fin 4, reset.rd .CFG_DEV_DIGEST k = leAt (sha3 [0x20#8]) (8 * k) 8 := by
  decide +kernel

end State

end Sys2Proof.Machine
end

section
/-! SUPPORT. PERST_N (R368): the registers of the queue pairs are reset one after another, and the rest of the host port
stays. -/

namespace Sys2Proof.Machine

namespace State

section
variable {s : State} {r q : RegName} {i j k a b c : Nat}

theorem resetReg_inv (h : s.Inv) (q : RegName) (a b c : Nat) : (s.resetReg q a b c).Inv := (resetReg_keeps (.refl s) ..).2 h

theorem rd_resetReg_self (h : s.Inv) (r : RegName) (i j k : Nat) : (s.resetReg r i j k).rd r i j k = (r.resetAt i).toNat := by
  rw [rd, resetReg, readKey_writeKey_self h.1, BitVec.zero_xor]

theorem rd_resetReg_ne (h : s.Inv) (n : r.addr i j k ≠ q.addr a b c) : (s.resetReg q a b c).rd r i j k = s.rd r i j k := by
  rw [rd, resetReg, readKey_writeKey_ne h.1 n, rd]

/-- A register that reads its reset value does so after every further reset of a register. -/
theorem rd_resetReg_of_reset (h : s.Inv) (hr : s.rd r i j k = (r.resetAt i).toNat) :
    (s.resetReg q a b c).rd r i j k = (r.resetAt i).toNat := by
  by_cases n : r.addr i j k = q.addr a b c
  · rw [rd, n, resetReg, readKey_writeKey_self h.1, BitVec.zero_xor]
  · rw [rd_resetReg_ne h n, hr]

end

/-- What a fold of writes brings about at one of its places, and later writes keep, holds at its end. -/
theorem foldl_reaches {β : Type} {P : State → Prop} {w : State → β → State}
    (hinv : ∀ {t : State} (y : β), t.Inv → (w t y).Inv) (hkeep : ∀ {t : State} (y : β), t.Inv → P t → P (w t y)) {x : β}
    (hreach : ∀ {t : State}, t.Inv → P (w t x)) {s : State} (h : s.Inv) {l : List β} (hx : x ∈ l ∨ P s) : P (l.foldl w s) := by
  induction l generalizing s with
  | nil => exact hx.resolve_left List.not_mem_nil
  | cons y l ih =>
    refine ih (hinv y h) ?_
    rcases hx with hx | hs
    · rcases List.mem_cons.1 hx with rfl | hx
      · exact .inr (hreach h)
      · exact .inl hx
    · exact .inr (hkeep y h hs)

/-- The registers of a queue pair reset, and its queue made anew. -/
def resetPair (s : State) (q : Nat) : State :=
  (hostRegs.foldl (fun b r => b.resetReg r q) s).setQueue q { gen := (s.queue q).gen + 1 }

/-- The link of the host port down. -/
def linkLost (s : State) : State :=
  ((s.setFld F.MGT_HP_STAT_LINK_UP 0).setFld F.MGT_HP_STAT_WIDTH 0).setFld F.MGT_HP_STAT_SPEED 0

theorem perst_eq (s : State) : s.perst = (List.range 8).foldl resetPair s.linkLost := rfl

section
variable {s : State}

theorem linkLost_inv (h : s.Inv) : s.linkLost.Inv := setFld_inv (setFld_inv (setFld_inv h _) _) _

theorem resetPair_inv (q : Nat) (h : s.Inv) : (s.resetPair q).Inv :=
  (setQueue_keeps (Keeps.foldl (.refl s) fun _ r ha => resetReg_keeps ha r q 0 0) _ _).2 h

theorem rd_setQueue (q : Nat) (x : QueueX) (r : RegName) (i j k : Nat) : (s.setQueue q x).rd r i j k = s.rd r i j k := rfl

theorem rd_resetPair_self (h : s.Inv) {r : RegName} (hr : r ∈ hostRegs) (q : Nat) :
    (s.resetPair q).rd r q = (r.resetAt q).toNat := by
  rw [resetPair, rd_setQueue]
  exact foldl_reaches (P := fun t => t.rd r q = (r.resetAt q).toNat) (fun y ht => resetReg_inv ht y q 0 0)
    (fun _ ht => rd_resetReg_of_reset ht) (fun ht => rd_resetReg_self ht r q 0 0) h (.inl hr)

theorem rd_resetPair_of_reset (h : s.Inv) {r : RegName} {i : Nat} (hr : s.rd r i = (r.resetAt i).toNat) (q : Nat) :
    (s.resetPair q).rd r i = (r.resetAt i).toNat := by
  rw [resetPair, rd_setQueue]
  refine (List.foldlRecOn (motive := fun t : State => t.Inv ∧ t.rd r i = (r.resetAt i).toNat) hostRegs _ ⟨h, hr⟩ ?_).2
  exact fun t ⟨ht, htr⟩ y _ => ⟨resetReg_inv ht y q 0 0, rd_resetReg_of_reset ht htr⟩

/-- The register of the link stands apart from those of the queue pairs. -/
theorem rd_resetPair_hpStat (h : s.Inv) (q : Nat) : (s.resetPair q).rd .MGT_HP_STAT = s.rd .MGT_HP_STAT := by
  have hbase : ∀ r ∈ hostRegs, RegName.addr .MGT_HP_STAT < r.row.base := by decide
  have hapart (r : RegName) (hr : r ∈ hostRegs) : RegName.addr .MGT_HP_STAT ≠ r.addr q :=
    Nat.ne_of_lt (Nat.lt_of_lt_of_le (hbase r hr) (r.base_le_addr q 0 0))
  rw [resetPair, rd_setQueue]
  refine (List.foldlRecOn (motive := fun t : State => t.Inv ∧ t.rd .MGT_HP_STAT = s.rd .MGT_HP_STAT) hostRegs _
    ⟨h, rfl⟩ ?_).2
  exact fun t ⟨ht, htr⟩ r hr => ⟨resetReg_inv ht r q 0 0, (rd_resetReg_ne ht (hapart r hr)).trans htr⟩

/-- Every register of every queue pair at its reset value. -/
theorem rd_perst_hostReg (h : s.Inv) {r : RegName} (hr : r ∈ hostRegs) {q : Nat} (hq : q < 8) :
    s.perst.rd r q = (r.resetAt q).toNat := by
  rw [perst_eq]
  exact foldl_reaches (P := fun t => t.rd r q = (r.resetAt q).toNat) (fun y ht => resetPair_inv y ht)
    (fun y ht hr => rd_resetPair_of_reset ht hr y) (fun ht => rd_resetPair_self ht hr q) (linkLost_inv h)
    (.inl (List.mem_range.2 hq))

theorem rd_perst_hpStat (h : s.Inv) : s.perst.rd .MGT_HP_STAT = s.linkLost.rd .MGT_HP_STAT := by
  rw [perst_eq]
  exact read_foldl_frame (read := fun t => t.rd .MGT_HP_STAT) (fun q ht => resetPair_inv q ht) (linkLost_inv h)
    fun q _ _ ht => rd_resetPair_hpStat ht q

/-- A disabled pair's EN bit. -/
theorem flag_perst_qpEn (h : s.Inv) {q : Nat} (hq : q < 8) : s.perst.flag F.MGT_QP_CTRL_EN q = false := by
  have hrd : s.perst.rd F.MGT_QP_CTRL_EN.reg q = 0 := rd_perst_hostReg h (by decide) hq
  rw [flag, fld, hrd]
  rfl

theorem fld_linkLost (h : s.Inv) : s.linkLost.fld F.MGT_HP_STAT_LINK_UP = 0 ∧ s.linkLost.fld F.MGT_HP_STAT_WIDTH = 0
    ∧ s.linkLost.fld F.MGT_HP_STAT_SPEED = 0 ∧ s.linkLost.fld F.MGT_HP_STAT_RSP_LOST = s.fld F.MGT_HP_STAT_RSP_LOST := by
  have h1 : (s.setFld F.MGT_HP_STAT_LINK_UP 0).Inv := setFld_inv h _
  have h2 : ((s.setFld F.MGT_HP_STAT_LINK_UP 0).setFld F.MGT_HP_STAT_WIDTH 0).Inv := setFld_inv h1 _
  have hspeed {g : Fld} (hreg : g.reg = .MGT_HP_STAT) (hw : g.lo + g.w ≤ 64) (ha : g.lo + g.w ≤ 5 ∨ 8 ≤ g.lo) :
      s.linkLost.fld g = ((s.setFld F.MGT_HP_STAT_LINK_UP 0).setFld F.MGT_HP_STAT_WIDTH 0).fld g :=
    fld_setFld_apart h2 hreg hw ha
  have hwidth {g : Fld} (hreg : g.reg = .MGT_HP_STAT) (hw : g.lo + g.w ≤ 64) (ha : g.lo + g.w ≤ 1 ∨ 5 ≤ g.lo) :
      ((s.setFld F.MGT_HP_STAT_LINK_UP 0).setFld F.MGT_HP_STAT_WIDTH 0).fld g = (s.setFld F.MGT_HP_STAT_LINK_UP 0).fld g :=
    fld_setFld_apart h1 hreg hw ha
  refine ⟨?up, ?width, ?speed, ?lost⟩
  case up =>
    rw [hspeed rfl (by decide) (by decide), hwidth rfl (by decide) (by decide)]
    exact fld_setFld_self h F.MGT_HP_STAT_LINK_UP 0 0 0 0 (by decide)
  case width =>
    rw [hspeed rfl (by decide) (by decide)]
    exact fld_setFld_self h1 F.MGT_HP_STAT_WIDTH 0 0 0 0 (by decide)
  case speed => exact fld_setFld_self h2 F.MGT_HP_STAT_SPEED 0 0 0 0 (by decide)
  case lost =>
    rw [hspeed rfl (by decide) (by decide), hwidth rfl (by decide) (by decide)]
    exact fld_setFld_apart h rfl (by decide) (by decide)

end

/-- The command engine without its queues. -/
def beyondQueues (s : State) : CmdX := { s.cmd with queues := [] }

theorem beyondQueues_resetPair (s : State) (q : Nat) : (s.resetPair q).beyondQueues = s.beyondQueues := by
  have hcmd : (hostRegs.foldl (fun b r => b.resetReg r q) s).cmd = s.cmd :=
    List.foldlRecOn (motive := fun t : State => t.cmd = s.cmd) _ _ rfl fun _ ht _ _ => ht
  unfold resetPair beyondQueues setQueue
  rw [hcmd]

/-- PERST_N touches the queues alone of the command engine. -/
theorem beyondQueues_perst (s : State) : s.perst.beyondQueues = s.beyondQueues :=
  List.foldlRecOn (motive := fun t : State => t.beyondQueues = s.beyondQueues) _ _ rfl
    fun t ht q _ => (t.beyondQueues_resetPair q).trans ht

/-- The response to a command of a disabled queue pair is discarded and counted. -/
theorem respond_of_pair_disabled {s : State} {c : TakenX} {q gen : Nat} (hpath : c.path = .host q gen)
    (hdisabled : s.flag F.MGT_QP_CTRL_EN q = false) {status : Nat} (hstatus : status ∉ [6, 0x301, 0x302]) (arg : Nat)
    (payload : Bytes) : s.respond c status arg payload = s.bump F.MGT_HP_STAT_RSP_LOST := by
  have hplain : ¬ (status = 6 ∨ status = 0x301 ∨ status = 0x302) := by
    simpa only [List.mem_cons, List.not_mem_nil, or_false] using hstatus
  have hlost : gen ≠ (s.queue q).gen ∨ ¬ s.flag F.MGT_QP_CTRL_EN q = true := .inr (ne_true_of_eq_false hdisabled)
  rw [respond, if_neg hplain, deliver, hpath]
  exact if_pos hlost

end State

end Sys2Proof.Machine
end

section
/-! SUPPORT. The permission check of R387, by opcode. -/

namespace Sys2Proof.Machine

namespace State

theorem rules_iff (r : Role) : rules r = true ↔ r = .host ∨ r = .operator := by
  rw [rules, Bool.or_eq_true, beq_iff_eq, beq_iff_eq]

section
variable (s : State) {r : Role} {b : Bytes}

theorem permitted_regRead (h : pkOp b = 2) : s.permitted r b = (wordsOf b).all (s.wordAllows r false) := by
  simp only [permitted, h]

theorem permitted_regWrite (h : pkOp b = 3) : s.permitted r b = (wordsOf b).all (s.wordAllows r true) := by
  simp only [permitted, h]

theorem permitted_remove (h : pkOp b = 0x34) : s.permitted r b = (rules r || r == .tenant (pkPart b)) := by
  simp only [permitted, h]

theorem permitted_deviceRead (h : pkOp b ∈ [0x38, 0x3A, 0x3B]) : s.permitted r b = (rules r || r == .peer) := by
  simp only [List.mem_cons, List.not_mem_nil, or_false] at h
  rcases h with h | h | h <;> simp only [permitted, h]

theorem permitted_part (h : pkOp b ∈ partOpcodes) : s.permitted r b = s.partAllows r (pkPart b) := by
  unfold permitted
  split
  case h_10 => exact if_pos (List.contains_iff_mem.2 h)
  all_goals
    next hop => rw [hop] at h; exact absurd h (by decide)

/-- A command that the table of R387 does not name, and that acts on no partition. -/
theorem permitted_other (h : pkOp b ∉ [0x01, 0x02, 0x03, 0x30, 0x31, 0x34, 0x38, 0x3A, 0x3B])
    (hpart : pkOp b ∉ partOpcodes) : s.permitted r b = rules r := by
  unfold permitted
  split
  case h_10 => exact if_neg (mt List.contains_iff_mem.1 hpart)
  all_goals
    next hop => rw [hop] at h; exact absurd (by decide) h

/-- A tenant may name a word of its own partition alone. -/
theorem scopeOf_of_wordAllows_tenant {t : Nat} {write : Bool} {off : Nat} (h : s.wordAllows (.tenant t) write off = true) :
    s.scopeOf off = some t := by
  unfold wordAllows at h
  split at h
  next p hp =>
    have hown : t = p := beq_iff_eq.1 h
    rw [hp, hown]
  next => cases write <;> cases h

/-- A write of a word of device scope is for HOST and OPERATOR. -/
theorem rules_of_wordAllows_write {off : Nat} (h : s.wordAllows r true off = true) (hdevice : s.scopeOf off = none) :
    rules r = true := by
  rw [wordAllows, hdevice] at h
  exact (Bool.or_eq_true_iff.1 h).resolve_right Bool.false_ne_true

theorem partAllows_tenant_iff (t p : Nat) : s.partAllows (.tenant t) p = true ↔ p = t := beq_iff_eq.trans eq_comm

/-- HOST and OPERATOR act on a partition that gives them access. -/
theorem partAllows_ruler {p : Nat} (hr : r = .host ∨ r = .operator) :
    s.partAllows r p = s.flag F.SEC_PART_STAT_OPERATOR_ACCESS p := by
  rcases hr with rfl | rfl <;> rfl

end

end State

end Sys2Proof.Machine
end

section
/-! SUPPORT. Measurement blocks (R393): which are defined, and their fields at their places. -/

namespace Sys2Proof.Machine

namespace State

section
variable (s : State)

theorem measured_part {p : Nat} (hp : p < 16) : s.measured (4 + p) = some (false, s.digestAt .CFG_PART_DIGEST p) := by
  have hblock : 4 ≤ 4 + p ∧ 4 + p ≤ 19 := by omega
  rw [measured, if_neg (by omega), if_neg (by omega), if_neg (by omega), if_pos hblock, Nat.add_sub_cancel_left]

theorem measured_eq_none_iff (i : Nat) : s.measured i = none ↔ i = 0 ∨ 23 < i := by
  unfold measured
  repeat' split
  all_goals simp only [reduceCtorEq, false_iff, true_iff]; omega

/-- The seven bytes before the value of a block, by field. -/
theorem measurementBlock_eq {i : Nat} {raw : Bool} {v : Bytes} (h : s.measured i = some (raw, v)) :
    s.measurementBlock i = leBytes 1 i ++ leBytes 1 1 ++ leBytes 2 (v.length + 3)
      ++ leBytes 1 (128 * b2n raw + (Config.measurementType i).toNat) ++ leBytes 2 v.length ++ v := by
  rw [measurementBlock, h]

theorem measurements_append (l m : List Nat) : s.measurements (l ++ m) = s.measurements l ++ s.measurements m :=
  List.flatMap_append

end

section
variable {s : State} {i : Nat} {raw : Bool} {v : Bytes} (h : s.measured i = some (raw, v))
include h

theorem measurementBlock_index (hi : i < 256) : leAt (s.measurementBlock i) 0 1 = i := by
  have hread := leAt_leBytes (a := []) (o := 0) rfl 1 i (leBytes 1 1 ++ leBytes 2 (v.length + 3)
      ++ leBytes 1 (128 * b2n raw + (Config.measurementType i).toNat) ++ leBytes 2 v.length ++ v)
  rw [measurementBlock_eq s h]
  simpa only [List.nil_append, List.append_assoc, Nat.mod_eq_of_lt (show i < 256 ^ 1 from hi)] using hread

theorem measurementBlock_size (hv : v.length < 0xFFFD) : leAt (s.measurementBlock i) 2 2 = v.length + 3 := by
  have hread := leAt_leBytes (a := leBytes 1 i ++ leBytes 1 1) (o := 2) (by simp) 2 (v.length + 3)
    (leBytes 1 (128 * b2n raw + (Config.measurementType i).toNat) ++ leBytes 2 v.length ++ v)
  rw [measurementBlock_eq s h]
  simpa only [List.append_assoc, Nat.mod_eq_of_lt (show v.length + 3 < 256 ^ 2 by omega)] using hread

theorem measurementBlock_valueSize (hv : v.length < 0xFFFD) : leAt (s.measurementBlock i) 5 2 = v.length := by
  have hread := leAt_leBytes (a := leBytes 1 i ++ leBytes 1 1 ++ leBytes 2 (v.length + 3)
    ++ leBytes 1 (128 * b2n raw + (Config.measurementType i).toNat)) (o := 5) (by simp) 2 v.length v
  rw [measurementBlock_eq s h]
  simpa only [Nat.mod_eq_of_lt (show v.length < 256 ^ 2 by omega)] using hread

theorem measurementBlock_value : (s.measurementBlock i).drop 7 = v := by
  rw [measurementBlock_eq s h]
  exact List.drop_left' (by simp)

end

end State

end Sys2Proof.Machine
end

section
/-! SUPPORT. The statements about reset, commands, the host port, permissions, measurements and removal settled. -/

namespace Sys2Proof.Settled

open Sys2Proof.Machine

/-- Settles O36: the stores of the reset state list the digests alone. Reset values that the spec does not give are the model's
(log entries 3 and 4). -/
theorem resetValues : Obligations.ResetValues :=
  ⟨fun _ _ _ _ => State.rd_reset, State.rd_reset_devDigest, rfl, rfl, rfl, rfl, rfl, rfl, rfl, rfl⟩

/-- Settles O32: each command's own lemma says that it answers a next state and keeps the queue, and a step is the front
command's answer or a tick. That a row out of turn answers too is the model's choice (log entries 11 and 12). -/
theorem everyCommandCompletes : Obligations.EveryCommandCompletes := by
  refine ⟨fun c s => ?command, fun s => ?step⟩
  case command =>
    obtain ⟨t, ht, hpending, -⟩ := exec_keeps (.refl s) c
    exact ⟨t, ht, hpending⟩
  case step =>
    cases hq : s.pending with
    | nil => exact ⟨_, step_nil hq⟩
    | cons c rest =>
      obtain ⟨t, ht, -⟩ := exec_keeps (.refl { s with pending := rest }) c
      exact ⟨t, (step_cons hq).trans ht⟩

/-- Settles O51: a register reset stays so through the resets of the others, and a response finds its queue pair disabled. -/
theorem perstResets : Obligations.PerstResets := by
  intro s hs
  obtain ⟨hup, hwidth, hspeed, hlost⟩ := State.fld_linkLost hs
  have hstat {f : Fld} (hf : f.reg = .MGT_HP_STAT) : s.perst.fld f = s.linkLost.fld f :=
    State.fld_eq_of_rd_eq (by rw [hf, State.rd_perst_hpStat hs])
  have hcmd := s.beyondQueues_perst
  refine ⟨s.perst, rfl, fun q hq => ⟨fun r hr => State.rd_perst_hostReg hs hr hq, State.flag_perst_qpEn hs hq⟩,
    (hstat rfl).trans hup, (hstat rfl).trans hwidth, (hstat rfl).trans hspeed, (hstat rfl).trans hlost,
    (congrArg CmdX.taken hcmd :), (congrArg CmdX.work hcmd :), (congrArg CmdX.forwards hcmd :), (congrArg CmdX.inband hcmd :),
    fun c q gen status arg payload hpath hq hstatus => ?_⟩
  exact State.respond_of_pair_disabled hpath (State.flag_perst_qpEn hs hq) hstatus arg payload

/-- Settles O19: every row is the branches of its operation. That a slot not written reads as zeros, when a packet is ready and
how a response finds its entry are the model's choice (log entries 45 and 49). -/
theorem hostPort : Obligations.HostPort := by
  refine ⟨fun _ _ _ _ => ?sqTail, fun _ _ _ => ?cqHead, fun _ _ _ => ?enable, fun _ => ?take, fun _ _ _ _ => ?inband,
    fun _ _ _ => ?linkUp, fun _ => ?forward, fun _ _ => ?response, fun _ _ => ?timeout⟩
  case sqTail | cqHead | enable | linkUp => rfl
  case take | inband => rfl
  case forward | response | timeout => rfl

/-- Settles O41: the check of each kind of command is one rule, and each rule says which roles it lets in. -/
theorem permissions : Obligations.Permissions := by
  refine ⟨fun s t b hop h off hoff => ?tenantWords, fun s r b hop h off hoff hdevice => ?deviceWrites,
    fun s t b hop h => ?tenantPart, fun s r b hop hpart => ?others, fun s r b hop => ?reads, fun s r b hop => ?remove,
    fun s r b hop h hr => ?access⟩
  case tenantWords =>
    have hall : ∃ write, (State.wordsOf b).all (s.wordAllows (.tenant t) write) = true := by
      rcases hop with hop | hop
      · exact ⟨false, (s.permitted_regRead hop).symm.trans h⟩
      · exact ⟨true, (s.permitted_regWrite hop).symm.trans h⟩
    obtain ⟨write, hall⟩ := hall
    exact s.scopeOf_of_wordAllows_tenant (List.all_eq_true.1 hall off hoff)
  case deviceWrites =>
    rw [s.permitted_regWrite hop] at h
    exact (State.rules_iff r).1 (s.rules_of_wordAllows_write (List.all_eq_true.1 h off hoff) hdevice)
  case tenantPart =>
    rw [s.permitted_part hop] at h
    exact (s.partAllows_tenant_iff ..).1 h
  case others => rw [s.permitted_other hop hpart, State.rules_iff]
  case reads => rw [s.permitted_deviceRead hop, Bool.or_eq_true, State.rules_iff, beq_iff_eq, or_assoc]
  case remove => rw [s.permitted_remove hop, Bool.or_eq_true, State.rules_iff, beq_iff_eq, or_assoc]
  case access =>
    rw [s.permitted_part hop, s.partAllows_ruler hr] at h
    exact h

/-- Settles O60: the table is the definition's own, and a block's fields read back from their places (the form is DMTF's: log
entry 101). -/
theorem measurementBlocks : Obligations.MeasurementBlocks :=
  ⟨fun s _ => s.measured_part, fun _ => ⟨rfl, rfl, rfl, rfl, rfl, rfl, rfl⟩, State.measured_eq_none_iff,
    fun _ _ _ _ hi hv h => ⟨State.measurementBlock_index h hi, State.measurementBlock_size h hv,
      State.measurementBlock_valueSize h hv, State.measurementBlock_value h⟩, State.measurements_append⟩

/-- Settles O22: the end of zeroising is an operation by its name, every other row the branches of its operation. The states in
which the rows act, and that command frames stay, are the model's choice (log entry 64). -/
theorem removalEvents : Obligations.RemovalEvents := by
  refine ⟨fun _ _ => ?drained, fun _ _ => ?deadline, fun _ _ => ?retired, fun _ _ => ?zeroised⟩
  case drained | deadline | retired => rfl
  case zeroised => rfl

end Sys2Proof.Settled
end

section
/-! SUPPORT. The event FIFO (R417, R418): what the creation of an entry leaves of it. -/

namespace Sys2Proof.Machine

namespace State

section
variable {s : State}

/-- The interrupt of vector 8 changes no register and no entry. -/
theorem vector8_fc (s : State) : s.vector8.fc = s.fc := by
  rw [vector8, apply_ite State.fc, emit, ite_self]

theorem rd_vector8 (s : State) (r : RegName) (i j k : Nat) : s.vector8.rd r i j k = s.rd r i j k := by
  rw [vector8, apply_ite fun t : State => t.rd r i j k]
  exact ite_self _

/-- A full FIFO makes room, and counts what it gives up. -/
def makeRoom (s : State) : State := if decide (65600 ≤ s.fc.fifo.length) then s.bump F.FC_EVQ_LOST_LOST else s

/-- The entries that stay when one is created. -/
def staying (s : State) : List Event := if decide (65600 ≤ s.fc.fifo.length) then s.fc.fifo.drop 1 else s.fc.fifo

/-- The FIFO with an entry of the next SEQ at its end. -/
def withEntry (s : State) (e : Event) : State :=
  ({ s.makeRoom with fc := { s.makeRoom.fc with fifo := s.staying ++ [{ e with seq := s.fld F.FC_EVQ_STAT_NEXT_SEQ }],
                                                made := s.makeRoom.fc.made + 1 } } : State).wrap F.FC_EVQ_STAT_NEXT_SEQ

theorem createEntry_eq (s : State) (e : Event) : s.createEntry e =
    if s.fc.fifo.isEmpty then (s.withEntry e).showFill.vector8 else (s.withEntry e).showFill := rfl

theorem createEntry_fifo (s : State) (e : Event) :
    (s.createEntry e).fc.fifo = s.staying ++ [{ e with seq := s.fld F.FC_EVQ_STAT_NEXT_SEQ }] := by
  rw [createEntry_eq, apply_ite State.fc, vector8_fc, ite_self]
  rfl

/-- The registers after the creation are those of the entry's writes and of the fill shown. -/
theorem rd_createEntry (s : State) (e : Event) (r : RegName) (i j k : Nat) :
    (s.createEntry e).rd r i j k = (s.withEntry e).showFill.rd r i j k := by
  rw [createEntry_eq, apply_ite fun t : State => t.rd r i j k, rd_vector8, ite_self]

/-- In a FIFO within its bound the oldest entry gives way when it is full. -/
theorem staying_eq (hfifo : s.fc.fifo.length ≤ 65600) :
    s.staying = if s.fc.fifo.length = 65600 then s.fc.fifo.drop 1 else s.fc.fifo := by
  have hfull : 65600 ≤ s.fc.fifo.length ↔ s.fc.fifo.length = 65600 := by omega
  simp only [staying, decide_eq_true_eq, hfull]

theorem makeRoom_eq (hfifo : s.fc.fifo.length ≤ 65600) :
    s.makeRoom = if s.fc.fifo.length = 65600 then s.bump F.FC_EVQ_LOST_LOST else s := by
  have hfull : 65600 ≤ s.fc.fifo.length ↔ s.fc.fifo.length = 65600 := by omega
  simp only [makeRoom, decide_eq_true_eq, hfull]

theorem length_staying (hfifo : s.fc.fifo.length ≤ 65600) : s.staying.length < 65600 := by
  rw [staying_eq hfifo]
  split
  · rw [List.length_drop]; omega
  · omega

theorem makeRoom_inv (h : s.Inv) : s.makeRoom.Inv := by
  unfold makeRoom
  split
  · exact bump_inv h ..
  · exact h

theorem withEntry_inv (h : s.Inv) (e : Event) : (s.withEntry e).Inv := setFld_inv (makeRoom_inv h) _

theorem fld_createEntry_nextSeq (h : s.Inv) (e : Event) :
    (s.createEntry e).fld F.FC_EVQ_STAT_NEXT_SEQ = (s.fld F.FC_EVQ_STAT_NEXT_SEQ + 1) % 2 ^ 32 := by
  have hroom : s.makeRoom.fld F.FC_EVQ_STAT_NEXT_SEQ = s.fld F.FC_EVQ_STAT_NEXT_SEQ := by
    unfold makeRoom
    split
    · exact fld_setFld_ne h (by decide)
    · rfl
  have hfill : (s.withEntry e).showFill.fld F.FC_EVQ_STAT_NEXT_SEQ = (s.withEntry e).fld F.FC_EVQ_STAT_NEXT_SEQ :=
    fld_setFld_apart (withEntry_inv h e) rfl (by decide) (by decide)
  have hnext := fld_setFld_self (makeRoom_inv h) F.FC_EVQ_STAT_NEXT_SEQ (s.makeRoom.fld F.FC_EVQ_STAT_NEXT_SEQ + 1) 0 0 0
    (by decide)
  rw [fld_eq_of_rd_eq (s.rd_createEntry e _ 0 0 0), hfill, ← hroom]
  exact hnext

/-- What making room counts stays: the entry's own writes are of another register. -/
theorem fld_createEntry_lost (h : s.Inv) (e : Event) :
    (s.createEntry e).fld F.FC_EVQ_LOST_LOST = s.makeRoom.fld F.FC_EVQ_LOST_LOST := by
  have hfill : (s.withEntry e).showFill.fld F.FC_EVQ_LOST_LOST = (s.withEntry e).fld F.FC_EVQ_LOST_LOST :=
    fld_setFld_ne (withEntry_inv h e) (by decide)
  have hentry : (s.withEntry e).fld F.FC_EVQ_LOST_LOST = s.makeRoom.fld F.FC_EVQ_LOST_LOST :=
    fld_setFld_ne (makeRoom_inv h) (by decide)
  rw [fld_eq_of_rd_eq (s.rd_createEntry e _ 0 0 0), hfill, hentry]

end

end State

end Sys2Proof.Machine
end

section
/-! SUPPORT. A raise at severity Count or Notify (R407, R408): what it leaves in the registers of its source, and that the
pulse and the entry change none of them. -/

namespace Sys2Proof.Machine

/-- The registers that the collector has for each source. -/
def perSource : List RegName := [.FC_SRC_CNT, .FC_SRC_FIRST, .FC_SRC_INST]

/-- The registers in which the collector records raises. -/
def sourceRegs : List RegName := .FC_STAT :: perSource

section
variable {q r : RegName} (hq : q ∈ perSource) (i : Nat)
include hq

theorem perSource_addr_ne (hr : r ∈ perSource) (hne : q ≠ r) : q.addr i ≠ r.addr i := by
  have hstride : ∀ q ∈ perSource, q.row.s1 = 0x20 := by decide
  have hbase : ∀ q ∈ perSource, ∀ r ∈ perSource, q ≠ r → q.row.base ≠ r.row.base := by decide
  rw [RegName.addr_fst, RegName.addr_fst, hstride q hq, hstride r hr]
  exact mt Nat.add_right_cancel (hbase q hq r hr hne)

/-- The registers of sources stand after all others of the collector. -/
theorem perSource_addr_ge : 0x201000 ≤ q.addr i := by
  have hbase : ∀ q ∈ perSource, 0x201000 ≤ q.row.base := by decide
  exact Nat.le_trans (hbase q hq) (q.base_le_addr i 0 0)

theorem stat_addr_ne_perSource : RegName.addr .FC_STAT ≠ q.addr i :=
  Nat.ne_of_lt (Nat.lt_of_lt_of_le (by decide) (perSource_addr_ge hq i))

end

/-- The registers of the ERR_N pulse, of the FIFO and of the words with an error stand apart from those. -/
theorem sourceReg_addr_ne {q : RegName} (hq : q ∈ sourceRegs) (i : Nat) {r : RegName}
    (hr : r ∈ [.FC_ERR, .FC_EVQ_STAT, .FC_EVQ_LOST, .FC_QECC]) : q.addr i ≠ r.addr := by
  have hbelow : ∀ r ∈ [RegName.FC_ERR, .FC_EVQ_STAT, .FC_EVQ_LOST, .FC_QECC], r.addr < 0x201000 ∧ 0x200010 ≠ r.addr := by
    decide
  obtain ⟨hlt, hne⟩ := hbelow r hr
  rcases List.mem_cons.1 hq with rfl | hq
  · exact hne
  · exact Nat.ne_of_gt (Nat.lt_of_lt_of_le hlt (perSource_addr_ge hq i))

namespace State

section
variable {s : State} {q : RegName} {i : Nat}

theorem rd_showErr (h : s.Inv) (hq : q ∈ sourceRegs) : s.showErr.rd q i = s.rd q i :=
  rd_setFld_ne h (sourceReg_addr_ne hq i (by decide))

theorem rd_errPulse (h : s.Inv) (hq : q ∈ sourceRegs) (sev : Nat) : (s.errPulse sev).rd q i = s.rd q i := by
  unfold errPulse
  split
  · have hpulse : ({ s with fc := { s.fc with pulseAt := s.now } } : State).Inv := h
    exact (rd_showErr (setFld_inv hpulse _) hq).trans (rd_setFld_ne hpulse (sourceReg_addr_ne hq i (by decide)))
  · rfl

theorem rd_makeRoom (h : s.Inv) (hq : q ∈ sourceRegs) : s.makeRoom.rd q i = s.rd q i := by
  unfold makeRoom
  split
  · exact rd_bump_ne h (sourceReg_addr_ne hq i (by decide))
  · rfl

theorem rd_createEntry_source (h : s.Inv) (hq : q ∈ sourceRegs) (e : Event) : (s.createEntry e).rd q i = s.rd q i := by
  have hapart := sourceReg_addr_ne hq i (r := .FC_EVQ_STAT) (by decide)
  rw [rd_createEntry]
  calc (s.withEntry e).showFill.rd q i = (s.withEntry e).rd q i := rd_setFld_ne (withEntry_inv h e) hapart
    _ = s.makeRoom.rd q i := rd_setFld_ne (makeRoom_inv h) hapart
    _ = s.rd q i := rd_makeRoom h hq

theorem rd_queueEvent (h : s.Inv) (hq : q ∈ sourceRegs) (e : Event) : (s.queueEvent e).rd q i = s.rd q i := by
  unfold queueEvent
  split
  · exact rd_createEntry_source h hq e
  · split
    · rfl
    · exact rd_bump_ne h (sourceReg_addr_ne hq i (by decide))

end

section
variable (s : State) (r : Report)

/-- The bit of a source set in FC_STAT. -/
def flagged (i : Nat) : State := s.setFld F.FC_STAT_STATUS (Nat.lor (s.rd .FC_STAT) (2 ^ i))

/-- A raise counted: its bit, its count and its INST as the last. -/
def counted : State := ((s.flagged r.src).bump F.FC_SRC_CNT_COUNT 1 r.src).setFld F.FC_SRC_INST_LAST r.inst r.src

/-- A raise recorded: counted, and the first since its bit was clear held with its tick. -/
def recorded : State :=
  if !bitOf (s.rd .FC_STAT) r.src then
    ((s.counted r).setFld F.FC_SRC_FIRST_TICK r.tick r.src).setFld F.FC_SRC_INST_FIRST r.inst r.src
  else s.counted r

/-- At Count and Notify a raise is recorded, starts a pulse and makes an entry as its severity says, and stops nothing. -/
theorem arrive_eq (hsrc : r.src ≠ 0) (hsev : s.sevOf r.src ≤ 1) (reraise : Bool) : s.arrive r reraise =
    let t := (s.recorded r).errPulse (s.sevOf r.src)
    if s.sevOf r.src = 0 then t
    else t.queueEvent ⟨r.tick, 0, r.src, s.sevOf r.src, r.injected, reraise, t.safe, r.inst, r.info⟩ := by
  have hsafe : s.sevOf r.src ≠ 3 := by omega
  have hcontain : s.sevOf r.src ≠ 2 := by omega
  unfold arrive
  simp only [if_neg hsrc, if_neg hsafe, if_neg hcontain]
  rfl

end

section
variable {s : State} {r : Report}

theorem flagged_inv (h : s.Inv) (i : Nat) : (s.flagged i).Inv := setFld_inv h _

theorem counted_inv (h : s.Inv) (r : Report) : (s.counted r).Inv := setFld_inv (bump_inv (flagged_inv h _) ..) _

theorem recorded_inv (h : s.Inv) (r : Report) : (s.recorded r).Inv := by
  unfold recorded
  split
  · exact setFld_inv (setFld_inv (counted_inv h r) _) _
  · exact counted_inv h r

/-- What a raise leaves in the registers of its source is what it recorded. -/
theorem rd_arrive (h : s.Inv) (hsrc : r.src ≠ 0) (hsev : s.sevOf r.src ≤ 1) (reraise : Bool) {q : RegName}
    (hq : q ∈ sourceRegs) (i : Nat) : (s.arrive r reraise).rd q i = (s.recorded r).rd q i := by
  have hrec := recorded_inv h r
  have hpulse := (errPulse_keeps (.refl (s.recorded r)) (s.sevOf r.src)).2 hrec
  rw [arrive_eq s r hsrc hsev]
  dsimp only
  split
  · exact rd_errPulse hrec hq _
  · exact (rd_queueEvent hpulse hq _).trans (rd_errPulse hrec hq _)

end

/-! The registers of a source after a raise is recorded -/

section
variable {s : State} {r : Report} (h : s.Inv)
include h

/-- The bit of one source leaves the registers that each source has. -/
theorem rd_flagged {q : RegName} (hq : q ∈ perSource) (i j : Nat) : (s.flagged i).rd q j = s.rd q j :=
  rd_setFld_ne h (stat_addr_ne_perSource hq _).symm

/-- Of what a raise counted, the record of the first changes FC_SRC_FIRST and FC_SRC_INST alone. -/
theorem rd_recorded_of_apart {q : RegName} {i : Nat} (hfirst : q.addr i ≠ F.FC_SRC_FIRST_TICK.reg.addr r.src)
    (hinst : q.addr i ≠ F.FC_SRC_INST_FIRST.reg.addr r.src) : (s.recorded r).rd q i = (s.counted r).rd q i := by
  have hcounted := counted_inv h r
  unfold recorded
  split
  · exact (rd_setFld_ne (setFld_inv hcounted _) hinst).trans (rd_setFld_ne hcounted hfirst)
  · rfl

theorem rd_counted_stat (hsrc : r.src < 64) : (s.counted r).rd .FC_STAT = s.rd .FC_STAT ||| 2 ^ r.src := by
  have hstat := flagged_inv h r.src
  have hlt : s.rd .FC_STAT ||| 2 ^ r.src < 2 ^ 64 := Nat.or_lt_two_pow (s.rd_lt ..) (Nat.pow_lt_pow_right (by decide) hsrc)
  have hself := fld_setFld_self h F.FC_STAT_STATUS (Nat.lor (s.rd .FC_STAT) (2 ^ r.src)) 0 0 0 (by decide)
  calc (s.counted r).rd .FC_STAT
      = ((s.flagged r.src).bump F.FC_SRC_CNT_COUNT 1 r.src).rd .FC_STAT :=
        rd_setFld_ne (bump_inv hstat ..) (stat_addr_ne_perSource (by decide) _)
    _ = (s.flagged r.src).rd .FC_STAT :=
        rd_bump_ne hstat (stat_addr_ne_perSource (by decide) _)
    _ = s.rd .FC_STAT ||| 2 ^ r.src := by
        rw [← bitsOf_of_lt (State.rd_lt ..)]
        exact hself.trans (Nat.mod_eq_of_lt hlt)

/-- The source's bit is set, and the others' stay. -/
theorem testBit_rd_recorded_stat (hsrc : r.src < 64) (b : Nat) :
    ((s.recorded r).rd .FC_STAT).testBit b = ((s.rd .FC_STAT).testBit b || b == r.src) := by
  have hcounted := rd_recorded_of_apart h (r := r) (q := .FC_STAT) (i := 0) (stat_addr_ne_perSource (by decide) _)
    (stat_addr_ne_perSource (by decide) _)
  rw [hcounted, rd_counted_stat h hsrc, Nat.testBit_or, Nat.testBit_two_pow, beq_eq_decide,
    decide_eq_decide.2 (eq_comm (a := r.src))]

/-- The count of the source goes up by one, to 0xFFFF_FFFF at most. -/
theorem fld_recorded_count : (s.recorded r).fld F.FC_SRC_CNT_COUNT r.src =
    min (s.fld F.FC_SRC_CNT_COUNT r.src + 1) 0xFFFFFFFF := by
  have hstat := flagged_inv h r.src
  have hcounted := rd_recorded_of_apart h (r := r) (q := F.FC_SRC_CNT_COUNT.reg) (i := r.src)
    (perSource_addr_ne (by decide) _ (by decide) (by decide)) (perSource_addr_ne (by decide) _ (by decide) (by decide))
  have hlast : (s.counted r).fld F.FC_SRC_CNT_COUNT r.src = _ :=
    fld_setFld_ne (bump_inv hstat ..) (perSource_addr_ne (by decide) _ (by decide) (by decide))
  have hbefore : (s.flagged r.src).fld F.FC_SRC_CNT_COUNT r.src
      = s.fld F.FC_SRC_CNT_COUNT r.src := fld_eq_of_rd_eq (rd_flagged h (by decide) _ _)
  rw [fld_eq_of_rd_eq hcounted, hlast, fld_bump_self hstat (by decide), hbefore]
  rfl

/-- The INST of the raise is the last of the source. -/
theorem fld_recorded_last : (s.recorded r).fld F.FC_SRC_INST_LAST r.src = r.inst % 2 ^ 16 := by
  have hstat := flagged_inv h r.src
  have hcounted := counted_inv h r
  have hlast : (s.counted r).fld F.FC_SRC_INST_LAST r.src = r.inst % 2 ^ 16 :=
    fld_setFld_self (bump_inv hstat ..) F.FC_SRC_INST_LAST _ _ _ _ (by decide)
  unfold recorded
  split
  · have hmark : (((s.counted r).setFld F.FC_SRC_FIRST_TICK r.tick r.src).setFld F.FC_SRC_INST_FIRST r.inst r.src).fld
        F.FC_SRC_INST_LAST r.src = ((s.counted r).setFld F.FC_SRC_FIRST_TICK r.tick r.src).fld F.FC_SRC_INST_LAST r.src :=
      fld_setFld_apart (setFld_inv hcounted _) rfl (by decide) (by decide)
    rw [hmark, fld_setFld_ne (f := F.FC_SRC_FIRST_TICK) hcounted (perSource_addr_ne (by decide) _ (by decide) (by decide)),
      hlast]
  · exact hlast

/-- The first raise since the bit was clear leaves its tick and its INST. -/
theorem recorded_first (hclear : bitOf (s.rd .FC_STAT) r.src = false) :
    (s.recorded r).rd .FC_SRC_FIRST r.src = r.tick % 2 ^ 64
    ∧ (s.recorded r).fld F.FC_SRC_INST_FIRST r.src = r.inst % 2 ^ 16 := by
  have hcounted := counted_inv h r
  have hfirst := setFld_inv hcounted F.FC_SRC_FIRST_TICK (v := r.tick) (i := r.src) (j := 0) (k := 0)
  have htick := fld_setFld_self hcounted F.FC_SRC_FIRST_TICK r.tick r.src 0 0 (by decide)
  have hopen : (!bitOf (s.rd .FC_STAT) r.src) = true := by rw [hclear]; rfl
  rw [recorded, if_pos hopen]
  refine ⟨?tick, fld_setFld_self hfirst F.FC_SRC_INST_FIRST _ _ _ _ (by decide)⟩
  case tick =>
    rw [rd_setFld_ne (f := F.FC_SRC_INST_FIRST) hfirst (perSource_addr_ne (by decide) _ (by decide) (by decide)),
      ← bitsOf_of_lt (State.rd_lt ..)]
    exact htick

/-- A later raise leaves the record of the first. -/
theorem recorded_again (hset : bitOf (s.rd .FC_STAT) r.src = true) :
    (s.recorded r).rd .FC_SRC_FIRST r.src = s.rd .FC_SRC_FIRST r.src
    ∧ (s.recorded r).fld F.FC_SRC_INST_FIRST r.src = s.fld F.FC_SRC_INST_FIRST r.src := by
  have hstat := flagged_inv h r.src
  have hclosed : ¬ (!bitOf (s.rd .FC_STAT) r.src) = true := by rw [hset]; decide
  rw [recorded, if_neg hclosed]
  constructor
  · calc (s.counted r).rd .FC_SRC_FIRST r.src = _ :=
          rd_setFld_ne (bump_inv hstat ..) (perSource_addr_ne (by decide) _ (by decide) (by decide))
      _ = _ := rd_bump_ne hstat (perSource_addr_ne (by decide) _ (by decide) (by decide))
      _ = s.rd .FC_SRC_FIRST r.src := rd_flagged h (by decide) _ _
  · calc (s.counted r).fld F.FC_SRC_INST_FIRST r.src = _ := fld_setFld_apart (bump_inv hstat ..) rfl (by decide) (by decide)
      _ = _ := fld_setFld_ne hstat (perSource_addr_ne (by decide) _ (by decide) (by decide))
      _ = s.fld F.FC_SRC_INST_FIRST r.src := fld_eq_of_rd_eq (rd_flagged h (by decide) _ _)

end

section
variable {s : State} {i : Nat}

/-- An uncorrectable word of the event FIFO, or of a Marigold queue, counted where a raise says so (R417). -/
def wordErrorCounted (s : State) (i : Nat) : State :=
  if i = 0x01 then s.bump F.FC_QECC_EVQ_UE else if i = 0x12 then s.bump F.FC_QECC_MG_UE else s

theorem wordErrorCounted_inv (h : s.Inv) (i : Nat) : (s.wordErrorCounted i).Inv := by
  unfold wordErrorCounted
  split
  · exact bump_inv h ..
  · split
    · exact bump_inv h ..
    · exact h

theorem rd_wordErrorCounted (h : s.Inv) {q : RegName} {a b c : Nat} (hne : q.addr a b c ≠ RegName.addr .FC_QECC) :
    (s.wordErrorCounted i).rd q a b c = s.rd q a b c := by
  unfold wordErrorCounted
  split
  · exact rd_bump_ne (f := F.FC_QECC_EVQ_UE) h hne
  · split
    · exact rd_bump_ne (f := F.FC_QECC_MG_UE) h hne
    · rfl

theorem wordErrorCounted_fc (s : State) (i : Nat) : (s.wordErrorCounted i).fc = s.fc := by
  unfold wordErrorCounted
  rw [apply_ite State.fc, apply_ite State.fc, bump_fc, bump_fc, ite_self, ite_self]

theorem bump_now (s : State) (f : Fld) (n i j k : Nat) : (s.bump f n i j k).now = s.now := rfl

theorem wordErrorCounted_now (s : State) (i : Nat) : (s.wordErrorCounted i).now = s.now := by
  unfold wordErrorCounted
  rw [apply_ite State.now, apply_ite State.now, bump_now, bump_now, ite_self, ite_self]

theorem count_wordErrorCounted (h : s.Inv) : (s.wordErrorCounted i).count = s.count :=
  fld_eq_of_rd_eq (rd_wordErrorCounted h (by decide))

/-- The severity of a source is read elsewhere. -/
theorem sevOf_wordErrorCounted (h : s.Inv) (k : Nat) (hk : k < 64) : (s.wordErrorCounted i).sevOf k = s.sevOf k := by
  have hapart : RegName.addr .FC_SEV (k / 16) ≠ RegName.addr .FC_QECC := by
    have haddr : RegName.addr .FC_SEV (k / 16) = 0x200020 + k / 16 * 4 := RegName.addr_fst ..
    have hqecc : RegName.addr .FC_QECC = 0x200050 := rfl
    omega
  unfold sevOf
  rw [wordErrorCounted_fc, wordErrorCounted_now, rd_wordErrorCounted h hapart]

end

end State

/-- The report of a raise that FAULT_RAISE brings (R407). -/
abbrev reportOf (s : State) (r : RaiseOp) : Report :=
  ⟨r.src.toNat, r.inst.toNat, s.count, s.infoOf r.src.toNat r.inst.toNat, false⟩

theorem exec_faultRaise_of_source {r : RaiseOp} (hsrc : State.faultSources.contains r.src.toNat = true) (s : State) :
    exec (.faultRaise { raise := some r }) s = .next (
      (s.wordErrorCounted r.src.toNat).arrive (reportOf (s.wordErrorCounted r.src.toNat) r) false) := by
  change execFaultRaise { raise := some r } s = _
  unfold execFaultRaise
  dsimp only
  rw [if_pos hsrc]
  rfl

end Sys2Proof.Machine
end

section
/-! SUPPORT. The statements about the fault collector settled. -/

namespace Sys2Proof.Settled

open Sys2Proof.Machine

/-- Settles O49: at Count and Notify a raise is recorded in the registers of its source, which the pulse and the entry leave. -/
theorem raiseRecorded : Obligations.RaiseRecorded := by
  intro s r hs hsource hsev
  let t := s.wordErrorCounted r.src.toNat
  have hlt : r.src.toNat < 64 := r.src.isLt
  have hinst : r.inst.toNat % 2 ^ 16 = r.inst.toNat := Nat.mod_eq_of_lt r.inst.isLt
  have hcount : t.count % 2 ^ 64 = s.count := by
    rw [State.count_wordErrorCounted hs]
    exact Nat.mod_eq_of_lt (bitsOf_lt ..)
  have ht : t.Inv := State.wordErrorCounted_inv hs _
  have hsev' : t.sevOf r.src.toNat ≤ 1 := by rwa [State.sevOf_wordErrorCounted hs _ hlt]
  have hne : r.src.toNat ≠ 0 := fun h0 => by
    have hfixed : s.sevOf 0 = 3 := rfl
    rw [h0, hfixed] at hsev
    exact absurd hsev (by decide)
  have hbefore {q : RegName} (hq : q ∈ sourceRegs) (i : Nat) : t.rd q i = s.rd q i :=
    State.rd_wordErrorCounted hs (sourceReg_addr_ne hq i (by decide))
  have hafter {q : RegName} (hq : q ∈ sourceRegs) (i : Nat) :
      (t.arrive (reportOf t r) false).rd q i = (t.recorded (reportOf t r)).rd q i :=
    State.rd_arrive ht hne hsev' false hq i
  refine ⟨t.arrive (reportOf t r) false, exec_faultRaise_of_source hsource s, fun b _ => ?stat, ?count, ?last,
    fun hclear => ?first, fun hset => ?again⟩
  case stat =>
    rw [hafter (by decide), State.testBit_rd_recorded_stat ht hlt, hbefore (by decide)]
  case count =>
    rw [State.fld_eq_of_rd_eq (hafter (by decide) _), State.fld_recorded_count ht,
      State.fld_eq_of_rd_eq (hbefore (by decide) _)]
  case last => rw [State.fld_eq_of_rd_eq (hafter (by decide) _), State.fld_recorded_last ht, hinst]
  case first =>
    rw [← hbefore (by decide)] at hclear
    obtain ⟨htick, hfirst⟩ := State.recorded_first (r := reportOf t r) ht hclear
    rw [hafter (by decide), State.fld_eq_of_rd_eq (hafter (by decide) _), htick, hfirst]
    exact ⟨hcount, hinst⟩
  case again =>
    rw [← hbefore (by decide)] at hset
    obtain ⟨htick, hfirst⟩ := State.recorded_again (r := reportOf t r) ht hset
    rw [hafter (by decide), State.fld_eq_of_rd_eq (hafter (by decide) _), htick, hfirst, hbefore (by decide),
      State.fld_eq_of_rd_eq (hbefore (by decide) _)]
    exact ⟨rfl, rfl⟩

/-- Settles O50: the entries that stay are fewer than the bound, and the entry's writes are of other fields than what making room
counts. -/
theorem eventFifo : Obligations.EventFifo := by
  intro s e hs hfifo
  have hq := s.createEntry_fifo e
  refine ⟨?bound, ?queue, State.fld_createEntry_nextSeq hs e, ?lost⟩
  case bound =>
    rw [hq, List.length_append]
    exact State.length_staying hfifo
  case queue => rw [hq, State.staying_eq hfifo]
  case lost =>
    rw [State.fld_createEntry_lost hs e, State.makeRoom_eq hfifo]
    split
    · exact State.fld_bump_self hs (by decide) 1
    · rfl

/-- Settles O23: every row is the branches of its operation, and a clear takes the sources of its mask in turn. That FAULT_RAISE
brings bit errors, and counts words with one, is the model's choice (log entries 51, 77 and 102). -/
theorem collectorEvents : Obligations.CollectorEvents := by
  refine ⟨fun _ _ => ?raise, fun _ _ => ?clear, fun _ => ?safeExit, fun _ _ _ => ?severity, fun _ _ => ?errConfig,
    fun _ => ?pulseEnd, fun _ _ => ?inject⟩
  case raise | clear => rfl
  case safeExit => rfl
  case severity | errConfig | pulseEnd | inject => rfl

end Sys2Proof.Settled
end

section
/-! SUPPORT. The watchdog (R442): its bit EN after an MP reset, and the range of TMO. -/

namespace Sys2Proof.Machine

namespace State

theorem noteCause_eq_wr (s : State) (bit : Nat) :
    s.noteCause bit = s.wr .PWR_RST_CAUSE (Nat.lor (s.rd .PWR_RST_CAUSE) (2 ^ bit)) := rfl

/-- The last writes of an MP reset, after the answers that it gives. -/
theorem mpReset_ends_with (s : State) (cause : Nat) : ∃ a : State, (s.Inv → a.Inv)
    ∧ s.mpReset cause =
      (((a.setFld F.GLB_STATUS_MP_READY 0).setFld F.GLB_STATUS_RECOVERY 0).setFld F.PWR_WDT_EN 1).noteCause cause := by
  refine ⟨_, fun h => ?_, rfl⟩
  exact (dropValidation_keeps (Keeps.foldl (Keeps.mk_iff.2 (.refl s)) fun _ c ha => respond_keeps ha c 1 0 [])).2 h

/-- EN is 1 after every MP reset. -/
theorem flag_mpReset_wdtEn {s : State} (h : s.Inv) (cause : Nat) : (s.mpReset cause).flag F.PWR_WDT_EN = true := by
  obtain ⟨a, ha, heq⟩ := s.mpReset_ends_with cause
  have hready : ((a.setFld F.GLB_STATUS_MP_READY 0).setFld F.GLB_STATUS_RECOVERY 0).Inv := setFld_inv (setFld_inv (ha h) _) _
  have hne : F.PWR_WDT_EN.reg.addr ≠ RegName.addr .PWR_RST_CAUSE := by decide
  have hset := fld_setFld_self hready F.PWR_WDT_EN 1 0 0 0 (by decide)
  rw [heq, noteCause_eq_wr, flag, fld, rd_wr_ne (setFld_inv hready _) hne]
  exact beq_iff_eq.2 hset

end State

theorem fld_reset_wdtTmo : State.reset.fld F.PWR_WDT_TMO = 2000 := by decide +kernel

theorem bitsOf_clampReg_wdtTmo (v : Nat) :
    100 ≤ bitsOf (clampReg .PWR_WDT v) 0 16 ∧ bitsOf (clampReg .PWR_WDT v) 0 16 ≤ 60000 := by
  have hrange : (0, 16, 100, 60000) ∈ writeRanges .PWR_WDT := List.mem_singleton_self _
  have hclamp := bitsOf_clampReg hrange v
  rw [hclamp]
  exact clampTo_mem (by decide) _

end Sys2Proof.Machine
end

section
/-! SUPPORT. The statements about the watchdog, power, resets, boot and firmware settled. -/

namespace Sys2Proof.Settled

open Sys2Proof.Machine

/-- Settles O52: the two rows are their operations' own text, an MP reset writes EN last but for the cause, and a write takes
TMO to the nearer bound. -/
theorem watchdog : Obligations.Watchdog :=
  ⟨fun _ => rfl, fun _ => rfl, fun _ cause hs => State.flag_mpReset_wdtEn hs cause, fld_reset_wdtTmo,
    bitsOf_clampReg_wdtTmo⟩

/-- Settles O25: every row is the branches of its operation. What powered-off logic, rails and the SMBus show, and the time
inside a tick, are the model's choice (log entries 54, 55 and 71); the brownout is R436. -/
theorem supplyEvents : Obligations.SupplyEvents := by
  refine ⟨fun _ _ => ?powerUp, fun _ _ => ?powerDown, fun _ _ _ => ?railUp, fun _ _ => ?railMiss, fun _ _ _ => ?railTrip,
    fun _ _ => ?pllLock, fun _ => ?brownout, fun _ _ => ?refLoss, fun _ => ?refReturn, fun _ _ _ => ?smbusRead,
    fun _ _ _ _ => ?smbusWrite, fun _ _ _ => ?railClear, fun _ _ _ => ?powerCycle, fun _ _ _ => ?warmReset⟩
  case powerUp | powerDown | brownout => rfl
  case railUp | railMiss | railTrip => rfl
  case pllLock | refLoss | refReturn => rfl
  case smbusRead | smbusWrite => rfl
  case railClear | powerCycle | warmReset => rfl

/-- Settles O26: every row is the branches of its operation. That a settle time is an operand is the model's choice (log entry
53); PWR_COMMIT is R428. -/
theorem slicePower : Obligations.SlicePower := by
  refine ⟨fun _ _ => ?commit, fun _ _ _ => ?levelSwitch, fun _ _ => ?capLower, fun _ _ => ?fastTrip, fun _ _ => ?capRaise,
    fun _ _ _ => ?thermSample, fun _ _ => ?wake, fun _ _ => ?wakeComplete, fun _ _ => ?drainStart, fun _ _ => ?codeReload⟩
  case commit | levelSwitch => rfl
  case capLower | fastTrip | capRaise => rfl
  case thermSample => rfl
  case wake | wakeComplete | drainStart | codeReload => rfl

/-- Settles O27: a command writes its register with its own bit set, and each reset is the branches of its operation. -/
theorem resetCommands : Obligations.ResetCommands := by
  refine ⟨fun _ _ => ?standby, fun _ _ => ?standbyExit, fun _ => ?standbyEntered, fun _ _ => ?warm, fun _ _ => ?mp,
    fun _ _ => ?slice, fun _ => ?powerOn, fun _ => ?deviceWarm, fun _ _ => ?sliceReset, fun _ => ?mpReset⟩
  case standby | standbyExit | standbyEntered => rfl
  case warm | mp | slice => rfl
  case powerOn | deviceWarm | sliceReset | mpReset => rfl

/-- Settles O28: every row is the branches of its operation. That RELAY_RETRY is the response timeout too, and that a waiting
relay keeps its place, are the model's choice (log entries 56 and 57). -/
theorem bootEvents : Obligations.BootEvents := by
  refine ⟨fun _ _ => ?romBoot, fun _ => ?health, fun _ => ?writeDone, fun _ => ?timerExpiry, fun _ _ => ?relayResponse,
    fun _ => ?relayRetry⟩
  case romBoot => rfl
  case health | writeDone | timerExpiry => rfl
  case relayResponse | relayRetry => rfl

/-- Settles O29: each packet's row executes the oldest taken command under the packet's opcode, and the end of background work
is the branches of its operation. The directory copy of REC_INFO has no layout in the manual (log entries 9 and 56). -/
theorem firmwareCommands : Obligations.FirmwareCommands := by
  refine ⟨?fwBegin, ?fwChunk, ?fwEnd, ?fwRelay, ?fwDiscard, ?svnCommit, ?settingsRead, ?settingsWrite, fun _ _ _ => ?workDone,
    ?recInfo, ?recChunk, ?recInstall, ?recExit⟩
  case fwBegin | fwChunk | fwEnd | fwRelay => exact answers_of_run fun _ => rfl
  case fwDiscard | svnCommit => exact answers_of_run fun _ => rfl
  case settingsRead | settingsWrite => exact answers_of_run fun _ => rfl
  case recInfo | recChunk | recInstall | recExit => exact answers_of_run fun _ => rfl
  case workDone => rfl

end Sys2Proof.Settled
end

section
/-! SUPPORT. What each event's own condition leaves of it when the condition does not hold (log entries 11 and 12). -/

namespace Sys2Proof.Machine

namespace State

section
variable {s : State}

theorem seQueue_of_not_runs {n k : Nat} (hruns : ¬ s.seRuns n k 1) : s.seQueue n k = s := if_neg hruns

section
variable {x : Nat} (hport : s.portAt x = none)
include hport

theorem onPort_of_no_port (f : Nat → Nat → State) : s.onPort x f = s := by
  rw [onPort, hport]

theorem txStart_of_no_port : s.txStart x = s := by
  rw [txStart, hport]

end

/-- No correction falls but at the last count of an epoch (R141). -/
theorem correct_of_not_epoch_end (hcount : s.count % 2 ^ 20 ≠ 2 ^ 20 - 1) : s.correct = s := if_pos (.inl hcount)

theorem pulse_of_source (hsource : 2 ≤ s.source) (frac : Nat) : s.pulse frac = s := if_pos hsource

theorem slotStart_of_no_entry {x e : Nat} (hentry : ((s.slotsOf x).find? fun k => k.entry == e) = none) :
    s.slotStart x e = s := by
  rw [slotStart, hentry]
  cases s.portAt x <;> rfl

theorem endValidation_of_not_validating (hstage : s.stageState ≠ 2) : s.endValidation = s := if_pos hstage

theorem loadStored_of_not_fresh (hboot : ¬ (s.boot.running ∧ s.boot.fresh)) : s.loadStored = s :=
  if_pos (not_and_or.1 hboot)

theorem zeroised_of_not_zeroising {p : Nat} (hpart : ¬ (s.partState p = 4 ∧ s.flag F.SEC_PART_STAT_ZEROISING p)) :
    s.zeroised p = s := if_neg hpart

theorem wakeDone_of_not_waking {n : Nat} (hwaking : lookupKey s.pwr.waking n = none) : s.wakeDone n = s := by
  rw [wakeDone, hwaking]

theorem drainOne_of_not_issues {p : IssueAt} (hissues : ¬ s.issues p.core) (opcode w : Nat) : s.drainOne p opcode w = s :=
  if_neg hissues

section
variable {n : Nat}

theorem admitSlice_of_no_request (hopen : s.openRequests n = []) : s.admitSlice n = s := by
  rw [admitSlice, hopen, List.foldl_nil]

/-- With no copy of the slice granted, no pointer is handed over, however many may be. -/
theorem handOver_of_none_granted (hgranted : ∀ c ∈ s.copies, c.slice = n → c.phase ≠ .granted) (fuel : Nat) :
    s.handOver n fuel = s := by
  have hnone : (s.copies.filter fun c => c.slice == n && c.phase == .granted && (s.pool n c.pool).cache != []) = [] := by
    refine List.filter_eq_nil_iff.2 fun c hc hmine => ?_
    obtain ⟨⟨hslice, hphase⟩, -⟩ : (c.slice = n ∧ c.phase = .granted) ∧ _ := by
      simpa only [Bool.and_eq_true, beq_iff_eq] using hmine
    exact hgranted c hc hslice hphase
  cases fuel with
  | zero => rfl
  | succ k => rw [handOver, hnone]; rfl

end

end

end State

theorem exec_pointerHandover (n : Fin 16) (s : State) : exec (.pointerHandover n) s =
    .next ((s.admitSlice n).handOver n (4 - (s.admitSlice n).handedNow n)) := rfl

end Sys2Proof.Machine
end

section
/-! SUPPORT. The statements about the queue's front and about events out of turn settled. -/

namespace Sys2Proof.Settled

open Sys2Proof.Machine

/-- Settles O30: a step on a queue that is not empty runs the front command on the queue's rest. -/
theorem stepRunsFront : Obligations.StepRunsFront := fun _ _ => step_cons rfl

/-- Settles O54: each event is its operation, and the operation's own condition fails. -/
theorem nothingOutOfTurn : Obligations.NothingOutOfTurn := by
  refine ⟨fun n k s hruns => ?inbound, fun n k s hruns => ?outbound,
    fun x s hport => ⟨?txStart, fun raw bad time => ⟨?frameRx, ?helloRx⟩⟩,
    fun s hcount => ?correction, fun frac s hsource => ?pulse, fun x e s hentry => ?slotStart, fun s hstage => ?validation,
    fun s hboot => ?imageLoad, fun p s hpart => ?zeroise, fun n s hwaking => ?wake, fun p f g s hissues => ⟨?swait, ?endOp⟩,
    fun n s hopen => ⟨?admission, fun hgranted => ?handover⟩⟩
  case inbound => exact congrArg Host.Outcome.next (State.seWrite_of_not_runs (ne_true_of_eq_false hruns))
  case outbound => exact congrArg Host.Outcome.next (State.seQueue_of_not_runs (ne_true_of_eq_false hruns))
  case txStart => exact congrArg Host.Outcome.next (State.txStart_of_no_port hport)
  case frameRx | helloRx => exact congrArg Host.Outcome.next (State.onPort_of_no_port hport _)
  case correction => exact congrArg Host.Outcome.next (State.correct_of_not_epoch_end hcount)
  case pulse => exact congrArg Host.Outcome.next (State.pulse_of_source hsource frac)
  case slotStart => exact congrArg Host.Outcome.next (State.slotStart_of_no_entry hentry)
  case validation => exact congrArg Host.Outcome.next (State.endValidation_of_not_validating hstage)
  case imageLoad => exact congrArg Host.Outcome.next (State.loadStored_of_not_fresh hboot)
  case zeroise => exact congrArg Host.Outcome.next (State.zeroised_of_not_zeroising hpart)
  case wake => exact congrArg Host.Outcome.next (State.wakeDone_of_not_waking hwaking)
  case swait | endOp => exact congrArg Host.Outcome.next (State.drainOne_of_not_issues hissues _ _)
  case admission => exact congrArg Host.Outcome.next (State.admitSlice_of_no_request hopen)
  case handover =>
    rw [exec_pointerHandover, State.admitSlice_of_no_request hopen, State.handOver_of_none_granted hgranted]

end Sys2Proof.Settled
end
